-- ==== Sys2Proof/Word.lean ====
section
/-! DEFINITION. The word types of the PBU-412 (R8, R9): bytes, 32-bit words and 64-bit words. -/
namespace Sys2Proof

/-- One octet. -/
abbrev Byte := BitVec 8
/-- A 32-bit word: a register, a lane, an accumulator element. -/
abbrev Word := BitVec 32
/-- A 64-bit word: a scalar register of a reed, an SRAM word (R189). -/
abbrev DWord := BitVec 64

end Sys2Proof
end

