-- ==== Sys2Proof/Syntax.lean ====
section
/-! DEFINITION. The commands the block takes: every row of the opcode table, with the operands the spec gives it. What
an event measures outside the block (a time, a temperature, a bus reply) is an operand of that event. -/
namespace Sys2Proof.Machine

/-- Who issues a register access (R875, R880): a host function 512 * port + n, a Fife core, JTAG, or other device logic. -/
inductive Requester where
  | host (fn : Nat)
  | fife (bellows core : Nat)
  | jtag
  | other
  deriving DecidableEq, Repr

/-- A physical reed: chanter, consort, physical index (R19, R105). -/
structure ReedRef where
  die : Nat
  k : Nat
  r : Nat
  deriving DecidableEq, Repr

/-- A reed instruction at a reed, with the fields of R120. -/
structure RI where
  reed : ReedRef
  d : Nat := 0
  a : Nat := 0
  b : Nat := 0
  c : Nat := 0
  m : Nat := 0
  fmt : Nat := 0
  fn : Nat := 0
  imm : BitVec 24 := 0
  deriving DecidableEq, Repr


/-- A banked memory: the SRAM of a physical reed, or of a bellows (R189). -/
inductive MemRef where
  | reed (x : ReedRef)
  | bellows (die : Nat)
  deriving DecidableEq, Repr

/-- A host command (R654, R669): the function, the H2F slot its notice holds (none when it came by another way), the
notice's fields, the payload as DMA delivered it, and whether its read or the reply block's write failed. -/
structure HCmd where
  fn : Nat
  slot : Option Nat := none
  addr : Nat := 0
  len : Nat := 0
  tag : Nat := 1
  flagsHi : Nat := 0
  payload : List Byte := []
  fault : Bool := false
  deriving DecidableEq, Repr

/-- The configuration space bits a host write can change that act on the device (R645, R647, R667, R668). -/
structure FnConfig where
  busMaster : Bool := false
  vfEnable : Bool := false
  numVfs : Nat := 0
  msixEn : Bool := false
  msixMask : Bool := false
  pasidEn : Bool := false
  atsEn : Bool := false
  deriving DecidableEq, Repr

/-- Where the runtime places an object, and the id it gives it: the spec leaves both to the runtime. -/
structure Place where
  id : Nat
  addr : Option Nat := none
  deriving DecidableEq, Repr

/-- The demand of a step as the compiler and the planner count it (R54, R585): array cycles, DRAM bytes, bytes on each link by its
row of R22, ns of unit work, and windway bytes sent from its die. -/
structure Demand where
  cycles : Nat := 0
  dram : Nat := 0
  links : List (Nat × Nat) := []
  unitNs : Nat := 0
  sent : Nat := 0
  deriving DecidableEq, Repr

/-- What firmware knows of descriptor `idx` of a plan and no descriptor field carries: the objects it names (R240), the requests
it serves, with whether it is a decode pass of the request (R493, R512), its demand (R54), its request groups, each request with its
number format settings (R65), its phrase's first layer and number of layers, the requests whose KV it appends to, with the tokens
(R261, R264), the table versions it looks up or, with true, updates (R318), and of a chain step the demands of the links after the
first (R629). -/
structure StepUse where
  idx : Nat
  objs : List Nat := []
  reqs : List (Nat × Bool) := []
  demand : Demand := {}
  groups : List (List (Nat × Nat)) := []
  layers : Nat × Nat := (0, 0)
  grows : List (Nat × Nat) := []
  tables : List (Nat × Bool) := []
  more : List Demand := []
  deriving DecidableEq, Repr

/-- A step of a candidate plan: where it runs, what its descriptor predicts, the ns of reading its context images (R608), and what
it names. -/
structure CandStep where
  die : Nat
  mask : Nat
  part : Nat := 0
  model : Nat := 0xFFFF
  predNs : Nat := 0
  predDram : Nat := 0
  imageNs : Nat := 0
  use : StepUse
  deriving DecidableEq, Repr

/-- The reductions of R55, in their order. -/
inductive PlanCut where
  | phrase | tokens | groups
  deriving DecidableEq, Repr

/-- A request group that its partition's reservations or regulators keep out of a plan (R66, R585, R587). -/
structure KeptGroup where
  die : Nat
  part : Nat
  reqs : List Nat
  demand : Demand := {}
  consorts : Nat := 1
  deriving DecidableEq, Repr

/-- A ready request of which no step can be planned: the step would append `tokens` to its KV in layers, run its model, and name
objects (R240, R250, R261, R264). -/
structure BarredReq where
  req : Nat
  tokens : Nat := 0
  layers : Nat × Nat := (0, 0)
  objs : List Nat := []
  deriving DecidableEq, Repr

/-- A plan as the planner has made it (R54, R55, R65 to R67): what its descriptors name; the candidates before it that did not fit,
each with the reduction made of it; the ready requests in the order in which they became ready; and those left out; and where the runtime has
staged objects that it needs (R242, R243). -/
structure PlanCase where
  staged : List Place := []
  uses : List StepUse := []
  tried : List (List CandStep × PlanCut) := []
  ready : List Nat := []
  kept : List KeptGroup := []
  barred : List BarredReq := []
  deriving DecidableEq, Repr

/-- What firmware has of a work description (R620, R621): its bytes as DMA delivered them (none where the read failed),
whether everything its set stages name is registered, the block at gen_addr, and where it places the Bell context. -/
structure WorkInfo where
  bytes : Option (List Byte) := none
  known : Bool := true
  bell : List Byte := []
  bellOff : Nat := 0
  deriving DecidableEq, Repr

/-- Shape of a request's KV (R265, R258). -/
structure KvShape where
  fmt : Nat := 0
  grain : Nat := 16
  layers : Nat := 1
  heads : Nat := 1
  width : Nat := 32
  qPerKv : Nat := 1
  deriving DecidableEq, Repr

/-- What the runtime holds of a session's turn when it makes an image of it (R537, R538): the id it gives the image object,
the object's address in DRAM where it has one, the chanter, the token history, the KV's shape and model, the prefix and its
pages, the device addresses of all pages, layer by layer, and the Keywork context. -/
structure ImageSrc where
  obj : Nat
  addr : Option Nat := none
  chanter : Nat := 0
  hist : List Nat := []
  shape : KvShape := {}
  model : Nat := 0
  pfx : Option Nat := none
  shared : Nat := 0
  pages : List Nat := []
  keywork : Option (List Byte) := none
  deriving DecidableEq, Repr

/-- What an edge measures or firmware has decided by it: average draw in W (R807), the dies whose junction is below 95 °C
(R810), local-edge offsets in ns (R41), the tail chanters of requests without a KV map (R503), images of the `WARM` parks that commit (R536), and request entries and session queue records found to
hold an uncorrectable word (R719). -/
structure EdgeInfo where
  avgW : Nat := 0
  cool : List Nat := []
  skews : List (Nat × Nat) := []
  tails : List (Nat × Nat) := []
  warm : List (Nat × ImageSrc) := []
  badReqs : List Nat := []
  badQueues : List Nat := []
  deriving DecidableEq, Repr

/-- What a tester does with the IEEE 1687 network (R856): loads the instruction, writes the segment-insertion bits, one per die, or
uses an instrument behind one: the BIST controller, the path-delay monitors, the loop observation, the SRAM repair instrument and the
SRAM it reaches, and the fuse instrument of bellows-A. -/
inductive IjtagOp where
  | select
  | sibs (mask : Nat)
  | bistGo (die : Nat) (value : Word)
  | bistReg (die off : Nat)
  | delay (die n : Nat)
  | loop (die : Nat)
  | repair (m : MemRef) (row : Nat)
  | sramRead (addr n : Nat)
  | sramWrite (addr : Nat) (bytes : List Byte)
  | ownerWrite (n hash : Nat)
  | ownerRead (n : Nat)
  | serial
  deriving DecidableEq, Repr

/-- One stretch that a revive lays out: its chanter and tokens, its stretch table, and the page list of each layer (R260, R262,
R265). -/
structure ReviveStretch where
  chanter : Nat
  count : Nat
  table : Nat
  lists : List Nat := []
  deriving DecidableEq, Repr

/-- What the runtime brings to a revive (R551 to R554): whether a flash read of the image was uncorrectable, whether its fields agree
with the model's registration, whether the chanter of a `WARM` image lacks pages; the layout, with the addresses of the KV map, of the
pages that no prefix supplies (layer by layer), of the working storage for the history, and of the Keywork context and its history;
and the shape of the turn's model. -/
structure ReviveInfo where
  unreadable : Bool := false
  known : Bool := true
  noPages : Bool := false
  kvRoot : Nat := 0
  stretches : List ReviveStretch := []
  pages : List Nat := []
  hist : Nat := 0
  keywork : Nat := 0
  kwHist : Nat := 0
  shape : KvShape := {}
  deriving DecidableEq, Repr

/-- What an ONFI parameter page says of a target (R680, R681). -/
structure TargetInfo where
  channel : Nat
  target : Nat
  valid : Bool := true
  bitsPerCell : Nat := 3
  luns : Nat := 1
  planes : Nat := 1
  slots : Nat := 4
  spare : Nat := 272
  retry : Nat := 0
  blocks : Nat := 1
  pages : Nat := 1
  tprog : Nat := 2000
  /-- Blocks with the factory mark. -/
  marked : List Nat := []
  deriving DecidableEq, Repr

/-- A boot image as the boot flash gives it (R768): its header and whether each outside check holds: hash of q, body hash,
signature, read without error. -/
structure BootImage where
  header : List Byte := []
  qHash : Nat := 0
  bodyOk : Bool := true
  sigOk : Bool := true
  readOk : Bool := true
  /-- The body as read. -/
  body : List Byte := []
  deriving DecidableEq, Repr

/-- What a self-test run found (R846 to R848). -/
structure BistInfo where
  signature : DWord := 0
  expected : DWord := 0
  found : Nat := 0
  repaired : Nat := 0
  left : Nat := 0
  tested : Nat := 0
  aborted : Bool := false
  deriving DecidableEq, Repr

/-- What firmware knows of a comparison of two runs and the device does not show: whether stored outputs that the request names
differ (R484), and the perturbations that could be applied (R485). -/
structure ReproInfo where
  outputs : Bool := false
  perturbDone : Nat := 0
  deriving DecidableEq, Repr


end Sys2Proof.Machine

namespace Sys2Proof
open Sys2Proof.Machine

/-- The commands: one constructor for each row of the opcode table. -/
inductive Instr where
  /-- The breath period counted on the 25 MHz oscillator expires and every die performs the ordered edge actions. (R43) -/
  | breathEdge (info : EdgeInfo)
  /-- After resume_hold clear edges firmware clears by_shedding in reverse order. (R507) -/
  | shedResume (die : Nat) (part : Nat)
  /-- After 8 consecutive edges below cap less hysteresis the clock ceiling rises by one code. (R808) -/
  | capRaise
  /-- At every 4,096th breath every Serpent use count is shifted right by one bit. (R321) -/
  | useCountDecay
  /-- A die receiving no breath marker in time makes its own edge and counts the miss, reporting a windway fault after two. (R42) -/
  | markerMiss (die : Nat)
  /-- A write sets the pending breath period or is refused with period_reject. (R36) -/
  | brthPeriodNext (who : Requester) (die : Nat) (value : Word)
  /-- A write sets the breath guard or is ignored when out of range. (R53) -/
  | brthGuard (who : Requester) (die : Nat) (value : Word)
  /-- Setting run starts the breath generator, the next edge following one period later. (R38) -/
  | runSet (who : Requester) (die : Nat) (value : Word)
  /-- Clearing run stops edges while steps in flight complete. (R39) -/
  | runClear (who : Requester) (die : Nat) (value : Word)
  /-- A read returns the low breath number and latches the high half. (R40) -/
  | brthNumberLo (die : Nat)
  /-- A read returns the largest edge offset and clears it. (R41) -/
  | brthSkewMax (die : Nat)
  /-- A write of BRTH_PLAN_COMMIT accepts a plan on time or late, marks it stale, or rejects it. (R48) -/
  | planCommit (who : Requester) (die : Nat) (value : Word) (plan : PlanCase)
  /-- A step completes on all its units and its outputs become visible at the next edge. (R58) -/
  | stepRetire (die : Nat) (slot : Nat) (meas : List (Nat × Nat × Nat))
  /-- A junction reaching 100 °C drops a chanter's consorts to code 0 or sets the ceiling to 0. (R810) -/
  | thermalThrottle (die : Nat) (tj : Nat)
  /-- A junction reaching 105 °C makes the device fatal. (R721) -/
  | thermalTrip (die : Nat)
  /-- A tongue engine decodes descriptors within its horizon and issues a read or write when a slot or permit frees. (R94) -/
  | tongueIssue (x : ReedRef) (isA : Bool)
  /-- A read tile lands in its slot, possibly poisoned, releasing waiting consumers. (R95) -/
  | tileLanded (x : ReedRef) (isA : Bool) (num : Nat) (uncorrectable : Bool)
  /-- A write tile of tongue engine A reaches memory, completing any FENCE waiting on it. (R98) -/
  | tongueWriteDone (x : ReedRef)
  /-- A flush write discards landed and read-ahead tiles and clears error after issued writes complete. (R107) -/
  | tongueFlush (who : Requester) (x : ReedRef) (isA : Bool) (value : Word)
  /-- A queue_slots or lookahead write takes effect when the engine next has no outstanding reads. (R107) -/
  | tongueCfgApply (x : ReedRef) (isA : Bool)
  /-- Does nothing. (R123) -/
  | nop (x : RI)
  /-- Adds two scalar registers modulo 2^64. (R123) -/
  | add (x : RI)
  /-- Subtracts two scalar registers. (R123) -/
  | sub (x : RI)
  /-- Bitwise AND of two scalar registers. (R123) -/
  | andR (x : RI)
  /-- Bitwise OR of two scalar registers. (R123) -/
  | orR (x : RI)
  /-- Bitwise XOR of two scalar registers. (R123) -/
  | xorR (x : RI)
  /-- Left shift by a register amount. (R123) -/
  | shl (x : RI)
  /-- Logical right shift by a register amount. (R123) -/
  | shr (x : RI)
  /-- Arithmetic right shift by a register amount. (R123) -/
  | sra (x : RI)
  /-- Low 64 bits of the product. (R123) -/
  | mul (x : RI)
  /-- Sets 1 when signed less than. (R123) -/
  | slt (x : RI)
  /-- Sets 1 when unsigned less than. (R123) -/
  | sltu (x : RI)
  /-- Signed minimum. (R123) -/
  | min (x : RI)
  /-- Signed maximum. (R123) -/
  | max (x : RI)
  /-- Adds a sign-extended immediate. (R123) -/
  | addi (x : RI)
  /-- ANDs a zero-extended immediate. (R123) -/
  | andi (x : RI)
  /-- ORs a zero-extended immediate. (R123) -/
  | ori (x : RI)
  /-- XORs a zero-extended immediate. (R123) -/
  | xori (x : RI)
  /-- Left shift by an immediate. (R123) -/
  | shli (x : RI)
  /-- Logical right shift by an immediate. (R123) -/
  | shri (x : RI)
  /-- Arithmetic right shift by an immediate. (R123) -/
  | srai (x : RI)
  /-- Loads a sign-extended immediate shifted left by 24. (R123) -/
  | lui (x : RI)
  /-- Reads a control register into a scalar register. (R118) -/
  | crr (x : RI)
  /-- Writes a read-write control register. (R118) -/
  | crw (x : RI)
  /-- Branches when equal. (R114) -/
  | beq (x : RI)
  /-- Branches when not equal. (R114) -/
  | bne (x : RI)
  /-- Branches when signed less. (R114) -/
  | blt (x : RI)
  /-- Branches when signed greater or equal. (R114) -/
  | bge (x : RI)
  /-- Branches when unsigned less. (R114) -/
  | bltu (x : RI)
  /-- Branches when unsigned greater or equal. (R114) -/
  | bgeu (x : RI)
  /-- Jumps and links. (R114) -/
  | jal (x : RI)
  /-- Jumps to a register address. (R114) -/
  | jr (x : RI)
  /-- Ends the reed's part of the step. (R115) -/
  | endProg (x : RI)
  /-- Raises a software exception reporting imm[7:0]. (R149) -/
  | trap (x : RI)
  /-- Raises a breakpoint exception. (R149) -/
  | brk (x : RI)
  /-- Loads a 64-bit word from reed SRAM. (R123) -/
  | ld (x : RI)
  /-- Stores a 64-bit word to reed SRAM. (R123) -/
  | st (x : RI)
  /-- Loads a sign-extended 32-bit word. (R123) -/
  | lw (x : RI)
  /-- Stores a 32-bit word as a read-correct-merge write. (R196) -/
  | sw (x : RI)
  /-- Loads and widens 32 packed elements into lanes. (R132) -/
  | vld (x : RI)
  /-- Narrows lanes and stores them in ascending element order. (R132) -/
  | vst (x : RI)
  /-- Strided vector load. (R132) -/
  | vlds (x : RI)
  /-- Strided vector store. (R132) -/
  | vsts (x : RI)
  /-- Lane-wise vector arithmetic or logic selected by fn. (R124) -/
  | vop (x : RI)
  /-- Fused multiply-add rounded once. (R176) -/
  | vfma (x : RI)
  /-- Lane-wise comparison into a mask register. (R180) -/
  | vcmp (x : RI)
  /-- Selects lanes by mask. (R124) -/
  | vsel (x : RI)
  /-- Correctly rounded FP32 function per lane. (R126) -/
  | vfn (x : RI)
  /-- Converts or rounds lanes between formats. (R185) -/
  | vcvt (x : RI)
  /-- Broadcasts a scalar to every lane. (R124) -/
  | vbcast (x : RI)
  /-- Extracts one lane into a scalar register. (R124) -/
  | vget (x : RI)
  /-- Fills lanes with an index sequence. (R124) -/
  | vidx (x : RI)
  /-- Fills lanes with generator outputs at consecutive element indices. (R134) -/
  | vrand (x : RI)
  /-- Permutes lanes. (R124) -/
  | vperm (x : RI)
  /-- Reduces the 32 lanes by the fixed tree. (R135) -/
  | vredl (x : RI)
  /-- Reduces packed elements from memory with progress points. (R136) -/
  | vred (x : RI)
  /-- Reads accumulator entries into lanes. (R137) -/
  | var (x : RI)
  /-- Writes lanes into accumulator entries. (R137) -/
  | vaw (x : RI)
  /-- Copies a vector register. (R124) -/
  | vmov (x : RI)
  /-- Mask register logic. (R124) -/
  | mop (x : RI)
  /-- Sets a mask register from a scalar. (R124) -/
  | mset (x : RI)
  /-- Reads a mask register into a scalar. (R124) -/
  | mget (x : RI)
  /-- Checks and sets the tensor configuration. (R127) -/
  | tcfg (x : RI)
  /-- Loads the stationary registers of every array in the arrangement. (R128) -/
  | tload (x : RI)
  /-- Streams beats through the arrays, accumulating and committing rows in blocks of 8. (R129) -/
  | tsweep (x : RI)
  /-- Zeroes accumulator rows of all arrays. (R131) -/
  | tclr (x : RI)
  /-- Enables a tongue engine and starts it on a descriptor list. (R139) -/
  | tgo (x : RI)
  /-- Waits until a named tile has landed and returns its slot offset. (R139) -/
  | twait (x : RI)
  /-- Releases the oldest unreleased tiles. (R139) -/
  | trel (x : RI)
  /-- Permits tongue engine A to issue further write tiles. (R139) -/
  | tput (x : RI)
  /-- Reads an engine's status. (R139) -/
  | tstat (x : RI)
  /-- Waits until permitted write tiles have reached memory. (R139) -/
  | fence (x : RI)
  /-- Fences and waits for every reed of the scope to reach its matching barrier. (R143) -/
  | bar (x : RI)
  /-- The last reed of a scope arrives and the barrier completes for all its reeds in one cycle. (R143) -/
  | barrierRelease (x : ReedRef)
  /-- Writing 1 to exc_valid releases a stopped reed for the next dispatch. (R150) -/
  | excValidClear (who : Requester) (x : ReedRef) (value : Word)
  /-- A waiting port-1 access is granted a free sub-bank cycle in rotation. (R194) -/
  | bankPort1Grant (m : MemRef) (n : Nat) (waiting : List Nat) (cycles : Nat)
  /-- A corrected word is written back in the sub-bank's next idle cycle. (R213) -/
  | eccWriteback (m : MemRef) (off : Nat)
  /-- Every pass_breaths breaths a scrub pass starts or is counted late. (R214) -/
  | scrubPassStart (m : MemRef)
  /-- The scrubber reads and corrects one row in an idle sub-bank cycle. (R214) -/
  | scrubRowRead (m : MemRef) (upsets : List (Nat × Nat))
  /-- Writing 1 to valid clears the whole recorded error register. (R220) -/
  | eccAddrClear (who : Requester) (m : MemRef) (value : Word)
  /-- A write of go starts a bank handover to owner_next or is refused. (R201) -/
  | bankHandoverGo (who : Requester) (m : MemRef) (n : Nat) (value : Word)
  /-- Accepted accesses of a draining bank complete and it clears or passes to the new owner. (R202) -/
  | bankDrainDone (m : MemRef) (n : Nat)
  /-- A clearing bank finishes zeroing and becomes OWNED by the new owner. (R202) -/
  | bankClearDone (m : MemRef) (n : Nat)
  /-- A write of the secure bank map adds or removes secure banks, draining and wiping them. (R205) -/
  | sbankMaskWrite (who : Requester) (die : Nat) (hi : Bool) (value : Word)
  /-- A wipe of the secure banks completes and wipe_busy clears. (R208) -/
  | secureWipeDone (die : Nat)
  /-- Allocates an object with a flag word, evicting within the partition if needed. (R235) -/
  | objAlloc (c : HCmd) (place : Place)
  /-- Frees an object. (R669) -/
  | objFree (c : HCmd)
  /-- Returns an object's id, address, size and flags. (R669) -/
  | objQuery (c : HCmd)
  /-- Starts swapping a model variant from flash into every chanter by broadcast. (R248) -/
  | modelSwap (c : HCmd) (registered : Bool) (place : Place) (phraseNs : Nat := 0)
  /-- A broadcast tile of a swap is written and forwarded round the ring. (R248) -/
  | swapTileWritten (model : Nat) (tile : Nat) (uncorrectable : Bool) (waited : Nat)
  /-- A swap exceeding its time limit is abandoned. (R252) -/
  | swapTimeout (model : Nat)
  /-- Moves a READY model to UNLOADING. (R249) -/
  | modelUnload (c : HCmd) (registered : Bool)
  /-- An UNLOADING model becomes ABSENT when no entry or step names it. (R249) -/
  | modelUnloadDone (model : Nat)
  /-- A reed's store to its post word exposes new Horn descriptors, halting the ring on overrun. (R271) -/
  | hornPost (die : Nat) (k : Nat) (pos : Nat)
  /-- The Horn serves an op-0 descriptor, appending and folding pages. (R280) -/
  | hornAttendPaged (die : Nat) (k : Nat)
  /-- The Horn serves an op-1 dense attention descriptor, or `n` blocks of it. (R280) -/
  | hornAttendDense (die : Nat) (k : Nat) (n : Option Nat := none)
  /-- The Horn merges partial records of parts in ascending order: all of them, or `n`. (R283) -/
  | hornMerge (die : Nat) (k : Nat) (n : Option Nat := none)
  /-- The Horn quantises and writes appended tokens only. (R287) -/
  | hornAppendOnly (die : Nat) (k : Nat)
  /-- The Horn recomputes attention gradients. (R290) -/
  | hornBackward (die : Nat) (k : Nat)
  /-- On pre-emption the Horn finishes its page or part, writes row states and stops. (R293) -/
  | hornPreemptStop (die : Nat) (k : Nat) (pos : Nat)
  /-- A write clears the halt and zeroes the post, done and fail words of named positions. (R296) -/
  | hornRingReset (who : Requester) (die : Nat) (k : Nat) (value : Word)
  /-- The Serpent copies one row quarter per bag. (R315) -/
  | serpGather (die : Nat)
  /-- The Serpent pools a bag by sum. (R313) -/
  | serpPoolSum (die : Nat)
  /-- The Serpent pools a bag by mean. (R313) -/
  | serpPoolMean (die : Nat)
  /-- The Serpent pools a bag by maximum. (R313) -/
  | serpPoolMax (die : Nat)
  /-- The Serpent overwrites rows of an open version. (R316) -/
  | serpUpdateOverwrite (die : Nat)
  /-- The Serpent adds FP32 deltas to rows of an open version. (R316) -/
  | serpUpdateScatterAdd (die : Nat)
  /-- A TIERED row quarter read from flash arrives and is used and considered for promotion. (R308) -/
  | serpFlashRowRead (die : Nat) (uncorrectable : Bool)
  /-- A migrating row's copy completes, buffered updates apply and the destination takes over. (R324) -/
  | migrationCommit (die : Nat) (n : Nat)
  /-- An update held for a full migration buffer proceeds when an entry frees. (R325) -/
  | migrationUpdateRelease (die : Nat)
  /-- A write publishes a table version for a target breath or is refused. (R328) -/
  | serpVerPublish (who : Requester) (die : Nat) (value : Word)
  /-- A read returns and removes the oldest retire report. (R337) -/
  | serpRetirePop (die : Nat)
  /-- A region write takes effect at the next edge and invalidates the region. (R339) -/
  | serpCreg (who : Requester) (die : Nat) (idx : Nat) (value : Word)
  /-- The Panpipe walks the graph, scans probes and side entries and writes a partial list. (R355) -/
  | panpSearch (die : Nat)
  /-- The Panpipe scans every live list in a slot range. (R371) -/
  | panpExactSearch (die : Nat)
  /-- Insert records receive sequence numbers and are stored in side rings and mirrors. (R360) -/
  | panpInsert (die : Nat)
  /-- Delete records receive sequence numbers and are stored in side rings and mirrors. (R360) -/
  | panpDelete (die : Nat)
  /-- Counts recall hits of an approximate list against an exact list. (R372) -/
  | panpCompare (die : Nat)
  /-- Rebuilds named lists from the bound version and side entries. (R364) -/
  | panpMerge (die : Nat)
  /-- An entry-record tile read from flash arrives for the selected candidates. (R348) -/
  | panpRecordTileRead (die : Nat) (uncorrectable : Bool)
  /-- A write publishes an index version for a target breath or is refused. (R365) -/
  | panpVerPublish (who : Requester) (die : Nat) (value : Word)
  /-- A read returns and removes the oldest index retire report. (R375) -/
  | panpRetirePop (die : Nat)
  /-- The Piccolo selects the top k candidates. (R387) -/
  | piccTopk (die : Nat)
  /-- The Piccolo compacts candidates above a threshold in input order. (R387) -/
  | piccThreshold (die : Nat)
  /-- The Piccolo merges partial lists with de-duplication. (R389) -/
  | piccMerge (die : Nat)
  /-- The Piccolo stably sorts up to 4,096 elements. (R388) -/
  | piccSort (die : Nat)
  /-- The Mouthpiece tokenises one buffer of records into the stream's token buffer. (R425) -/
  | mouthTokenise (die : Nat) (host : Option (List Byte))
  /-- The Bell decodes a request's tokens, checks stops and writes chunks. (R436) -/
  | bellDetokenise (die : Nat) (tail : Word) (refused : Bool)
  /-- Sets a Keywork context to the start state. (R444) -/
  | keywInit (die : Nat)
  /-- Advances the automaton by the sampled token and writes the next mask. (R441) -/
  | keywAdvanceMask (die : Nat)
  /-- Writes the mask of allowed tokens. (R442) -/
  | keywMask (die : Nat)
  /-- A write publishes a vocabulary version for a target breath. (R405) -/
  | mouthVerPublish (who : Requester) (die : Nat) (value : Word)
  /-- A write publishes a grammar version for a target breath. (R405) -/
  | keywVerPublish (who : Requester) (die : Nat) (value : Word)
  /-- A read returns and removes the oldest vocabulary retire report. (R449) -/
  | mouthRetirePop (die : Nat)
  /-- A read returns and removes the oldest grammar retire report. (R451) -/
  | keywRetirePop (die : Nat)
  /-- A write starts a generator check computation. (R467) -/
  | sngChkGo (who : Requester) (die : Nat) (idx : Nat) (value : Word)
  /-- A check completes and updates CHK_OUT and CHK_STATE together. (R467) -/
  | sngChkDone (die : Nat) (idx : Nat)
  /-- After clock lock each generator runs its known-answer test and reports failure. (R465) -/
  | sngKat (die : Nat) (idx : Nat) (out1 : Word) (out2 : Word)
  /-- Runs a request twice with perturbed placement and reports the comparison. (R483) -/
  | reproCheck (c : HCmd) (desc : Option (List Byte)) (wd : WorkInfo)
  /-- Run 2 is dispatched after run 1 has ended. (R484) -/
  | reproRun2Start (fn : Nat) (tag : Nat)
  /-- The comparison report is written and the command answered. (R485) -/
  | reproReport (fn : Nat) (tag : Nat) (x : ReproInfo)
  /-- Takes a request entry for a request descriptor or refuses it. (R489) -/
  | reqSubmit (c : HCmd) (wd : WorkInfo)
  /-- Sets cancel_pending so the request ends at the next edge. (R517) -/
  | reqCancel (c : HCmd)
  /-- Sets by_host. (R517) -/
  | reqPause (c : HCmd)
  /-- Clears by_host. (R517) -/
  | reqResume (c : HCmd)
  /-- Replaces priority, policy and targets. (R517) -/
  | reqUpdate (c : HCmd)
  /-- Returns a copy of the request entry. (R517) -/
  | reqQuery (c : HCmd)
  /-- Firmware writes the completion record of a terminal request and sends its notice. (R515) -/
  | completionRecord (idx : Nat)
  /-- A read removes the oldest monitor event and latches the rest. (R524) -/
  | reqtEventLo (die : Nat)
  /-- A write through the entry window applies F fields and ignores H fields. (R492) -/
  | reqtEntryWrite (who : Requester) (die : Nat) (n : Nat) (value : Word)
  /-- A session command or turn from the other bellows arrives over the hub and is accepted in order. (R528) -/
  | turnForward (die : Nat)
  /-- Creates a session with mode and destination. (R535) -/
  | sessCreate (c : HCmd)
  /-- Changes mode and destination from the next park. (R535) -/
  | sessSet (c : HCmd)
  /-- Deletes a session when not busy. (R549) -/
  | sessDelete (c : HCmd)
  /-- Returns the 64-byte directory entry. (R561) -/
  | sessQuery (c : HCmd)
  /-- Starts moving a parked image between destinations or chanters. (R558) -/
  | sessMove (c : HCmd)
  /-- Writes a wrapped full image to host memory or flash. (R559) -/
  | sessExport (c : HCmd)
  /-- Checks a wrapped image and creates a PARKED session. (R560) -/
  | sessImport (c : HCmd) (host : List Byte) (known : Bool) (obj : Nat)
  /-- Creates a shared prefix. (R541) -/
  | sessPrefix (c : HCmd) (ids : Option (List Nat)) (shape : KvShape) (place : Place)
  /-- Deletes a shared prefix not in use. (R542) -/
  | sessPrefixDelete (c : HCmd)
  /-- A waiting park, revive, move or export starts when an inflight slot frees. (R562) -/
  | sessOpStart (die : Nat)
  /-- A session revive finishes, builds the KV map and sets the request PREFILL, or fails. (R551) -/
  | reviveComplete (k : Nat) (info : ReviveInfo)
  /-- A COLD or DURABLE park commits its flash image and updates the directory. (R555) -/
  | parkCommit (k : Nat) (src : ImageSrc) (ok : Bool)
  /-- A moved image is committed and the session becomes PARKED. (R558) -/
  | moveComplete (k : Nat) (obj : Nat) (chanter : Nat) (addr : Option Nat) (ok : Bool)
  /-- An export finishes and the session returns to PARKED or is freed. (R559) -/
  | exportComplete (k : Nat) (ok : Bool)
  /-- A write of rebuild starts rebuilding the directory from flash. (R556) -/
  | sessRebuild (who : Requester) (die : Nat) (value : Word)
  /-- The directory rebuild completes and lost sessions are queued. (R556) -/
  | rebuildDone (die : Nat)
  /-- A read removes the oldest lost session id and latches its high half. (R566) -/
  | sessLostLo (die : Nat)
  /-- A write pre-empts the steps in the named slots and their groups. (R591) -/
  | partPreempt (who : Requester) (die : Nat) (value : Word)
  /-- A reed or unit reaches its pre-emption point and stops to save. (R154) -/
  | preemptTake (die : Nat) (slot : Nat) (r : Nat)
  /-- Every reed and unit of a step has saved and the step retires pre-empted. (R595) -/
  | contextSaveDone (die : Nat) (slot : Nat) (finish : Nat) (dram : Nat) (stall : Nat)
  /-- A transfer waiting on a partition bucket is admitted in rotation. (R582) -/
  | bucketGrant (die : Nat) (bkt : Nat) (waiting : List (Nat × Nat)) (cycles : Nat)
  /-- Link j of a chain step starts when link j-1 has ended on every die of the group. (R625) -/
  | chainLinkStart (die : Nat) (slot : Nat)
  /-- The packer reads store records of candidates and writes them to chanters. (R632) -/
  | packFetch (die : Nat) (store : Option (List Byte)) (bad : List Nat)
  /-- The packer builds the packed prompt within the budget. (R636) -/
  | packPack (die : Nat) (store : Option (List Byte)) (tmpl : Option Nat) (bad : List Nat) (room : Nat)
  /-- The packer builds one re-ranker input per candidate. (R637) -/
  | packPairs (die : Nat) (store : Option (List Byte)) (tmpl : Option Nat) (bad : List Nat)
  /-- A write to doorbell bytes 0x000-0x00B only stages them. (R655) -/
  | h2fStage (fn : Nat) (off : Nat) (data : List Byte)
  /-- A write covering bytes 0x00C-0x00F forms and posts an H2F notice or drops it. (R655) -/
  | doorbell (fn : Nat) (off : Nat) (data : List Byte)
  /-- A read of MBX_TAKE3 takes the next H2F notice in rotation. (R657) -/
  | mbxTake (die : Nat) (bad : Bool := false)
  /-- A write of MBX_SEND3 without reply sends an F2H notice. (R659) -/
  | mbxSendNotice (who : Requester) (die : Nat) (value : Word)
  /-- A write of MBX_SEND3 with reply sends a reply and frees the H2F slot. (R658) -/
  | mbxSendReply (who : Requester) (die : Nat) (value : Word)
  /-- A host read covering bytes 0x100C-0x100F takes the oldest F2H notice. (R660) -/
  | f2hTake (fn : Nat) (bad : Bool := false)
  /-- In queue mode the device moves an F2H notice into the completion queue when room exists. (R661) -/
  | cqWrite (fn : Nat) (bad : Bool := false)
  /-- A host write records entries consumed and re-arms every vector. (R661) -/
  | cqHead (fn : Nat) (value : Word)
  /-- A host read returns notices waiting and re-arms every vector. (R663) -/
  | f2hStatus (fn : Nat)
  /-- A write of ready opens or closes a bellows to posts, ignored before BOOT_DONE. (R677) -/
  | mbxReady (who : Requester) (die : Nat) (value : Word)
  /-- A read removes the oldest abort record. (R676) -/
  | mbxAbortPop (die : Nat)
  /-- A bellows firmware restart clears ready, aborts every H2F notice and frees the slots. (R664) -/
  | firmwareRestart (die : Nat) (core : Option Nat)
  /-- A function-level reset clears the function's channels and cancels its requests. (R667) -/
  | flr (fn : Nat)
  /-- Within 1 ms the function's BAR2 and configuration space reset and it becomes usable. (R667) -/
  | flrComplete (fn : Nat)
  /-- PERST_N, hot reset or link-down resets every function of the port. (R815) -/
  | portReset (port : Nat)
  /-- A host link changes state, speed or width. (R675) -/
  | linkChange (die : Nat) (status : Word)
  /-- A host access through BAR4 reaches device memory or is refused. (R651) -/
  | bar4Access (fn : Nat) (off : Nat) (write : Bool) (data : List Byte)
  /-- Publishes a table, index, vocabulary or grammar version a number of breaths ahead. (R669) -/
  | verPublish (c : HCmd)
  /-- A drone reads units of a committed object to a device address. (R687) -/
  | flashRead (b : Nat) (req : List Byte)
  /-- A drone accepts units into an open object. (R687) -/
  | flashWrite (b : Nat) (req : List Byte)
  /-- A drone records a new object in OPEN. (R687) -/
  | flashCreate (b : Nat) (req : List Byte)
  /-- A drone programs an object's units and commit record. (R687) -/
  | flashCommit (b : Nat) (req : List Byte)
  /-- A drone programs a delete record and invalidates the object's slots. (R687) -/
  | flashDelete (b : Nat) (req : List Byte)
  /-- A NAND program completes or fails, marking the block grown-bad on failure. (R701) -/
  | nandProgramDone (die : Nat) (st : Nat) (ok : Bool)
  /-- A NAND read completes and the codeword is decoded with retry and soft decoding. (R704) -/
  | nandReadDone (die : Nat) (id : Nat) (u : Nat) (steps : Nat) (bits : Nat) (uncorrectable : Bool)
  /-- A NAND erase completes or fails. (R701) -/
  | nandEraseDone (die : Nat) (b : Nat) (ok : Bool)
  /-- A map or bucket page needed by a request is read into the mapping cache. (R693) -/
  | mapPageRead (die : Nat) (obj : Option Nat) (level : Nat) (idx : Nat)
  /-- A LUN's free blocks fall below gc_low and collection starts. (R696) -/
  | gcStart (die : Nat) (lun : Nat)
  /-- Erase counts spread beyond wl_thresh and static wear levelling starts. (R698) -/
  | wearLevelStart (die : Nat)
  /-- A relocated unit switches to its new slot once its journal record is programmed. (R697) -/
  | relocateCommit (die : Nat)
  /-- A target not completing within 10 ms goes offline after reset and retry. (R702) -/
  | targetTimeout (die : Nat) (ch : Nat) (t : Nat)
  /-- Every cal_breaths breaths or on a 10 °C move a target is recalibrated. (R682) -/
  | nandCalibration (die : Nat) (ch : Nat) (t : Nat) (warm : Bool)
  /-- After ckpt_mib MiB of journal the drone writes a checkpoint. (R711) -/
  | checkpoint (die : Nat) (slots : Nat)
  /-- A write of ckpt_now asks the drone for a checkpoint. (R713) -/
  | ckptNow (who : Requester) (die : Nat) (value : Word)
  /-- A write of format erases every good block, writes an anchor and mounts. (R713) -/
  | droneFormat (who : Requester) (die : Nat) (value : Word) (cap : Nat)
  /-- After training a drone replays its journal from the checkpoint and mounts. (R711) -/
  | droneRecovery (die : Nat) (cap : Nat)
  /-- PWR_FAIL_N falls and each drone refuses requests and flushes buffered writes. (R708) -/
  | powerFail
  /-- A drone's power-fail flush ends, raising pf_done and entering HALTED. (R708) -/
  | flushDone (die : Nat)
  /-- PWR_FAIL_N rises with rails in tolerance and a device reset starts once both drones are HALTED. (R801) -/
  | pwrFailRise
  /-- PG_CORE accepted low while ON is treated as a fall of PWR_FAIL_N. (R899) -/
  | pgCoreLoss
  /-- A failing SRAM row is corrected and replaced by a spare row, or the reed is fenced or bank withdrawn. (R726) -/
  | rowRepair (m : MemRef) (row : Nat)
  /-- A failing DRAM row is repaired by soft post-package repair or withheld. (R729) -/
  | dramRowRepair (die : Nat) (stack : Nat) (bankNo : Nat) (granules : List Nat) (spare : Bool) (uncorrectable : Bool) (moves : List (Nat × Nat))
  /-- A reed is stopped, the spare mapped in and the consort returned to ONLINE, or withdrawn. (R730) -/
  | reedFence (x : ReedRef) (kind : Nat) (detail : Nat)
  /-- A write with go fences a named reed as fault kind 0x11. (R735) -/
  | consFence (who : Requester) (die : Nat) (k : Nat) (value : Word)
  /-- A chanter stops, goes offline and its work moves, completing by edge e+3. (R736) -/
  | dieQuiesce (die : Nat) (kind : Nat) (unit : Nat) (detail : Nat)
  /-- While run is clear a recovery point falls each period and recoveries complete at it. (R911) -/
  | recoveryPoint
  /-- A flit with a CRC failure or uncorrectable word is replayed. (R720) -/
  | flitReplay (link : Nat) (far : Bool)
  /-- After 8 failed replays a windway link retrains, going down after 3 retrains. (R720) -/
  | linkRetrain (link : Nat)
  /-- A pre-emption request not taken within 1,200 cycles fences the reed. (R721) -/
  | reedWatchdog (x : ReedRef)
  /-- Every 2^20 breaths an idle spare runs BIST and is marked bad on failure. (R734) -/
  | spareSelfTest (die : Nat) (k : Nat) (passed : Bool)
  /-- Every 2^20 breaths the monitors are read, ageing updated and consort points planned. (R749) -/
  | embMeasure (die : Nat) (delays : List Nat)
  /-- A write of measure_now starts a measurement. (R749) -/
  | measureNow (who : Requester) (die : Nat) (value : Word) (delays : List Nat)
  /-- A monitor crossing its alarm lowers the consort clock by 2 codes and starts a measurement. (R752) -/
  | monitorAlarm (die : Nat) (m : Nat) (delays : List Nat)
  /-- A phase-locked loop loses lock and its consort, chanter or device is handled. (R814) -/
  | pllLockLoss (die : Nat) (loop : Nat)
  /-- Writing 1 to a CNT_OVF bit clears it and sets its counter to 0. (R746) -/
  | cntOvfClear (who : Requester) (a : Nat) (value : Word)
  /-- A read of a counter's low word latches its high word. (R746) -/
  | counterLoRead (who : Requester) (a : Nat)
  /-- A read returns the last word of the oldest fault record and removes it. (R762) -/
  | topFaultPop3
  /-- A write locks every RWL field on every die. (R773) -/
  | secBootDone (who : Requester) (die : Nat) (value : Word)
  /-- A write requests a life-cycle transition, erasing keys and blowing fuses. (R776) -/
  | secLcReq (who : Requester) (die : Nat) (value : Word)
  /-- A write raises min_svn by blowing fuses. (R771) -/
  | secSvnRaise (who : Requester) (die : Nat) (value : Word)
  /-- A write revokes owner hashes. (R771) -/
  | secRevoke (who : Requester) (die : Nat) (value : Word)
  /-- A read draws a fresh debug challenge. (R779) -/
  | secDbgChal0 (die : Nat)
  /-- A write of the last response word starts verification of an unlock record. (R779) -/
  | secDbgResp63 (who : Requester) (die : Nat) (value : Word)
  /-- An unlock record is accepted, opening debug or requesting FIELD_RETURN, or refused. (R780) -/
  | unlockVerifyDone (sigOk : Bool) (qHash : Nat)
  /-- A write loads a key slot from a blob or is refused. (R786) -/
  | secKeyLoad (who : Requester) (die : Nat) (value : Word)
  /-- An enabled tamper source trips, erasing key slots and wiping secure banks. (R783) -/
  | tamperEvent (src : Nat) (held : Bool)
  /-- A Fife core's environment call to the monitor entry enters secure mode. (R774) -/
  | secureMonitorCall (die : Nat) (core : Nat) (entry : Nat)
  /-- A write asks for REST or OFF and the device enters it or refuses. (R804) -/
  | pwrStateReq (who : Requester) (die : Nat) (value : Word)
  /-- Entry to REST or OFF completes and the core rails are released. (R804) -/
  | powerStateEntered (slotsA : Nat) (slotsB : Nat)
  /-- WAKE_N held low starts a wake from REST or OFF. (R805) -/
  | wakeN
  /-- PG_CORE not high within 50 ms of a wake abandons the wake. (R902) -/
  | pgCoreTimeout
  /-- VDD_IO18 rises and RESET_N is released, starting boot. (R815) -/
  | powerOn (straps : Nat)
  /-- RESET_N held low with power good starts a device reset. (R815) -/
  | resetN
  /-- A PWR_RESET write of kind 1 starts a warm reset. (R818) -/
  | pwrResetWarm (who : Requester) (die : Nat) (value : Word)
  /-- A PWR_RESET write of kind 2 starts a device reset. (R815) -/
  | pwrResetDevice (who : Requester) (die : Nat) (value : Word)
  /-- Stage 1 verifies stage 2 and loads it onto the bellows and drones. (R825) -/
  | stage2Load (a1 : BootImage) (a2 : BootImage) (b1 : BootImage) (b2 : BootImage)
  /-- A chanter's stacks complete training and trained rises. (R822) -/
  | stackTrainingDone (chanter : Nat) (failed : List Nat)
  /-- A chanter's DRAM is zeroed and online rises. (R817) -/
  | dramClearDone (chanter : Nat)
  /-- The refresh interval of a stack expires and a refresh is issued. (R823) -/
  | dramRefresh (chanter : Nat) (stack : Nat)
  /-- The regulator acknowledges a higher voltage and a raised clock takes effect at the next edge. (R799) -/
  | avsAck (chanter : Nat)
  /-- A voltage request unacknowledged within 1 ms leaves consort clocks unraised. (R901) -/
  | avsTimeout (chanter : Nat)
  /-- The device takes part in dynamic address assignment. (R837) -/
  | entdaa (addr : Nat)
  /-- The device drops its dynamic address. (R837) -/
  | rstdaa
  /-- The controller sets a new dynamic address. (R835) -/
  | setnewda (addr : Nat)
  /-- Returns the provisional ID. (R835) -/
  | getpid
  /-- Returns the BCR. (R835) -/
  | getbcr
  /-- Returns the DCR. (R835) -/
  | getdcr
  /-- Returns the I3C status. (R835) -/
  | getstatus
  /-- Returns the maximum write length. (R835) -/
  | getmwl
  /-- Returns the maximum read length. (R835) -/
  | getmrl
  /-- Sets the maximum write length, at least 64. (R835) -/
  | setmwl (n : Nat)
  /-- Sets the maximum read length, at least 64. (R835) -/
  | setmrl (n : Nat)
  /-- Returns the maximum data speeds. (R835) -/
  | getmxds
  /-- Enables target events such as IBI. (R844) -/
  | enec (int : Bool) (hj : Bool)
  /-- Disables target events such as IBI and Hot-Join. (R837) -/
  | disec (int : Bool) (hj : Bool)
  /-- An unaddressed device requests Hot-Join at Bus Available, retrying with backoff. (R837) -/
  | hotJoin (acked : Bool)
  /-- Returns identity, life-cycle, boot, fault and power state. (R841) -/
  | ident (tag : Nat) (n : Nat) (payload : List Byte)
  /-- Returns the 48-byte telemetry record. (R843) -/
  | telem (tag : Nat) (n : Nat) (payload : List Byte)
  /-- A management command starts a wake. (R805) -/
  | wake (tag : Nat) (n : Nat) (payload : List Byte)
  /-- A management command starts a warm or device reset. (R841) -/
  | reset (tag : Nat) (n : Nat) (payload : List Byte)
  /-- A management command starts a BIST run or is refused. (R850) -/
  | bistStart (tag : Nat) (n : Nat) (payload : List Byte)
  /-- Returns the signature, expectation, memory summary and result of a die's last run. (R841) -/
  | bistResult (tag : Nat) (n : Nat) (payload : List Byte)
  /-- The device leaves the chain once its reply has been read. (R837) -/
  | leave (tag : Nat) (n : Nat) (payload : List Byte)
  /-- A private read returns the reply frame when ready. (R840) -/
  | mgmtReplyRead
  /-- The device raises an in-band interrupt with an event code, retrying at Bus Available. (R844) -/
  | ibi (acked : Bool)
  /-- A write of go in BIST_CTRL starts a BIST run under R850. (R859) -/
  | bistGo (who : Requester) (die : Nat) (value : Word)
  /-- A BIST run ends with pass, fail, unjudged or aborted. (R848) -/
  | bistDone (die : Nat) (x : BistInfo)
  /-- Drives boundary lands while RESET_N is low, else acts as BYPASS. (R855) -/
  | extest (resetLow : Bool) (rails : Bool)
  /-- Samples or preloads the boundary register. (R854) -/
  | samplePreload
  /-- Selects the 32-bit IDCODE register. (R854) -/
  | idcode
  /-- Clamps boundary outputs while RESET_N is low. (R855) -/
  | clamp (resetLow : Bool) (rails : Bool)
  /-- Puts boundary outputs in high impedance while RESET_N is low. (R855) -/
  | highz (resetLow : Bool) (rails : Bool)
  /-- Selects the IEEE 1687 network within the debug level. (R856) -/
  | ijtagAccess (op : IjtagOp := .select)
  /-- Selects the bypass register. (R854) -/
  | bypass
  /-- TRST_N resets the TAP. (R853) -/
  | trstN
  /-- A write of 1 sets the same bit of the block's INT_STATUS. (R872) -/
  | intForce (who : Requester) (a : Nat) (value : Word)
  /-- Writing 1 to valid clears both words of the register-error record. (R880) -/
  | topRegErrClear (who : Requester) (die : Nat) (value : Word)
  /-- A write to a register without a row of its own applies its fields by access type. (R11) -/
  | registerWrite (who : Requester) (a : Nat) (width : Nat) (value : Nat)
  /-- PG_CORE is accepted high after PWR_EN_CORE was asserted in a wake, and the device boots. (R805) -/
  | pgCoreGood (straps : Nat)
  /-- A host PCIe configuration write, such as VF Enable, NumVFs or Bus Master Enable, changes which functions are enabled and whether queue and ring writes proceed. (R667) -/
  | configurationWrite (fn : Nat) (cfg : FnConfig)
  /-- A reed fetches a word whose opcode is undefined, including 0x00, and takes an illegal-instruction exception. (R122) -/
  | illegalInstruction (x : ReedRef)
  /-- Execution runs past the last instruction and the fetch from offset count times 8 raises an instruction-fetch exception. (R114) -/
  | fetchPastEnd (x : ReedRef)
  /-- A management command frame with a cmd not in R841, or a bad CRC, is answered with status UNKNOWN or CRC. (R842) -/
  | mgmtUnknownCommand (frame : List Byte)
  /-- A parity error in the protection set-up, the windway route state or a crossbar map is detected, making the device fatal (kind 0x0E). (R721) -/
  | protectionParityError (die : Nat)
  /-- A fault in bellows or drone logic not otherwise classified is detected and the device becomes fatal. (R744) -/
  | bellowsLogicFault (die : Nat)
  /-- After its clocks lock a drone leaves OFF, enters TRAINING, reads and checks each target's parameter page and calibrates the targets. (R717) -/
  | droneTraining (die : Nat) (targets : List TargetInfo)
  /-- A target's ZQ, DCC and DQ calibration completes, and the requests waiting for the target proceed. (R682) -/
  | calibrationDone (die : Nat) (ch : Nat) (t : Nat)
  deriving DecidableEq, Repr

end Sys2Proof
end

