-- ==== Sys2Proof/Decode.lean ====
section
/-! DEFINITION. The command that a word spells by the bits of the opcode table, and the 64-bit words of the reed's
instructions (R120). The table gives no row any bits: commands reach the block as register accesses, notices, frames, pin events
and instruction words of a reed, each with its own form. -/
namespace Sys2Proof
open Sys2Proof.Machine

/-- The command that a word of `nbits` bits spells by the table: none, since no row of the table has bits (log entry 2). -/
def decodeTableWord (nbits w : Nat) : Option Instr :=
  match nbits, w with
  | _, _ => none

/-- Bits `lo` to `lo + n - 1` of an instruction word. -/
def wordField (w : DWord) (lo n : Nat) : Nat := w.toNat / 2 ^ lo % 2 ^ n

/-- The fields of an instruction word at a reed (R120). -/
def wordFields (x : ReedRef) (w : DWord) : RI :=
  { reed := x, d := wordField w 51 5, a := wordField w 46 5, b := wordField w 41 5, c := wordField w 36 5
    m := wordField w 33 3, fmt := wordField w 30 3, fn := wordField w 24 6, imm := BitVec.ofNat 24 w.toNat }

/-- The fields fit the places R120 gives them. -/
def Machine.RI.fits (y : RI) : Bool :=
  decide (y.d < 32) && decide (y.a < 32) && decide (y.b < 32) && decide (y.c < 32) && decide (y.m < 8) &&
    decide (y.fmt < 8) && decide (y.fn < 64)

/-- The instruction word with an opcode and fields (R120). -/
def fieldsWord (op : Nat) (y : RI) : DWord :=
  BitVec.ofNat 64 (op * 2 ^ 56 + y.d * 2 ^ 51 + y.a * 2 ^ 46 + y.b * 2 ^ 41 + y.c * 2 ^ 36 + y.m * 2 ^ 33 + y.fmt * 2 ^ 30 +
    y.fn * 2 ^ 24 + y.imm.toNat)

/-- The instruction that an opcode names (R123 to R141): none for an undefined opcode, which is an illegal instruction (R122). -/
def opInstr (op : Nat) (y : RI) : Option Instr :=
  match op with
  | 0x01 => some (.nop y)
  | 0x02 => some (.add y)
  | 0x03 => some (.sub y)
  | 0x04 => some (.andR y)
  | 0x05 => some (.orR y)
  | 0x06 => some (.xorR y)
  | 0x07 => some (.shl y)
  | 0x08 => some (.shr y)
  | 0x09 => some (.sra y)
  | 0x0A => some (.mul y)
  | 0x0B => some (.slt y)
  | 0x0C => some (.sltu y)
  | 0x0D => some (.min y)
  | 0x0E => some (.max y)
  | 0x10 => some (.addi y)
  | 0x11 => some (.andi y)
  | 0x12 => some (.ori y)
  | 0x13 => some (.xori y)
  | 0x14 => some (.shli y)
  | 0x15 => some (.shri y)
  | 0x16 => some (.srai y)
  | 0x17 => some (.lui y)
  | 0x18 => some (.crr y)
  | 0x19 => some (.crw y)
  | 0x20 => some (.beq y)
  | 0x21 => some (.bne y)
  | 0x22 => some (.blt y)
  | 0x23 => some (.bge y)
  | 0x24 => some (.bltu y)
  | 0x25 => some (.bgeu y)
  | 0x26 => some (.jal y)
  | 0x27 => some (.jr y)
  | 0x28 => some (.endProg y)
  | 0x29 => some (.trap y)
  | 0x2A => some (.brk y)
  | 0x30 => some (.ld y)
  | 0x31 => some (.st y)
  | 0x32 => some (.lw y)
  | 0x33 => some (.sw y)
  | 0x34 => some (.vld y)
  | 0x35 => some (.vst y)
  | 0x36 => some (.vlds y)
  | 0x37 => some (.vsts y)
  | 0x40 => some (.vop y)
  | 0x41 => some (.vfma y)
  | 0x42 => some (.vcmp y)
  | 0x43 => some (.vsel y)
  | 0x44 => some (.vfn y)
  | 0x45 => some (.vcvt y)
  | 0x46 => some (.vbcast y)
  | 0x47 => some (.vget y)
  | 0x48 => some (.vidx y)
  | 0x49 => some (.vrand y)
  | 0x4A => some (.vperm y)
  | 0x4B => some (.vredl y)
  | 0x4C => some (.vred y)
  | 0x4D => some (.var y)
  | 0x4E => some (.vaw y)
  | 0x4F => some (.vmov y)
  | 0x50 => some (.mop y)
  | 0x51 => some (.mset y)
  | 0x52 => some (.mget y)
  | 0x60 => some (.tcfg y)
  | 0x61 => some (.tload y)
  | 0x62 => some (.tsweep y)
  | 0x63 => some (.tclr y)
  | 0x70 => some (.tgo y)
  | 0x71 => some (.twait y)
  | 0x72 => some (.trel y)
  | 0x73 => some (.tput y)
  | 0x74 => some (.tstat y)
  | 0x78 => some (.fence y)
  | 0x79 => some (.bar y)
  | _ => none

/-- The instruction that a word spells at a reed; none where the opcode is undefined. -/
def decodeReedWord (x : ReedRef) (w : DWord) : Option Instr := opInstr (wordField w 56 8) (wordFields x w)

/-- The opcode and the fields of a reed instruction; none for a command that is no instruction of a reed. -/
def reedParts (i : Instr) : Option (Nat × RI) :=
  match i with
  | .nop y => some (0x01, y)
  | .add y => some (0x02, y)
  | .sub y => some (0x03, y)
  | .andR y => some (0x04, y)
  | .orR y => some (0x05, y)
  | .xorR y => some (0x06, y)
  | .shl y => some (0x07, y)
  | .shr y => some (0x08, y)
  | .sra y => some (0x09, y)
  | .mul y => some (0x0A, y)
  | .slt y => some (0x0B, y)
  | .sltu y => some (0x0C, y)
  | .min y => some (0x0D, y)
  | .max y => some (0x0E, y)
  | .addi y => some (0x10, y)
  | .andi y => some (0x11, y)
  | .ori y => some (0x12, y)
  | .xori y => some (0x13, y)
  | .shli y => some (0x14, y)
  | .shri y => some (0x15, y)
  | .srai y => some (0x16, y)
  | .lui y => some (0x17, y)
  | .crr y => some (0x18, y)
  | .crw y => some (0x19, y)
  | .beq y => some (0x20, y)
  | .bne y => some (0x21, y)
  | .blt y => some (0x22, y)
  | .bge y => some (0x23, y)
  | .bltu y => some (0x24, y)
  | .bgeu y => some (0x25, y)
  | .jal y => some (0x26, y)
  | .jr y => some (0x27, y)
  | .endProg y => some (0x28, y)
  | .trap y => some (0x29, y)
  | .brk y => some (0x2A, y)
  | .ld y => some (0x30, y)
  | .st y => some (0x31, y)
  | .lw y => some (0x32, y)
  | .sw y => some (0x33, y)
  | .vld y => some (0x34, y)
  | .vst y => some (0x35, y)
  | .vlds y => some (0x36, y)
  | .vsts y => some (0x37, y)
  | .vop y => some (0x40, y)
  | .vfma y => some (0x41, y)
  | .vcmp y => some (0x42, y)
  | .vsel y => some (0x43, y)
  | .vfn y => some (0x44, y)
  | .vcvt y => some (0x45, y)
  | .vbcast y => some (0x46, y)
  | .vget y => some (0x47, y)
  | .vidx y => some (0x48, y)
  | .vrand y => some (0x49, y)
  | .vperm y => some (0x4A, y)
  | .vredl y => some (0x4B, y)
  | .vred y => some (0x4C, y)
  | .var y => some (0x4D, y)
  | .vaw y => some (0x4E, y)
  | .vmov y => some (0x4F, y)
  | .mop y => some (0x50, y)
  | .mset y => some (0x51, y)
  | .mget y => some (0x52, y)
  | .tcfg y => some (0x60, y)
  | .tload y => some (0x61, y)
  | .tsweep y => some (0x62, y)
  | .tclr y => some (0x63, y)
  | .tgo y => some (0x70, y)
  | .twait y => some (0x71, y)
  | .trel y => some (0x72, y)
  | .tput y => some (0x73, y)
  | .tstat y => some (0x74, y)
  | .fence y => some (0x78, y)
  | .bar y => some (0x79, y)
  | _ => none

/-- The word of a reed instruction (R120). -/
def encodeReedWord (i : Instr) : Option DWord := (reedParts i).map (fun p => fieldsWord p.1 p.2)

end Sys2Proof
end

