-- ==== Sys2Proof/Config.lean ====
section
/-! DEFINITION. The free values: constants with no body, standing for what the spec leaves open or for a computation
whose tables or algorithms lie outside the spec. Nothing can be proved of their values, so a statement that mentions
one holds whatever it is. The fixed counts of the PBU-412 (R2, R17, R19, R189) stand here too. -/
namespace Sys2Proof.Config

/-- Consorts per chanter (R2). -/
def consorts : Nat := 8
/-- Physical reeds per consort (R19). -/
def physReeds : Nat := 17
/-- Partitions (R2, R570). -/
def partitions : Nat := 64

/-- A value the spec does not state, by a serial number that the state advances (log entry 3). -/
opaque freeWord : Nat → Nat
/-- The correctly rounded VFN result where the interval evaluation of the model has not separated two neighbours
within its fuel: by function code and operand bits (log entry 8). -/
opaque vfnHard : Nat → Nat → Nat

/-- The Stream-Safe Text Process and NFC (1) or NFKC (2) of Unicode 15.1 over the code points of one block of a text segment: its
tables lie outside the spec (R416; log entry 9). -/
opaque normalise : Nat → List Nat → List Nat
/-- Whether a character belongs to the block before it, whose characters are normalised together: by the tables of Unicode 15.1
(R416; log entry 9). -/
opaque joins : Nat → List Nat → Nat → Bool

/-- Fused time-zero critical-path delay in ps of a consort of a chanter (die, consort), or of a bellows or drone die (die,
0), at a voltage in mV (R751, R753; log entry 10). -/
opaque fusedPath : Nat → Nat → Nat → Nat
/-- Fused time-zero delay in ps of a path-delay monitor of a die at one of its 16 fused voltages (R750; log entry 10). -/
opaque fusedMonitor : Nat → Nat → Nat → Nat
/-- Core clock period in ps of a bellows or drone die (R753; log entry 10). -/
opaque diePeriod : Nat → Nat

/-- AES-256-GCM over the segments of an image (R559, R788): key, serial, additional authenticated data and body give the
ciphertext and the tags in segment order. The cipher lies outside the spec (log entry 11). -/
opaque gcmSeal : Nat → Nat → List Nat → List Nat → List Nat
/-- The inverse of `gcmSeal`: the body, or none where a tag fails (log entry 11). -/
opaque gcmOpen : Nat → Nat → List Nat → List Nat → Option (List Nat)

/-- The device key of slot 0, and word `i` of the device's public key, in a life-cycle state: the derivation is the part's own
(R784; log entry 11). -/
opaque deviceKey : Nat → Nat
opaque devicePub : Nat → Nat → Nat
/-- Whether the ephemeral key of a key blob is a point of P-384, and the key that the blob unwraps to under the device's key
pair of a life-cycle state and its serial, or none where the tag fails (R785; log entry 11). -/
opaque blobPoint : List Nat → Bool
opaque blobKey : Nat → Nat → List Nat → Option Nat
/-- SHA-384 of Tabdon's return key, which the boot ROM holds (R766; log entry 11). -/
opaque returnKeyHash : Nat
/-- Bits [47:33] of the provisional ID, the vendor's MIPI manufacturer ID; the vendor's JEP106 identity; and the silicon revision
(R835, R854, R879; log entry 11). -/
opaque vendorMipi : Nat
opaque vendorJep : Nat
opaque revision : Nat

end Sys2Proof.Config
end

