-- ==== Sys2Proof/Machine/Bits.lean ====
section
/-! DEFINITION. Bit fields, sign extension and byte order (R8, R9), over numbers and words. -/
namespace Sys2Proof.Machine

/-- Bits `hi` to `lo` of a number (R8). -/
def bits (x hi lo : Nat) : Nat := (x >>> lo) % 2 ^ (hi + 1 - lo)

/-- Bit `n` of a number. -/
def bit (x n : Nat) : Bool := x.testBit n

/-- The number with bits `hi` to `lo` replaced by `v`. -/
def withBits (x hi lo v : Nat) : Nat :=
  x - (bits x hi lo) * 2 ^ lo + (v % 2 ^ (hi + 1 - lo)) * 2 ^ lo

/-- 1 for true, 0 for false. -/
def b2n (b : Bool) : Nat := if b then 1 else 0

/-- The signed value of the low `w` bits of `x`. -/
def signed (w x : Nat) : Int :=
  let y := x % 2 ^ w
  if y < 2 ^ (w - 1) then (y : Int) else (y : Int) - (2 ^ w : Nat)

/-- The low `w` bits of an integer, as a number. -/
def wrap (w : Nat) (x : Int) : Nat := (x % ((2 ^ w : Nat) : Int)).toNat

/-- The mask of bits `hi` to `lo` of a word. -/
def maskW (hi lo : Nat) : Word := BitVec.ofNat 32 ((2 ^ (hi + 1 - lo) - 1) * 2 ^ lo)

/-- Bits `hi` to `lo` of a word, as a number. -/
def fieldW (x : Word) (hi lo : Nat) : Nat := bits x.toNat hi lo

/-- The word with bits `hi` to `lo` replaced by `v`. -/
def putW (x : Word) (hi lo v : Nat) : Word :=
  (x &&& ~~~ maskW hi lo) ||| (BitVec.ofNat 32 (v * 2 ^ lo) &&& maskW hi lo)

/-- Round `x` up to a multiple of `n`. -/
def alignUp (x n : Nat) : Nat := (x + n - 1) / n * n

/-- Quotient rounded up. -/
def ceilDiv (x n : Nat) : Nat := (x + n - 1) / n

/-- The `w`-bit number with its bits in the opposite order of bytes: `n` bytes reversed. -/
def byteSwap : Nat → Nat → Nat
  | 0, _ => 0
  | n + 1, x => (x % 256) * 256 ^ n + byteSwap n (x / 256)

/-- Number of one bits among the low `w` bits. -/
def popcount : Nat → Nat → Nat
  | 0, _ => 0
  | w + 1, x => x % 2 + popcount w (x / 2)

/-- Index of the lowest one bit among the low `w` bits. -/
def lowestBit : Nat → Nat → Option Nat
  | 0, _ => none
  | w + 1, x => if x % 2 = 1 then some 0 else (lowestBit w (x / 2)).map (· + 1)

/-- Serial-number comparison of 32-bit indices (R59, R747): how far `a` lies ahead of `b`. -/
def serialDiff (a b : Nat) : Nat := (a + 2 ^ 32 - b % 2 ^ 32) % 2 ^ 32

end Sys2Proof.Machine
end

