-- ==== Sys2Proof/Machine/Float.lean ====
section
/-! DEFINITION. Number formats and exact arithmetic (R159 to R188): decoding of every storage format to an exact
value, exact sums and products, and one rounding to a target format. -/
namespace Sys2Proof.Machine

/-- An exact value: a NaN, an infinity, or (-1)^neg * m * 2^e (R162, R163). -/
inductive FVal where
  | nan
  | inf (neg : Bool)
  | fin (neg : Bool) (m : Nat) (e : Int)
  deriving DecidableEq, Repr

/-- The shape of a floating-point format (R162): exponent bits, fraction bits, bias, the encoding of its largest finite
value, and whether it has infinities. -/
structure FFmt where
  eb : Nat
  fb : Nat
  bias : Nat
  big : Nat
  hasInf : Bool
  nan : Nat
  deriving DecidableEq, Repr

/-- FP8 E4M3 (R162, R163). -/
def fE4M3 : FFmt := { eb := 4, fb := 3, bias := 7, big := 0x7E, hasInf := false, nan := 0x7F }
/-- FP8 E5M2. -/
def fE5M2 : FFmt := { eb := 5, fb := 2, bias := 15, big := 0x7B, hasInf := true, nan := 0x7E }
/-- FP16. -/
def fFP16 : FFmt := { eb := 5, fb := 10, bias := 15, big := 0x7BFF, hasInf := true, nan := 0x7E00 }
/-- BF16. -/
def fBF16 : FFmt := { eb := 8, fb := 7, bias := 127, big := 0x7F7F, hasInf := true, nan := 0x7FC0 }
/-- FP32. -/
def fFP32 : FFmt := { eb := 8, fb := 23, bias := 127, big := 0x7F7F_FFFF, hasInf := true, nan := 0x7FC0_0000 }

/-- Bits of an element of the format. -/
def FFmt.width (f : FFmt) : Nat := 1 + f.eb + f.fb

/-- The exact value of an encoding (R162 to R165). -/
def FFmt.decode (f : FFmt) (x : Nat) : FVal :=
  let neg := bit x (f.eb + f.fb)
  let e := bits x (f.eb + f.fb - 1) f.fb
  let m := x % 2 ^ f.fb
  let top := 2 ^ f.eb - 1
  if e = top ∧ f.hasInf = true then (if m = 0 then .inf neg else .nan)
  else if e = top ∧ m = 2 ^ f.fb - 1 then .nan
  else if e = 0 then .fin neg m (1 - (f.bias : Int) - f.fb)
  else .fin neg (2 ^ f.fb + m) ((e : Int) - f.bias - f.fb)

/-- `m * 2^e` as an integer quotient by `2^u`: the quotient, the remainder and the divisor. -/
def scaleTo (m : Nat) (e u : Int) : Nat × Nat × Nat :=
  if u ≤ e then (m * 2 ^ (e - u).toNat, 0, 1)
  else
    let s := (u - e).toNat
    (m / 2 ^ s, m % 2 ^ s, 2 ^ s)

/-- Round a quotient with remainder: to nearest with ties to even, or, given the generator's output, stochastically
(R183, R186). -/
def roundQuot (rnd : Option Nat) (q rem den : Nat) : Nat :=
  if rem = 0 then q
  else match rnd with
    | none => if 2 * rem > den ∨ (2 * rem = den ∧ q % 2 = 1) then q + 1 else q
    | some r =>
      let d := (2 ^ 32 * rem) / den
      if 0 < d ∧ 2 ^ 32 - d ≤ r then q + 1 else q

/-- The exponent of the unit in the last place of the format at a value whose leading bit has weight 2^lead. -/
def FFmt.ulp (f : FFmt) (lead : Int) : Int := max (lead - f.fb) (1 - (f.bias : Int) - f.fb)

/-- The encoding of `q * 2^u`, where `u` is the unit of the rounded value, or none where it is above the largest
finite value (R167). -/
def FFmt.encodeMag (f : FFmt) (q : Nat) (u : Int) : Option Nat :=
  let (q, u) := if 2 ^ (f.fb + 1) ≤ q then (q / 2, u + 1) else (q, u)
  let x := if q < 2 ^ f.fb then q
    else (u + f.fb + f.bias).toNat * 2 ^ f.fb + (q - 2 ^ f.fb)
  if x ≤ f.big then some x else none

/-- The sign bit of the format. -/
def FFmt.signBit (f : FFmt) (neg : Bool) : Nat := if neg then 2 ^ (f.eb + f.fb) else 0

/-- An overflowing result (R166, R167, R170). -/
def FFmt.overflow (f : FFmt) (ieee neg : Bool) : Nat :=
  f.signBit neg + (if ieee = true ∧ f.hasInf = true then f.big + 1 else f.big)

/-- An infinite result that is no overflow (R168, R170). -/
def FFmt.infinite (f : FFmt) (neg : Bool) : Nat :=
  f.signBit neg + (if f.hasInf = true then f.big + 1 else f.big)

/-- Round an exact value to the format (R164, R167, R183). -/
def FFmt.round (f : FFmt) (ieee : Bool) (rnd : Option Nat) : FVal → Nat
  | .nan => f.nan
  | .inf neg => f.infinite neg
  | .fin neg m e =>
    if m = 0 then f.signBit neg
    else
      let u := f.ulp (e + Nat.log2 m)
      let (q, rem, den) := scaleTo m e u
      match f.encodeMag (roundQuot rnd q rem den) u with
      | some x => f.signBit neg + x
      | none => f.overflow ieee neg

/-- The exact value of an FP32 pattern. -/
def fp32 (x : Word) : FVal := fFP32.decode x.toNat

/-- Round to an FP32 pattern, nearest even (R173, R176). -/
def toFp32 (ieee : Bool) (v : FVal) : Word := BitVec.ofNat 32 (fFP32.round ieee none v)

/-- The canonical FP32 NaN (R163). -/
def nan32 : Word := 0x7FC0_0000

/-- The signed mantissa of a finite value at exponent `e'`, which is at most its own. -/
def signedAt (neg : Bool) (m : Nat) (e e' : Int) : Int :=
  let x : Int := (m * 2 ^ (e - e').toNat : Nat)
  if neg then -x else x

/-- Exact sum; an exact zero is +0 unless both are −0 (R173, R174). -/
def FVal.add : FVal → FVal → FVal
  | .nan, _ => .nan
  | .inf _, .nan => .nan
  | .inf a, .inf b => if a = b then .inf a else .nan
  | .inf a, .fin _ _ _ => .inf a
  | .fin _ _ _, .nan => .nan
  | .fin _ _ _, .inf b => .inf b
  | .fin na ma ea, .fin nb mb eb =>
    let e := min ea eb
    let z := signedAt na ma ea e + signedAt nb mb eb e
    if z = 0 then .fin (na && nb && decide (ma = 0) && decide (mb = 0)) 0 0
    else .fin (decide (z < 0)) z.natAbs e

/-- Negation of a value. -/
def FVal.neg : FVal → FVal
  | .nan => .nan
  | .inf a => .inf (!a)
  | .fin n m e => .fin (!n) m e

/-- Exact product (R169, R172, R174). -/
def FVal.mul : FVal → FVal → FVal
  | .nan, _ => .nan
  | .inf _, .nan => .nan
  | .inf a, .inf b => .inf (a ^^ b)
  | .inf a, .fin n m _ => if m = 0 then .nan else .inf (a ^^ n)
  | .fin _ _ _, .nan => .nan
  | .fin n m _, .inf b => if m = 0 then .nan else .inf (n ^^ b)
  | .fin na ma ea, .fin nb mb eb => .fin (na ^^ nb) (ma * mb) (ea + eb)

/-- Whether a value is a NaN. -/
def FVal.isNan : FVal → Bool
  | .nan => true
  | _ => false

/-- Order by value of two values that are no NaN: less than (R180). -/
def FVal.lt : FVal → FVal → Bool
  | .nan, _ => false
  | _, .nan => false
  | .inf a, .inf b => a && !b
  | .inf a, .fin _ _ _ => a
  | .fin _ _ _, .inf b => !b
  | .fin na ma ea, .fin nb mb eb =>
    let e := min ea eb
    decide (signedAt na ma ea e < signedAt nb mb eb e)

/-- Equality by value: +0 and −0 are equal (R180). -/
def FVal.eqv (a b : FVal) : Bool := !a.isNan && !b.isNan && !a.lt b && !b.lt a

/-- Floating-point maximum or minimum of two patterns of a format (R179). -/
def fMaxMin (f : FFmt) (isMax : Bool) (x y : Nat) : Nat :=
  let a := f.decode x
  let b := f.decode y
  if a.isNan then (if b.isNan then f.nan else y)
  else if b.isNan then x
  else if (if isMax then a.lt b else b.lt a) then y else x

/-- FP32 sum. -/
def fadd32 (ieee : Bool) (x y : Word) : Word := toFp32 ieee ((fp32 x).add (fp32 y))
/-- FP32 difference. -/
def fsub32 (ieee : Bool) (x y : Word) : Word := toFp32 ieee ((fp32 x).add (fp32 y).neg)
/-- FP32 product. -/
def fmul32 (ieee : Bool) (x y : Word) : Word := toFp32 ieee ((fp32 x).mul (fp32 y))
/-- Fused multiply and add, rounded once (R176). -/
def fma32 (ieee : Bool) (x y z : Word) : Word := toFp32 ieee (((fp32 x).mul (fp32 y)).add (fp32 z))

/-- Apply int_ovf to an exact INT32 result (R166, R177). -/
def int32 (wrapMode : Bool) (z : Int) : Word :=
  if wrapMode then BitVec.ofNat 32 (wrap 32 z)
  else if z < -2147483648 then 0x8000_0000
  else if 2147483647 < z then 0x7FFF_FFFF
  else BitVec.ofNat 32 (wrap 32 z)

/-- Round an exact value to an integer and saturate it to `w` bits (R184). -/
def toIntSat (w : Nat) (rnd : Option Nat) : FVal → Int
  | .nan => 0
  | .inf neg => if neg then -(2 ^ (w - 1) : Nat) else ((2 ^ (w - 1) : Nat) : Int) - 1
  | .fin neg m e =>
    let (q, rem, den) := scaleTo m e 0
    let r : Int := roundQuot rnd q rem den
    let z := if neg then -r else r
    max (-((2 ^ (w - 1) : Nat) : Int)) (min z (((2 ^ (w - 1) : Nat) : Int) - 1))

/-- Clamp an integer to `w` bits, two's complement (R184). -/
def clampInt (w : Nat) (z : Int) : Int :=
  max (-((2 ^ (w - 1) : Nat) : Int)) (min z (((2 ^ (w - 1) : Nat) : Int) - 1))

/-- An integer as an exact value; zero is +0. -/
def FVal.ofInt (z : Int) : FVal := .fin (decide (z < 0)) z.natAbs 0

/-! ### Formats by code (R121) -/

/-- The floating-point format of a code, if it names one (R121). -/
def ffmt? : Nat → Option FFmt
  | 3 => some fE4M3
  | 4 => some fE5M2
  | 5 => some fFP16
  | 6 => some fBF16
  | 7 => some fFP32
  | _ => none

/-- Bits of one element of a format code (R159, R162). -/
def fmtBits : Nat → Nat
  | 0 => 4
  | 1 => 8
  | 2 => 32
  | 3 => 8
  | 4 => 8
  | 5 => 16
  | 6 => 16
  | _ => 32

/-- Whether a format code names an integer format. -/
def fmtIsInt (f : Nat) : Bool := decide (f ≤ 2)

/-- Widen one stored element into a lane (R132, R181): integers are sign-extended, short floats become FP32, and 32-bit
elements are loaded unchanged. -/
def widen (fmt x : Nat) : Word :=
  if fmt = 0 then BitVec.ofNat 32 (wrap 32 (signed 4 x))
  else if fmt = 1 then BitVec.ofNat 32 (wrap 32 (signed 8 x))
  else if fmt = 2 ∨ fmt = 7 then BitVec.ofNat 32 x
  else match ffmt? fmt with
    | some f => toFp32 true (f.decode x)
    | none => BitVec.ofNat 32 x

/-- Narrow one lane to a stored element (R182 to R187); `rnd` is the element's generator output where rounding is
stochastic. -/
def narrow (fmt : Nat) (ieee : Bool) (rnd : Option Nat) (x : Word) : Nat :=
  if fmt = 0 then wrap 4 (clampInt 4 x.toInt)
  else if fmt = 1 then wrap 8 (clampInt 8 x.toInt)
  else if fmt = 2 ∨ fmt = 7 then x.toNat
  else match ffmt? fmt with
    | some f => f.round ieee rnd (fp32 x)
    | none => x.toNat

/-- `VCVT` of one lane (R185). -/
def vcvt (fn fmt : Nat) (ieee : Bool) (rnd : Option Nat) (x : Word) : Word :=
  if fn = 0 then BitVec.ofNat 32 (fFP32.round ieee rnd (FVal.ofInt x.toInt))
  else if fn = 1 then BitVec.ofNat 32 (wrap 32 (toIntSat 32 rnd (fp32 x)))
  else if fmt = 7 then (if (fp32 x).isNan then nan32 else x)
  else if fmt ≤ 2 then
    let z := toIntSat (if fmt = 0 then 4 else if fmt = 1 then 8 else 32) rnd (fp32 x)
    if z = 2147483647 then 0x4EFF_FFFF else toFp32 true (FVal.ofInt z)
  else match ffmt? fmt with
    | some f => toFp32 true (f.decode (f.round ieee rnd (fp32 x)))
    | none => x

end Sys2Proof.Machine
end

