-- ==== Sys2Proof/Machine/RegTable.lean ====
section
/-! DEFINITION. The register map (R863 to R888, R910): pages, block types, and for every register its offset, its reset
value and the access type of every field, transcribed from the register tables of the spec's chapters. -/
namespace Sys2Proof.Machine

/-- Access types of R11. -/
inductive AccKind where
  | ro | rw | w1c | wo | rws | rwl
  deriving DecidableEq, Repr

/-- Bits `hi` to `lo` of a register, with their access type. -/
structure Fld where
  acc : AccKind
  hi : Nat
  lo : Nat
  deriving DecidableEq, Repr

/-- `n` consecutive registers of one layout from offset `off`. -/
structure RegRow where
  off : Nat
  n : Nat
  reset : Nat
  fields : List Fld
  deriving DecidableEq, Repr

/-- The block types (R10, R871). -/
inductive Blk where
  | top | reed | cons | horn | serp | panp | picc | mouth | bell | keyw | sng | brth | reqt | sess | part | mbx
  | host | drone | emb | sec | pwr | clk | mgmt | bist | wway | hbm
  deriving DecidableEq, Repr

/-- Type code of a block (R871). -/
def Blk.code : Blk → Nat
  | .top => 0x01 | .reed => 0x02 | .cons => 0x03 | .horn => 0x04 | .serp => 0x05 | .panp => 0x06 | .picc => 0x07
  | .mouth => 0x08 | .bell => 0x09 | .keyw => 0x0A | .sng => 0x0B | .brth => 0x0C | .reqt => 0x0D | .sess => 0x0E
  | .part => 0x0F | .mbx => 0x10 | .host => 0x11 | .drone => 0x12 | .emb => 0x13 | .sec => 0x14 | .pwr => 0x15
  | .clk => 0x16 | .mgmt => 0x17 | .bist => 0x18 | .wway => 0x19 | .hbm => 0x1A

/-- Whether a die slot is a chanter, a bellows or a drone (R17). -/
def isChanter (d : Nat) : Bool := decide (d < 4)
/-- Bellows-A is slot 4 and bellows-B slot 5. -/
def isBellows (d : Nat) : Bool := decide (d = 4 ∨ d = 5)
/-- Drone-A is slot 6 and drone-B slot 7. -/
def isDrone (d : Nat) : Bool := decide (d = 6 ∨ d = 7)

/-- The block on a page of a die, and its instance (R870). -/
def pageBlk (die page : Nat) : Option (Blk × Nat) :=
  if 8 ≤ die then none
  else if page = 0x001 then some (.brth, die)
  else if page = 0x002 then some (.part, die)
  else if page = 0x003 then some (.pwr, die)
  else if page = 0x004 then some (.clk, die)
  else if page = 0x005 then some (.emb, die)
  else if page = 0x006 then some (.bist, die)
  else if page = 0x007 then some (.wway, die)
  else if die < 4 then
    (if page = 0x010 then some (.serp, die)
     else if page = 0x011 then some (.panp, die)
     else if page = 0x012 then some (.picc, die)
     else if 0x018 ≤ page ∧ page < 0x01B then some (.hbm, page - 0x018)
     else if 0x020 ≤ page ∧ page < 0x028 then some (.cons, page - 0x020)
     else if 0x028 ≤ page ∧ page < 0x030 then some (.horn, page - 0x028)
     else if 0x030 ≤ page ∧ page < 0x038 then some (.sng, page - 0x030)
     else if 0x100 ≤ page ∧ page < 0x188 then some (.reed, page - 0x100)
     else none)
  else if die < 6 then
    (if page = 0x000 then some (.top, die)
     else if page = 0x008 then some (.mgmt, die)
     else if page = 0x010 then some (.reqt, die)
     else if page = 0x011 then some (.sess, die)
     else if page = 0x012 then some (.mbx, die)
     else if page = 0x013 then some (.host, die)
     else if page = 0x014 then some (.mouth, die)
     else if page = 0x015 then some (.bell, die)
     else if page = 0x016 then some (.keyw, die)
     else if page = 0x017 then some (.sng, die)
     else if page = 0x018 then some (.sec, die)
     else none)
  else if page = 0x010 then some (.drone, die)
  else none

/-- The page of a block instance on a die (R870). -/
def Blk.page (b : Blk) (die i : Nat) : Nat :=
  match b with
  | .top => 0x000 | .brth => 0x001 | .part => 0x002 | .pwr => 0x003 | .clk => 0x004 | .emb => 0x005
  | .bist => 0x006 | .wway => 0x007 | .mgmt => 0x008 | .serp => 0x010 | .panp => 0x011 | .picc => 0x012
  | .hbm => 0x018 + i | .cons => 0x020 + i | .horn => 0x028 + i
  | .sng => if die < 4 then 0x030 + i else 0x017
  | .reed => 0x100 + i | .reqt => 0x010 | .sess => 0x011 | .mbx => 0x012 | .host => 0x013 | .mouth => 0x014
  | .bell => 0x015 | .keyw => 0x016 | .sec => 0x018 | .drone => 0x010

/-- The register address of an offset in a page of a die (R863). -/
def regAddr (die page off : Nat) : Nat := off + (2 ^ 12 * page + 2 ^ 23 * die)

/-- One register. -/
def R1 (off reset : Nat) (fields : List Fld) : RegRow := ⟨off, 1, reset, fields⟩
/-- A register with one field over all its bits. -/
def Rw (off reset : Nat) (a : AccKind) : RegRow := ⟨off, 1, reset, [⟨a, 31, 0⟩]⟩

/-- What a block's chapter gives beside the common header: the bits of INT_STATUS, the bits of CNT_OVF, the number of
counters from 0x030, and the block's own registers. -/
structure BlkSpec where
  int : Nat
  ovf : Nat
  cnt : Nat
  rows : List RegRow
  deriving DecidableEq, Repr

/-- The one-bit fields of a mask. -/
def maskFlds (a : AccKind) (m : Nat) : Nat → List Fld
  | 0 => []
  | n + 1 => if m.testBit n then ⟨a, n, n⟩ :: maskFlds a m n else maskFlds a m n

open AccKind in
/-- BRTH_ on bellows-A (R69 to R74). -/
def brthRows : List RegRow :=
  [ R1 0x008 0 [⟨rw, 1, 0⟩], R1 0x100 0x1F4 [⟨ro, 11, 0⟩], R1 0x104 0x1F4 [⟨ro, 31, 31⟩, ⟨rw, 11, 0⟩],
    R1 0x108 0xA [⟨rw, 9, 0⟩], Rw 0x110 0 ro, Rw 0x114 0 ro, Rw 0x118 0 ro, R1 0x120 0 [⟨rw, 26, 6⟩],
    R1 0x124 0 [⟨wo, 23, 0⟩], R1 0x128 0 [⟨ro, 23, 16⟩, ⟨ro, 1, 0⟩], R1 0x130 0 [⟨rw, 31, 12⟩],
    R1 0x134 0 [⟨rw, 15, 0⟩], R1 0x138 8 [⟨rw, 4, 0⟩], Rw 0x13C 0 ro, Rw 0x140 0 rw, R1 0x148 0 [⟨ro, 15, 0⟩] ]

open AccKind in
/-- REED_ (R104 to R109, R217 to R221). -/
def reedRows : List RegRow :=
  [ R1 0x100 0 [⟨ro, 26, 24⟩, ⟨ro, 18, 16⟩, ⟨ro, 12, 8⟩, ⟨ro, 4, 0⟩],
    R1 0x104 0x202020 [⟨ro, 21, 16⟩, ⟨ro, 13, 8⟩, ⟨ro, 5, 0⟩],
    R1 0x110 0x104000 [⟨rw, 20, 8⟩, ⟨wo, 1, 1⟩, ⟨rw, 0, 0⟩],
    R1 0x114 0 [⟨ro, 31, 30⟩, ⟨ro, 23, 16⟩, ⟨ro, 12, 8⟩, ⟨ro, 6, 0⟩], Rw 0x118 0 ro, Rw 0x11C 0 ro,
    R1 0x120 0 [⟨rw, 21, 12⟩],
    R1 0x130 0x104000 [⟨rw, 20, 8⟩, ⟨wo, 1, 1⟩, ⟨rw, 0, 0⟩],
    R1 0x134 0 [⟨ro, 31, 30⟩, ⟨ro, 23, 16⟩, ⟨ro, 12, 8⟩, ⟨ro, 6, 0⟩], Rw 0x138 0 ro, Rw 0x13C 0 ro,
    R1 0x140 0 [⟨rw, 21, 12⟩],
    ⟨0x180, 8, 0x00010100, [⟨ro, 31, 31⟩, ⟨w1c, 30, 30⟩, ⟨ro, 25, 16⟩, ⟨rw, 15, 8⟩, ⟨rw, 1, 1⟩, ⟨wo, 0, 0⟩]⟩,
    R1 0x1A0 0 [⟨w1c, 31, 31⟩, ⟨ro, 30, 28⟩, ⟨ro, 26, 0⟩], R1 0x1A4 0x10010 [⟨rw, 16, 0⟩],
    Rw 0x1A8 0 ro, Rw 0x1AC 0 ro ]

open AccKind in
/-- TOP_ (R253 to R255, R762 to R764, R879, R880). -/
def topRows : List RegRow :=
  [ Rw 0x100 0x04120001 ro, Rw 0x104 0x42220C08 ro, Rw 0x108 0x00102020 ro, Rw 0x10C 0x00300030 ro,
    Rw 0x110 0x140F1740 ro, Rw 0x114 0x21160800 ro, Rw 0x118 0x13101000 ro, Rw 0x11C 0xFFFFFFFF ro,
    R1 0x200 0 [⟨rwl, 7, 0⟩], R1 0x204 0 [⟨ro, 11, 8⟩, ⟨ro, 3, 0⟩],
    R1 0x300 0 [⟨ro, 31, 30⟩, ⟨ro, 23, 16⟩, ⟨ro, 12, 6⟩, ⟨ro, 2, 0⟩], R1 0x304 0x302 [⟨rw, 11, 8⟩, ⟨rw, 3, 0⟩],
    ⟨0x310, 4, 0, [⟨ro, 31, 0⟩]⟩, R1 0x320 0 [⟨w1c, 3, 0⟩], R1 0x324 0 [⟨rw, 3, 0⟩],
    R1 0x400 0xFF [⟨rw, 7, 0⟩], R1 0x404 0 [⟨ro, 7, 0⟩], R1 0x408 1 [⟨rw, 0, 0⟩],
    ⟨0x420, 8, 0, [⟨ro, 31, 0⟩]⟩, R1 0x440 0 [⟨rw, 20, 16⟩, ⟨rw, 2, 0⟩], ⟨0x444, 5, 0, [⟨ro, 31, 0⟩]⟩,
    R1 0x500 0 [⟨ro, 25, 0⟩], R1 0x504 0 [⟨w1c, 31, 31⟩, ⟨ro, 30, 27⟩, ⟨ro, 9, 0⟩] ]

open AccKind in
/-- WWAY_ (R885, R886). -/
def wwayRows : List RegRow :=
  [ R1 0x100 0 [⟨rw, 3, 0⟩], R1 0x104 0 [⟨ro, 31, 29⟩, ⟨ro, 26, 0⟩], R1 0x108 0 [⟨ro, 10, 0⟩] ]

open AccKind in
/-- HBM_ (R887). -/
def hbmRows : List RegRow :=
  [ R1 0x104 0 [⟨ro, 15, 0⟩], R1 0x100 0 [⟨ro, 31, 29⟩, ⟨ro, 23, 16⟩, ⟨ro, 11, 8⟩] ]

open AccKind in
/-- SNG_ (R467, R468). -/
def sngRows : List RegRow :=
  [ R1 0x00C 0 [⟨ro, 31, 31⟩, ⟨ro, 1, 0⟩], ⟨0x100, 6, 0, [⟨rw, 31, 0⟩]⟩, R1 0x118 0 [⟨wo, 0, 0⟩],
    ⟨0x11C, 3, 0, [⟨ro, 31, 0⟩]⟩ ]

open AccKind in
/-- SEC_ (R222, R791 to R795). -/
def secRows : List RegRow :=
  [ R1 0x100 0 [⟨ro, 31, 31⟩, ⟨ro, 2, 0⟩], R1 0x104 0 [⟨wo, 2, 0⟩], R1 0x108 0 [⟨wo, 0, 0⟩],
    R1 0x10C 0 [⟨ro, 31, 30⟩, ⟨ro, 23, 0⟩], R1 0x110 0 [⟨ro, 31, 30⟩, ⟨ro, 27, 24⟩, ⟨ro, 17, 16⟩, ⟨rwl, 1, 0⟩],
    R1 0x114 0 [⟨ro, 6, 0⟩], R1 0x118 0 [⟨wo, 6, 0⟩], R1 0x11C 0 [⟨wo, 3, 0⟩],
    R1 0x120 0 [⟨w1c, 19, 16⟩, ⟨ro, 3, 0⟩], R1 0x124 0xE [⟨rwl, 4, 0⟩], R1 0x128 0 [⟨wo, 26, 6⟩],
    R1 0x12C 0 [⟨ro, 31, 28⟩, ⟨ro, 15, 0⟩], R1 0x130 0 [⟨ro, 15, 0⟩], R1 0x134 0 [⟨rwl, 26, 0⟩],
    ⟨0x140, 12, 0, [⟨ro, 31, 0⟩]⟩, ⟨0x200, 2, 0, [⟨rwl, 31, 0⟩]⟩, R1 0x208 0 [⟨ro, 31, 31⟩, ⟨ro, 2, 0⟩],
    ⟨0x210, 8, 0, [⟨rwl, 31, 0⟩]⟩, ⟨0x300, 24, 0, [⟨ro, 31, 0⟩]⟩, ⟨0x400, 64, 0, [⟨wo, 31, 0⟩]⟩ ]

open AccKind in
/-- PWR_ (R826 to R830). -/
def pwrRows : List RegRow :=
  [ R1 0x100 0x003205DC [⟨rw, 23, 16⟩, ⟨rw, 10, 0⟩], R1 0x104 0 [⟨ro, 15, 0⟩],
    R1 0x108 0xC [⟨ro, 31, 24⟩, ⟨ro, 10, 8⟩, ⟨ro, 3, 0⟩], R1 0x10C 0 [⟨wo, 1, 0⟩],
    R1 0x110 0 [⟨ro, 31, 31⟩, ⟨ro, 10, 8⟩, ⟨ro, 1, 0⟩], R1 0x114 0 [⟨wo, 31, 16⟩, ⟨wo, 1, 0⟩],
    R1 0x118 0 [⟨rws, 31, 24⟩, ⟨rws, 11, 8⟩, ⟨rws, 2, 0⟩] ]

open AccKind in
/-- CLK_ (R832, R833). -/
def clkRows : List RegRow :=
  [ R1 0x100 1 [⟨rwl, 2, 0⟩], R1 0x104 0 [⟨ro, 31, 31⟩, ⟨ro, 19, 16⟩, ⟨ro, 7, 0⟩] ]

open AccKind in
/-- MGMT_ (R218, R857). -/
def mgmtRows : List RegRow :=
  [ R1 0x100 0 [⟨ro, 31, 29⟩, ⟨ro, 22, 16⟩, ⟨ro, 13, 8⟩], Rw 0x104 0 ro, R1 0x108 0 [⟨ro, 15, 0⟩],
    R1 0x10C 0x3F [⟨rws, 5, 0⟩], ⟨0x0E0, 8, 0, [⟨ro, 31, 0⟩]⟩,
    ⟨0x400, 64, 0x00020200, [⟨ro, 31, 31⟩, ⟨w1c, 30, 30⟩, ⟨ro, 25, 16⟩, ⟨rw, 15, 8⟩, ⟨rw, 1, 1⟩, ⟨wo, 0, 0⟩]⟩,
    R1 0x500 0 [⟨ro, 31, 0⟩], R1 0x504 0 [⟨w1c, 31, 31⟩, ⟨ro, 30, 28⟩], R1 0x508 0x10040 [⟨rw, 16, 0⟩],
    Rw 0x510 0 ro, Rw 0x514 0 ro ]

open AccKind in
/-- BIST_ (R858 to R860). -/
def bistRows : List RegRow :=
  [ R1 0x008 0x10 [⟨wo, 31, 31⟩, ⟨rw, 17, 16⟩, ⟨rw, 10, 8⟩, ⟨rw, 4, 0⟩],
    R1 0x00C 0 [⟨ro, 31, 31⟩, ⟨ro, 18, 16⟩, ⟨ro, 1, 0⟩], ⟨0x100, 6, 0, [⟨ro, 31, 0⟩]⟩ ]

open AccKind in
/-- PART_ (R612 to R617). -/
def partRows (die : Nat) : List RegRow :=
  [ R1 0x100 0 [⟨rw, 9, 8⟩, ⟨rw, 5, 0⟩], Rw 0x104 0 rw, R1 0x108 0 [⟨rw, 31, 0⟩], Rw 0x10C 0 ro,
    R1 0x110 0 [⟨rw, 1, 0⟩], R1 0x120 0 [⟨rwl, 31, 29⟩],
    R1 0x124 0 (if die < 4 then [⟨rw, 19, 16⟩, ⟨rw, 3, 0⟩] else if die < 6 then [⟨rw, 31, 0⟩] else []),
    Rw 0x128 0xFFFFFFFF rw,
    R1 0x130 0 (if isBellows die then [⟨rw, 8, 0⟩] else []), R1 0x134 0 (if isBellows die then [⟨rwl, 5, 0⟩] else []), R1 0x140 0 [⟨wo, 15, 0⟩],
    R1 0x144 0 [⟨ro, 31, 31⟩, ⟨ro, 23, 0⟩], R1 0x148 0 [⟨rw, 31, 6⟩], R1 0x14C 0 [⟨rw, 15, 0⟩],
    R1 0x200 0 [⟨rwl, 31, 12⟩], R1 0x204 0 [⟨rwl, 15, 0⟩], R1 0x208 0 [⟨rwl, 27, 0⟩], R1 0x20C 0 [⟨rwl, 1, 0⟩],
    R1 0x210 0 [⟨rwl, 31, 12⟩], R1 0x214 0 [⟨rwl, 15, 0⟩], R1 0x218 0 [⟨rwl, 27, 0⟩], R1 0x21C 0 [⟨rwl, 1, 0⟩],
    R1 0x220 0 [⟨rwl, 31, 12⟩], R1 0x224 0 [⟨rwl, 15, 0⟩], R1 0x228 0 [⟨rwl, 27, 0⟩], R1 0x22C 0 [⟨rwl, 1, 0⟩],
    R1 0x230 0 [⟨rwl, 31, 12⟩], R1 0x234 0 [⟨rwl, 15, 0⟩], R1 0x238 0 [⟨rwl, 27, 0⟩], R1 0x23C 0 [⟨rwl, 1, 0⟩],
    R1 0x240 0 [⟨rwl, 31, 12⟩], R1 0x244 0 [⟨rwl, 15, 0⟩], R1 0x248 0 [⟨rwl, 27, 0⟩], R1 0x24C 0 [⟨rwl, 1, 0⟩],
    R1 0x250 0 [⟨rwl, 31, 12⟩], R1 0x254 0 [⟨rwl, 15, 0⟩], R1 0x258 0 [⟨rwl, 27, 0⟩], R1 0x25C 0 [⟨rwl, 1, 0⟩],
    R1 0x260 0 [⟨rwl, 31, 12⟩], R1 0x264 0 [⟨rwl, 15, 0⟩], R1 0x268 0 [⟨rwl, 27, 0⟩], R1 0x26C 0 [⟨rwl, 1, 0⟩],
    R1 0x270 0 [⟨rwl, 31, 12⟩], R1 0x274 0 [⟨rwl, 15, 0⟩], R1 0x278 0 [⟨rwl, 27, 0⟩], R1 0x27C 0 [⟨rwl, 1, 0⟩] ]

open AccKind in
/-- CONS_ (R754, R755). -/
def consRows : List RegRow :=
  [ R1 0x100 0x00100000 [⟨ro, 31, 30⟩, ⟨ro, 25, 24⟩, ⟨ro, 20, 16⟩, ⟨ro, 11, 8⟩], R1 0x104 0 [⟨ro, 16, 0⟩],
    R1 0x108 0 [⟨wo, 31, 31⟩, ⟨wo, 4, 0⟩] ]

open AccKind in
/-- HOST_ (R674). -/
def hostRows : List RegRow :=
  [ R1 0x100 0 [⟨ro, 31, 28⟩, ⟨ro, 23, 16⟩, ⟨ro, 12, 8⟩, ⟨ro, 4, 0⟩], R1 0x104 0 [⟨rwl, 0, 0⟩],
    R1 0x108 0x29 [⟨rwl, 13, 8⟩, ⟨rwl, 5, 0⟩], R1 0x110 0 [⟨rw, 8, 0⟩], R1 0x114 0 [⟨rwl, 1, 0⟩],
    R1 0x118 0 [⟨ro, 31, 27⟩], R1 0x120 0 [⟨rwl, 31, 12⟩], R1 0x124 0 [⟨rwl, 15, 0⟩] ]

open AccKind in
/-- MBX_ (R676, R677). -/
def mbxRows : List RegRow :=
  [ R1 0x008 0 [⟨rw, 0, 0⟩], ⟨0x100, 4, 0, [⟨ro, 31, 0⟩]⟩, R1 0x110 0 [⟨ro, 31, 31⟩, ⟨ro, 21, 16⟩, ⟨ro, 9, 0⟩],
    ⟨0x120, 4, 0, [⟨rw, 31, 0⟩]⟩, R1 0x130 0 [⟨rw, 31, 31⟩, ⟨rw, 21, 16⟩, ⟨rw, 9, 0⟩], R1 0x134 0 [⟨ro, 1, 0⟩],
    Rw 0x140 0 ro ]

open AccKind in
/-- HORN_ (R296 to R298). -/
def hornRows : List RegRow :=
  [ R1 0x008 1 [⟨rw, 0, 0⟩], R1 0x100 0x3FF000 [⟨rw, 21, 12⟩],
    R1 0x104 0 [⟨ro, 31, 30⟩, ⟨ro, 23, 16⟩, ⟨ro, 12, 8⟩, ⟨ro, 3, 0⟩], R1 0x108 0 [⟨ro, 15, 0⟩],
    R1 0x10C 0 [⟨wo, 15, 0⟩] ]

open AccKind in
/-- The directory registers of a versioned unit (R335 to R337, R375, R449, R451): a device address where `hi` is true, else a
bellows SRAM offset. -/
def verRows (hi : Bool) (idHi : Nat) (status : List Fld) : List RegRow :=
  [ R1 0x100 0 [⟨rw, if hi then 31 else 26, 6⟩], R1 0x104 0 (if hi then [⟨rw, 15, 0⟩] else []),
    R1 0x108 0 [⟨wo, idHi, 0⟩], R1 0x10C 0 [⟨ro, 19, 16⟩, ⟨ro, 2, 0⟩], R1 0x110 0 [⟨ro, 31, 31⟩, ⟨ro, idHi, 0⟩],
    R1 0x118 0 status ]

open AccKind in
/-- SERP_ (R334 to R339). -/
def serpRows : List RegRow :=
  verRows true 25 [⟨ro, 31, 30⟩, ⟨ro, 23, 16⟩, ⟨ro, 9, 0⟩] ++
  [ R1 0x114 0xE4 [⟨ro, 7, 0⟩], R1 0x11C 0 [⟨ro, 22, 16⟩, ⟨ro, 8, 0⟩] ] ++
  (List.range 8).flatMap (fun n =>
    [ R1 (0x140 + 8 * n) 0 [⟨rw, 31, 31⟩, ⟨rw, 25, 16⟩, ⟨rw, 8, 0⟩], R1 (0x144 + 8 * n) 0 [⟨rw, 9, 0⟩] ])

open AccKind in
/-- PANP_ (R375 to R378). -/
def panpRows : List RegRow :=
  verRows true 21 [⟨ro, 31, 30⟩, ⟨ro, 23, 16⟩, ⟨ro, 5, 0⟩] ++ [ R1 0x114 0xE4 [⟨ro, 7, 0⟩] ]

open AccKind in
/-- PICC_ (R401 to R403). -/
def piccRows : List RegRow :=
  [ R1 0x008 1 [⟨rw, 0, 0⟩], R1 0x100 0 [⟨ro, 31, 30⟩, ⟨ro, 23, 0⟩], R1 0x104 0 [⟨ro, 15, 0⟩] ]

open AccKind in
/-- MOUTH_ (R449, R452, R453). -/
def mouthRows : List RegRow := R1 0x008 1 [⟨rw, 0, 0⟩] :: verRows false 27 [⟨ro, 31, 30⟩, ⟨ro, 23, 0⟩]

open AccKind in
/-- BELL_ (R450, R453). -/
def bellRows : List RegRow := [ R1 0x008 1 [⟨rw, 0, 0⟩], R1 0x118 0 [⟨ro, 31, 30⟩, ⟨ro, 23, 0⟩] ]

open AccKind in
/-- KEYW_ (R451 to R453). -/
def keywRows : List RegRow := R1 0x008 1 [⟨rw, 0, 0⟩] :: verRows false 27 [⟨ro, 31, 30⟩, ⟨ro, 23, 0⟩]

open AccKind in
/-- REQT_ (R520 to R525). -/
def reqtRows : List RegRow :=
  [ R1 0x008 3 [⟨rw, 1, 0⟩], R1 0x00C 0 [⟨ro, 31, 31⟩, ⟨ro, 15, 0⟩], Rw 0x100 0 ro, R1 0x104 0 [⟨rw, 14, 0⟩],
    R1 0x108 0x00084001 [⟨rw, 23, 8⟩, ⟨rw, 2, 0⟩], R1 0x10C 2 [⟨rw, 3, 0⟩], Rw 0x110 0 ro,
    R1 0x114 0 [⟨ro, 31, 31⟩, ⟨ro, 23, 0⟩], ⟨0x180, 32, 0, [⟨rw, 31, 0⟩]⟩ ]

open AccKind in
/-- SESS_ (R563 to R567). -/
def sessRows : List RegRow :=
  [ R1 0x008 1 [⟨wo, 1, 1⟩, ⟨rw, 0, 0⟩], R1 0x00C 0 [⟨ro, 31, 29⟩, ⟨ro, 14, 0⟩], R1 0x100 0 [⟨ro, 23, 0⟩],
    R1 0x104 0 [⟨ro, 24, 16⟩, ⟨ro, 8, 0⟩], R1 0x108 0x01000032 [⟨rw, 24, 16⟩, ⟨rw, 6, 0⟩], R1 0x10C 0 [⟨rw, 22, 0⟩],
    Rw 0x110 0 ro, Rw 0x114 0 ro, ⟨0x180, 16, 0, [⟨rw, 31, 0⟩]⟩ ]

open AccKind in
/-- EMB_ (R757 to R760): EMB_OPP and EMB_AGE stand on chanters only and read 0 on other dies. -/
def embRows (chanter : Bool) : List RegRow :=
  [ R1 0x008 1 [⟨wo, 1, 1⟩, ⟨rw, 0, 0⟩], R1 0x100 0x80819 [⟨rw, 19, 16⟩, ⟨rw, 15, 0⟩], Rw 0x104 0 rws,
    Rw 0x108 0 ro, Rw 0x10C 0 ro, R1 0x110 0 [⟨rw, 5, 0⟩], R1 0x114 0 [⟨ro, 15, 0⟩], Rw 0x118 0 ro ] ++
  (if chanter then
    [ ⟨0x120, 8, 0x080002EE, [⟨ro, 31, 31⟩, ⟨ro, 27, 24⟩, ⟨ro, 9, 0⟩]⟩, ⟨0x140, 8, 0, [⟨rws, 31, 0⟩]⟩ ]
  else [ ⟨0x120, 8, 0, [⟨ro, 31, 0⟩]⟩, ⟨0x140, 8, 0, [⟨ro, 31, 0⟩]⟩ ])

open AccKind in
/-- DRONE_ (R712 to R715). -/
def droneRows : List RegRow :=
  [ R1 0x008 1 [⟨wo, 2, 1⟩, ⟨rw, 0, 0⟩], R1 0x00C 0 [⟨ro, 31, 31⟩, ⟨ro, 19, 0⟩], R1 0x100 0x00100008 [⟨rw, 31, 0⟩],
    R1 0x104 0xC8 [⟨rw, 15, 0⟩], R1 0x108 0x00040060 [⟨rw, 23, 0⟩], R1 0x10C 0x219 [⟨rw, 15, 8⟩, ⟨rw, 6, 0⟩],
    Rw 0x110 0x4E200200 rw, R1 0x114 0xC [⟨rwl, 6, 0⟩], Rw 0x118 0 ro, Rw 0x11C 0 ro, Rw 0x120 0 ro, R1 0x124 0 [⟨ro, 7, 0⟩],
    Rw 0x128 0 ro, R1 0x12C 0 [⟨ro, 7, 0⟩], Rw 0x130 0 ro, R1 0x134 0 [⟨ro, 24, 0⟩], Rw 0x138 0 ro, Rw 0x13C 0 ro,
    R1 0x140 0 [⟨rw, 12, 8⟩, ⟨rw, 2, 0⟩], R1 0x144 0 [⟨ro, 31, 28⟩, ⟨ro, 15, 0⟩] ]

/-- Registers at offsets where a die's block only reads and ignores writes without a record (R69, R253, R757, R762). -/
def quietRows (resetOf : Nat → Nat) (rows : List RegRow) : List RegRow :=
  rows.map (fun r => { r with reset := resetOf r.off, fields := [⟨.ro, 31, 0⟩] })

/-- BRTH_ of a die: generator, plan and ring registers belong to bellows-A, and read 0 elsewhere. -/
def brthDie (die : Nat) : List RegRow :=
  if die = 4 then brthRows
  else
    let own : List Nat := [0x100, 0x110, 0x114, 0x118, 0x148]
    brthRows.filter (fun r => own.contains r.off) ++
      quietRows (fun _ => 0) (brthRows.filter (fun r => !own.contains r.off))

/-- TOP_ of a bellows: tier registers are written through bellows-A, fault registers stand on bellows-A alone. -/
def topDie (die : Nat) : List RegRow :=
  if die = 4 then topRows
  else
    let quiet (r : RegRow) : Bool := decide (0x200 ≤ r.off) && decide (r.off < 0x400)
    topRows.filter (fun r => !quiet r) ++ quietRows (fun _ => 0) (topRows.filter quiet)

/-- Interrupts, overflow bits, counters and rows of each block. -/
def blkSpec (b : Blk) (die : Nat) : BlkSpec :=
  match b with
  | .top => ⟨0x3, 0xF, 4, topDie die⟩
  | .reed => ⟨0xF, 0x3FF, 9, reedRows⟩
  | .cons => ⟨0x7, 0x3, 2, consRows⟩
  | .sng => ⟨0x3, 0x3, 2, sngRows⟩
  | .brth => ⟨0x3F, 0x1F, 5, brthDie die⟩
  | .part => ⟨0x1F, 0x1F, 5, partRows die⟩
  | .sec => ⟨0x1F, 0xF, 4, secRows⟩
  | .pwr => ⟨0xF, 0x3, 2, pwrRows⟩
  | .clk => ⟨0x1, 0, 0, clkRows⟩
  | .mgmt => ⟨0, 0xF800001F, 5, mgmtRows⟩
  | .bist => ⟨0x3, 0x3, 2, bistRows⟩
  | .wway => ⟨0x7, 0x1F, 5, wwayRows⟩
  | .hbm => ⟨0x7, 0xF, 4, hbmRows⟩
  | .host => ⟨0xF, 0x3F, 6, hostRows⟩
  | .mbx => ⟨0xF, 0xF, 4, mbxRows⟩
  | .horn => ⟨0x3, 0x3F, 6, hornRows⟩
  | .serp => ⟨0xF, 0xFF, 8, serpRows⟩
  | .panp => ⟨0x1F, 0x3FF, 10, panpRows⟩
  | .picc => ⟨0x3, 0x3F, 6, piccRows⟩
  | .mouth => ⟨0xF, 0x1F, 5, mouthRows⟩
  | .bell => ⟨0x9, 0x3F, 6, bellRows⟩
  | .keyw => ⟨0xF, 0x1F, 5, keywRows⟩
  | .reqt => ⟨0x1F, 0x1FFF, 13, reqtRows⟩
  | .sess => ⟨0xF, 0xFF, 8, sessRows⟩
  | .emb => ⟨0xF, 0x3, 2, embRows (decide (die < 4))⟩
  | .drone => ⟨0xFF, 0x3FF, 10, droneRows⟩

/-- The common header of R872, for a block with CTRL and STATUS not among its own rows. -/
def hdrRow (b : Blk) (sp : BlkSpec) (off : Nat) : Option RegRow :=
  let all : List Fld := [⟨.ro, 31, 0⟩]
  if off = 0x000 ∨ off = 0x004 then some ⟨off, 1, 0, all⟩
  else if off = 0x008 ∨ off = 0x00C then some ⟨off, 1, 0, []⟩
  else if off = 0x010 then some ⟨off, 1, 0, maskFlds .w1c sp.int 32⟩
  else if off = 0x014 then some ⟨off, 1, 0, maskFlds .rw sp.int 32⟩
  else if off = 0x018 then some ⟨off, 1, 0, maskFlds .wo sp.int 32⟩
  else if off = 0x01C then
    some ⟨off, 1, 0, if b = .reed then [⟨.w1c, 31, 31⟩, ⟨.ro, 23, 8⟩, ⟨.w1c, 1, 0⟩] else [⟨.w1c, 2, 0⟩]⟩
  else if off = 0x020 then some ⟨off, 1, 0, all⟩
  else if off = 0x024 then some ⟨off, 1, 0, all⟩
  else if off = 0x028 then some ⟨off, 1, 0, maskFlds .w1c sp.ovf 32⟩
  else if off = 0x02C then some ⟨off, 1, 0, [⟨.ro, 31, 31⟩, ⟨.rwl, 0, 0⟩]⟩
  else if 0x030 ≤ off ∧ off < 0x030 + 8 * sp.cnt then some ⟨off, 1, 0, all⟩
  else none

/-- The register at an offset of a block on a die, or none where no register stands (R865). -/
def regRow (b : Blk) (die off : Nat) : Option RegRow :=
  if off % 4 ≠ 0 then none
  else
    let sp := blkSpec b die
    match List.find? (fun (r : RegRow) => decide (r.off ≤ off) && decide (off < r.off + 4 * r.n)) sp.rows with
    | some r => some r
    | none => hdrRow b sp off

/-- The reset value of a stored register word; keys at 2^26 and above hold the words behind an index register. -/
def regReset (key : Nat) : Word :=
  let a := key % 2 ^ 26
  let idx := key / 2 ^ 26
  let die := a / 2 ^ 23
  let off := a % 2 ^ 12
  match pageBlk die (a / 2 ^ 12 % 2 ^ 11) with
  | none => 0
  | some (b, _) =>
    if b = .top ∧ off = 0x400 ∧ die = 5 then 0
    else if b = .part ∧ off = 0x120 then (if idx = 1 then 0x80000000 else 0)
    else if b = .part ∧ off = 0x124 then (if die < 4 then 0x00080000 else if die < 6 then 0x80000000 else 0)
    else if b = .part ∧ off = 0x208 ∧ idx = 1 then 0x9000000
    else if b = .part ∧ off = 0x20C ∧ idx = 1 then 3
    else if b = .host ∧ off = 0x114 ∧ idx = 1 then 3
    else match regRow b die off with
      | some r => BitVec.ofNat 32 r.reset
      | none => 0

end Sys2Proof.Machine
end

