-- ==== Sys2Proof/Machine/SMap.lean ====
section
/-! DEFINITION. Sparse maps in one canonical form: keys strictly rising, and no entry equal to what an unlisted key
reads as. Equal maps are equal data. -/
namespace Sys2Proof.Machine

/-- A sparse map from a number to `α`. -/
abbrev SMap (α : Type) := List (Nat × α)

/-- The entry listed under `k`, if any. -/
def SMap.find? {α : Type} : SMap α → Nat → Option α
  | [], _ => none
  | (k', v) :: t, k => if k' = k then some v else SMap.find? t k

/-- What `k` reads as, where `d` says what an unlisted key reads as. -/
def SMap.get {α : Type} (d : Nat → α) (m : SMap α) (k : Nat) : α := (SMap.find? m k).getD (d k)

/-- List `v` under `k`, keeping the keys rising. -/
def SMap.put {α : Type} : SMap α → Nat → α → SMap α
  | [], k, v => [(k, v)]
  | (k', v') :: t, k, v =>
    if k < k' then (k, v) :: (k', v') :: t
    else if k' = k then (k, v) :: t
    else (k', v') :: SMap.put t k v

/-- Drop what is listed under `k`. -/
def SMap.del {α : Type} : SMap α → Nat → SMap α
  | [], _ => []
  | (k', v') :: t, k => if k' = k then SMap.del t k else (k', v') :: SMap.del t k

/-- Write `v` at `k`: an entry equal to the default is dropped. -/
def SMap.set {α : Type} [DecidableEq α] (d : Nat → α) (m : SMap α) (k : Nat) (v : α) : SMap α :=
  if v = d k then SMap.del m k else SMap.put m k v

/-- Replace the value at `k` by `f` of it. -/
def SMap.upd {α : Type} [DecidableEq α] (d : Nat → α) (m : SMap α) (k : Nat) (f : α → α) : SMap α :=
  SMap.set d m k (f (SMap.get d m k))

/-- Keep the entries whose key satisfies `p`; the others read as the default again. -/
def SMap.keep {α : Type} (p : Nat → Bool) (m : SMap α) : SMap α := List.filter (fun e => p e.1) m

/-- Drop every entry of the `n` keys from `lo`. -/
def SMap.dropRange {α : Type} (m : SMap α) (lo n : Nat) : SMap α :=
  SMap.keep (fun k => !(decide (lo ≤ k) && decide (k < lo + n))) m

/-- Keys strictly rising from above `lo`, and no entry equal to the default. -/
def SMap.wfFrom {α : Type} [DecidableEq α] (d : Nat → α) : Option Nat → SMap α → Bool
  | _, [] => true
  | lo, (k, v) :: t =>
    (match lo with | none => true | some l => decide (l < k)) && decide (v ≠ d k) && SMap.wfFrom d (some k) t

/-- The canonical form of a sparse map. -/
def SMap.wf {α : Type} [DecidableEq α] (d : Nat → α) (m : SMap α) : Bool := SMap.wfFrom d none m

/-- Memory: bytes by address; a byte nothing has written reads 0 (R215, R817). -/
abbrev Memory := SMap Byte

/-- What an unlisted byte of memory reads as (R215, R817: the clearing writes zero). -/
def Memory.blank (_ : Nat) : Byte := 0

/-- The canonical form of memory. -/
def Memory.wf (m : Memory) : Bool := SMap.wf Memory.blank m

/-- One byte of memory. -/
def Memory.byte (m : Memory) (a : Nat) : Byte := SMap.get Memory.blank m a

/-- Write one byte of memory. -/
def Memory.setByte (m : Memory) (a : Nat) (b : Byte) : Memory := SMap.set Memory.blank m a b

/-- The `n` bytes from `a`, lowest address first. -/
def Memory.bytes (m : Memory) (a : Nat) : Nat → List Byte
  | 0 => []
  | n + 1 => Memory.byte m a :: Memory.bytes m (a + 1) n

/-- Write a list of bytes from `a` upward. -/
def Memory.setBytes (m : Memory) (a : Nat) : List Byte → Memory
  | [] => m
  | b :: bs => Memory.setBytes (Memory.setByte m a b) (a + 1) bs

/-- The little-endian value of the `n` bytes from `a` (R9). -/
def Memory.le (m : Memory) (a : Nat) : Nat → Nat
  | 0 => 0
  | n + 1 => (Memory.byte m a).toNat + 256 * Memory.le m (a + 1) n

/-- Write the low `n` bytes of `v` from `a`, least significant first (R9). -/
def Memory.setLe (m : Memory) (a : Nat) : Nat → Nat → Memory
  | 0, _ => m
  | n + 1, v => Memory.setLe (Memory.setByte m a (BitVec.ofNat 8 v)) (a + 1) n (v / 256)

/-- Write zero to the `n` bytes from `a`: they are dropped from the list. -/
def Memory.clear (m : Memory) (a n : Nat) : Memory := SMap.dropRange m a n

end Sys2Proof.Machine
end

