-- ==== Sys2Proof/Machine/StateFlash.lean ====
section
/-! DEFINITION. The state of a drone: objects, slots, blocks, buffers, map cache, targets and recovery (R680 to R717). -/
namespace Sys2Proof.Machine

/-- A unit of an object on a drone (R691): its slot once it is programmed, whether its map entry is poisoned, and whether
the slot has been found uncorrectable (R699, R702, R704). -/
structure FSlot where
  psa : Option Nat := none
  poison : Bool := false
  bad : Bool := false
  seq : Nat := 0
  deriving DecidableEq, Repr

/-- An object on a drone (R684, R685, R687). -/
structure FObj where
  committed : Bool := false
  /-- A commit or a delete has been accepted and has not completed: its tag, and the status that the other drone's share
  has ended with. -/
  closing : Option (Nat × Nat) := none
  deleting : Option (Nat × Nat) := none
  /-- Size in object units, drones (0 both, 1 A, 2 B), stream, partition. -/
  size : Nat := 0
  drones : Nat := 0
  stream : Nat := 3
  part : Nat := 0
  /-- Contents by byte of the drone's own units, and the units written. -/
  data : Memory := []
  units : SMap (Option FSlot) := []
  deriving DecidableEq, Repr

/-- What waits to be programmed (R687, R695, R697). -/
inductive BufKind where
  | unit (obj u : Nat)
  | commit (obj : Nat)
  | delete (obj : Nat)
  /-- A relocation from a block: 1 collection, 2 wear levelling, 3 rewrite, 4 grown-bad block. -/
  | move (obj u why : Nat)
  /-- A journal record of a relocation whose new slot is programmed. -/
  | journal (obj u psa why : Nat)
  /-- A dirty map or bucket page written back (R693). -/
  | page (obj : Option Nat) (level idx : Nat)
  deriving DecidableEq, Repr

/-- An entry of the drone's write buffer. -/
structure BufE where
  stream : Nat
  kind : BufKind
  deriving DecidableEq, Repr

/-- A block of a LUN, its planes taken together (R691 to R701). -/
structure NBlock where
  ec : Nat := 0
  /-- 0 free, 1 open, 2 closed, 3 grown-bad or factory-marked, 4 to be erased. -/
  st : Nat := 0
  stream : Nat := 0
  /-- Pages programmed. -/
  used : Nat := 0
  errs : Nat := 0
  deriving DecidableEq, Repr

/-- A target (R681, R682, R702, R715). -/
structure Target where
  present : Bool := false
  offline : Bool := false
  disabled : Bool := false
  training : Bool := false
  grownBad : Nat := 0
  lastCal : Nat := 0
  /-- The die temperature has moved by more than 10 °C since the last calibration (R682). -/
  warm : Bool := false
  deriving DecidableEq, Repr

/-- A frame of the mapping cache (R693): object (or none for a bucket page), level and index, and whether it is dirty. -/
structure Frame where
  obj : Option Nat
  level : Nat
  idx : Nat
  dirty : Bool := false
  /-- Frame number: its granule lies on chanter `slot mod 4` (R230, R693). -/
  slot : Nat := 0
  deriving DecidableEq, Repr

/-- What flash holds of the drone's anchor (R683). -/
inductive Anchor where
  | none
  /-- Bound to the serial of this device. -/
  | own
  | foreign
  deriving DecidableEq, Repr

/-- A drone. -/
structure Drone where
  anchor : Anchor := .none
  objs : SMap (Option FObj) := []
  /-- Write buffer, oldest first. -/
  buf : List BufE := []
  blocks : SMap NBlock := []
  targets : SMap Target := []
  /-- Geometry of the first accepted target (R681, R712). -/
  luns : Nat := 0
  planes : Nat := 0
  slots : Nat := 0
  pages : Nat := 0
  perPlane : Nat := 0
  /-- Next LUN of each stream in rotation (R695). -/
  rot : SMap Nat := []
  /-- Block being emptied, and why (R696 to R699). -/
  victim : Option (Nat × Nat) := none
  /-- Blocks scheduled for a rewrite (R699, R701). -/
  rewrite : List (Nat × Nat) := []
  /-- Map and bucket pages in the cache, most recently used first. -/
  frames : List Frame := []
  /-- Slots of journal since the last checkpoint, and its sequence number. -/
  jrnl : Nat := 0
  /-- Write sequence number of the next slot (R691). -/
  seq : Nat := 0
  /-- Static wear levelling has started and the spread is still above half its threshold (R698). -/
  levelling : Bool := false
  /-- Formats made: every good block has been erased that often besides the count it lists (R713). -/
  ecBase : Nat := 0
  ckptSeq : Nat := 0
  ckptWanted : Bool := false
  deriving DecidableEq, Repr

end Sys2Proof.Machine
end

