-- ==== Sys2Proof/Machine/StateHorn.lean ====
section
/-! DEFINITION. The state of a Horn (R269 to R274, R280, R293). -/
namespace Sys2Proof.Machine

/-- The running state of one query row (R280): m, l and o. -/
structure HRow where
  m : Word := 0xFF800000
  l : Word := 0
  o : List Word := []
  deriving DecidableEq, Repr

/-- A Horn descriptor (R275). -/
structure HDesc where
  op : Nat := 0
  flags : Nat := 0
  kvFmt : Nat := 0
  outFmt : Nat := 0
  heads : Nat := 0
  qPerKv : Nat := 0
  width : Nat := 0
  nQ : Nat := 0
  grain : Nat := 0
  rsvd : Nat := 0
  ctxFirst : Nat := 0
  ctxCount : Nat := 0
  qPos0 : Nat := 0
  window : Nat := 0
  scale : Word := 0
  list : Nat := 0
  qOff : Nat := 0
  srcOff : Nat := 0
  outOff : Nat := 0
  statsOff : Nat := 0
  scratchOff : Nat := 0
  nNew : Nat := 0
  progress : Nat := 0
  deriving DecidableEq, Repr

/-- A descriptor of op 0, 1 or 2 in progress: its position, its ring slot, pages, blocks or parts folded, tiles taken of the current page and their
bytes, and the appended tokens' keys and values as FP32, by (2 * token + is-value) * heads * width + element (R285). -/
structure HornJob where
  pos : Nat
  slot : Nat
  d : HDesc
  page : Nat := 0
  tiles : Nat := 0
  buf : Memory := []
  fresh : List Word := []
  stopping : Bool := false
  deriving DecidableEq, Repr

/-- One Horn. -/
structure Horn where
  /-- Position served last, plus 1 (R273). -/
  last : Nat := 0
  /-- Posts the Horn has seen, by position (R271). -/
  seen : SMap Nat := []
  /-- Positions stopped by a pre-emption (R293, R294). -/
  stopped : List Nat := []
  /-- Positions whose first descriptor after a restore has made its append already (R293). -/
  cut : List Nat := []
  job : Option HornJob := none
  /-- The row store and the scale buffer (R269). -/
  rows : List HRow := []
  scales : Memory := []
  deriving DecidableEq, Repr

end Sys2Proof.Machine
end

