-- ==== Sys2Proof/Machine/StateHost.lean ====
section
/-! DEFINITION. The state of a host function and its two mailbox channels (R645 to R679). -/
namespace Sys2Proof.Machine

/-- A 16-byte notice (R652). -/
structure Notice where
  addr : Nat := 0
  len : Nat := 0
  tag : Nat := 0
  flags : Nat := 0
  deriving DecidableEq, Repr

/-- An occupied H2F slot (R653, R655); `doomed` when an FLR of the function came after the take (R665). -/
structure H2F where
  slot : Nat
  note : Notice
  taken : Bool := false
  doomed : Bool := false
  deriving DecidableEq, Repr

/-- A host function: configuration space bits that act on the device, BAR2 registers and channels. -/
structure Fn where
  /-- An FLR is in progress (R667). -/
  flr : Bool := false
  /-- An FLR has happened since the last edge, so live requests are cancelled at the next (R516, R667). -/
  flrEdge : Bool := false
  busMaster : Bool := false
  pasidEn : Bool := false
  atsEn : Bool := false
  /-- SR-IOV of a physical function. -/
  vfEnable : Bool := false
  numVfs : Nat := 0
  msixEn : Bool := false
  msixMask : Bool := false
  /-- Staged doorbell bytes 0 to 11 (R655). -/
  stage : Nat := 0
  h2f : List H2F := []
  f2h : List Notice := []
  cfg : Word := 0
  vec : Word := 0
  int : Word := 0
  cqBase : Nat := 0
  cqHead : Nat := 0
  cqTail : Nat := 0
  pasid : Word := 0
  /-- Vectors that have sent their message and are not re-armed (R663). -/
  disarmed : List Nat := []
  /-- MSI-X table words by 4 * vector + word, and pending vectors. -/
  msix : SMap Word := []
  pba : List Nat := []
  /-- The function's own selections of REQT_SEL and SESS_SEL, by register address (R650). -/
  sel : SMap Word := []
  /-- An Uncorrectable Internal Error is logged in its AER capability (R745). -/
  aer : Bool := false
  deriving DecidableEq, Repr

/-- The reply firmware has formed for a host command (R658). -/
structure Reply where
  fn : Nat := 0
  status : Nat := 0
  detail : Nat := 0
  addr : Nat := 0
  deriving DecidableEq, Repr

end Sys2Proof.Machine
end

