-- ==== Sys2Proof/Machine/StateMgmt.lean ====
section
/-! DEFINITION. The state of reliability (R721 to R765), security (R766 to R797), power, clocks and reset (R798 to R834),
the management chain, self-test and test access (R835 to R862). -/
namespace Sys2Proof.Machine

/-- A fault record (R722). -/
structure FaultRec where
  breath : Nat
  die : Nat
  kind : Nat
  consort : Nat := 0xFF
  unit : Nat := 0xFF
  action : Nat := 0
  detail : Nat := 0
  merged : Nat := 0
  deriving DecidableEq, Repr

/-- A fence or a withdrawal that waits in the fault queue (R740). -/
structure WaitFault where
  die : Nat
  k : Nat
  /-- The reed to fence; none withdraws the consort. -/
  reed : Option Nat
  kind : Nat
  detail : Nat := 0
  /-- It has waited in the queue, and its record says so. -/
  waited : Bool := false
  deriving DecidableEq, Repr

/-- The recovery in progress (R736, R740). -/
inductive Recov where
  | window (f : WaitFault)
  /-- A die quiesce, with the edges or recovery points passed. -/
  | quiesce (die passed : Nat)
  deriving DecidableEq, Repr

/-- A key slot that holds a key (R784 to R787). -/
structure KeySlot where
  key : Nat
  wrapId : Nat := 0
  count : Nat := 0
  deriving DecidableEq, Repr

/-- The security unit and its fuses (R766, R775, R777, R779). -/
structure Sec where
  serial : Nat := 0
  /-- SHA-384 of the owner keys, 0 when unprogrammed. -/
  owner : List Nat := [0, 0, 0, 0]
  revoke : Nat := 0
  minSvn : Nat := 0
  /-- Blown fuses of the life-cycle pairs, two bits per pair. -/
  lc : Nat := 0
  /-- A transition has been accepted and awaits a reset (R776). -/
  pendingReset : Bool := false
  slots : SMap (Option KeySlot) := []
  /-- Ends of the count blocks committed to flash, by slot (R787). -/
  ends : SMap Nat := []
  /-- A challenge has been drawn and not used; the record that is being verified answers one. -/
  fresh : Bool := false
  attempt : Bool := false
  /-- A record is being verified; a tamper event or a transition has come meanwhile. -/
  verifying : Bool := false
  spoiled : Bool := false
  /-- Slot 0 is empty until the next boot, after a tamper event or an unlock (R784). -/
  noKey : Bool := false
  /-- Debug level that an accepted record has opened, 0 for none (R780). -/
  opened : Nat := 0
  /-- The secure monitor is unavailable after a warm reset (R818). -/
  monOff : Bool := false
  /-- An accepted record waits for the wipe of both bellows: its level (R780). -/
  unlocking : Option Nat := none
  /-- Fife cores in secure mode: 8 * bellows + core (R774). -/
  secure : List Nat := []
  deriving DecidableEq, Repr

/-- Power state of the device (R802, R842). -/
inductive PowerState where
  | on | enteringRest | rest | enteringOff | off | booting
  deriving DecidableEq, Repr

/-- Power, clocks and reset. -/
structure Pwr where
  state : PowerState := .booting
  /-- A wake arrived during an entry (R806); the state a wake came from. -/
  wakePend : Bool := false
  wakeFrom : PowerState := .off
  /-- PWR_EN_CORE and PWR_EN_NAND are asserted, and PG_CORE is high. -/
  en : Bool := true
  good : Bool := true
  /-- PWR_FAIL_N is low. -/
  fail : Bool := false
  /-- A device reset is wanted when both drones are `HALTED` (R801). -/
  failReset : Bool := false
  /-- Edges in a row below the cap less hysteresis (R808), and consorts offered fewer (R809). -/
  below : Nat := 0
  fewer : Nat := 0
  /-- The ceiling that the consort clocks obey: the one that the last edge left (R63, R808). -/
  capNow : Nat := 12
  /-- Chanters and other dies under a thermal throttle (R810). -/
  hot : List Nat := []
  /-- A bellows or drone was hot: the ceiling falls at the next edge. -/
  hubHot : Bool := false
  /-- Planned points that wait for the regulator, by 8 * chanter + consort: clock code and mV (R799). -/
  raise : SMap (Option (Nat × Nat)) := []
  /-- Clock code and mV in force for a consort, by 8 * chanter + consort (R63, R799), and consorts that an alarm lowers at
  the next edge (R752). -/
  opp : SMap (Nat × Nat) := []
  lower : List Nat := []
  /-- The regulator of a chanter has acknowledged the raise. -/
  acked : List Nat := []
  /-- The voltage in mV that a chanter requests of its regulator (R799). -/
  avs : SMap Nat := []
  /-- Straps BOOT_WIDTH and IO_SLEW as sampled (R900). -/
  straps : Nat := 0
  /-- Stage 2 has been loaded, or boot has halted (R770, R825). -/
  booted : Bool := false
  halted : Bool := false
  /-- Chanters whose DRAM the current boot clears (R817), and those that failed its tests (R739). -/
  clearing : List Nat := [0, 1, 2, 3]
  failed : List Nat := []
  /-- Bellows whose functions are told of a warm reset when `ready` is set (event 0x07, R672). -/
  announce : List Nat := []
  deriving DecidableEq, Repr

/-- The I3C target and command engine (R835 to R844), and the TAP (R853 to R856). -/
structure Mgmt where
  /-- Dynamic address, none when the device holds none. -/
  addr : Option Nat := none
  left : Bool := false
  leaving : Bool := false
  mwl : Nat := 256
  mrl : Nat := 256
  /-- Target events that the controller allows: IBI, Hot-Join. -/
  ibiOn : Bool := false
  hjOn : Bool := true
  /-- A Hot-Join request has not been acknowledged; the wait in ms before the next one (R837). -/
  hjPend : Bool := false
  hjWait : Nat := 0
  /-- The reply frame that has not been read (R840). -/
  reply : Option (List Byte) := none
  /-- Events whose IBI is pending, by code. -/
  ibi : List Nat := []
  /-- The breath of the last IBI of a fault record, plus 1 (R844). -/
  ibiBreath : Nat := 0
  /-- Instruction register of the TAP, and whether the last test instruction had no effect (R853, R855). -/
  ir : Nat := 0x02
  /-- Segment-insertion bits of the IEEE 1687 network, one per die (R856). -/
  sibs : Nat := 0
  noEffect : Bool := false
  deriving DecidableEq, Repr

/-- A self-test run in progress on a die (R845, R846). -/
structure BistRun where
  scope : Nat
  consort : Nat := 0
  patterns : Nat := 16
  source : Nat := 0
  /-- A periodic spare test or a boot test (R734, R849). -/
  periodic : Bool := false
  deriving DecidableEq, Repr

/-- The row tracker of a bank: rows and their corrected words, oldest first (R725). -/
abbrev Tracker := List (Nat × Nat)

end Sys2Proof.Machine
end

