-- ==== Sys2Proof/Machine/StateObj.lean ====
section
/-! DEFINITION. Objects of the runtime (R234 to R243) and model swaps (R248 to R252). -/
namespace Sys2Proof.Machine

/-- An allocated object. Its chanter mask, in `flags`, loses a chanter that goes offline (R243). -/
structure Obj where
  size : Nat := 0
  /-- The allocation flag word (R234). -/
  flags : Nat := 0
  part : Nat := 0
  /-- The allocating function (R672). -/
  fn : Nat := 0
  /-- Device address, or none while it is parked or in flash alone (R242). -/
  addr : Option Nat := none
  parked : Bool := false
  /-- Serial and length of the sealed bytes of a `SECURE` object while it is parked (R238, R788). -/
  serial : Option Nat := none
  sealLen : Nat := 0
  lost : Bool := false
  /-- Words of a parked object's contents that were uncorrectable when they were read, by byte offset (R211). -/
  bad : List Nat := []
  /-- Contents of the flash copy of a parked or flash-backed object. -/
  data : Memory := []
  /-- Where the private pages of a `WARM` session image lie, layer by layer (R536). -/
  pages : List Nat := []
  /-- Breath in which it was last bound (R240, R241). -/
  lastBound : Nat := 0
  deriving DecidableEq, Repr

/-- A swap in progress (R248). -/
structure Swap where
  model : Nat
  fn : Nat
  part : Nat
  variant : Nat
  /-- The object that holds the copies. -/
  copy : Nat := 0
  /-- Chanters the swap still writes to. -/
  mask : Nat
  /-- Chanter-local offset of the copies, and tiles of the variant. -/
  base : Nat
  tiles : Nat
  /-- Tiles written, by 4 * tile + chanter. -/
  written : SMap Bool := []
  /-- The breath past which it is abandoned (R252). -/
  deadline : Nat
  deriving DecidableEq, Repr

/-- A model's copies: its state on each chanter (R249; 0 ABSENT, 1 LOADING, 2 READY, 3 UNLOADING), the objects that hold them, and
where the last one lies. -/
structure Model where
  st : SMap Nat := []
  copies : List Nat := []
  base : Nat := 0
  tiles : Nat := 0
  part : Nat := 0
  /-- Predicted ns of its shortest phrase with one group and one token, as it is registered; 0 while it is not (R56). -/
  phraseNs : Nat := 0
  deriving DecidableEq, Repr

end Sys2Proof.Machine
end

