-- ==== Sys2Proof/Machine/StateReed.lean ====
section
/-! DEFINITION. The state of one physical reed (R75, R116, R117) and of its two tongue engines (R94 to R101, R107), and
the step descriptors and steps of the breath (R47, R58, R61, R62). -/
namespace Sys2Proof.Machine

/-- A tile of a tongue engine that has been issued and is not yet released (R94, R95). -/
structure Tile where
  /-- Device address read, and the physical address it had when the tile was issued (R94). -/
  addr : Nat
  phys : Nat
  /-- Offset of its slot in reed SRAM (R140). -/
  slot : Nat
  /-- Descriptor offset, row and tile within the row (the consumption point while the tile is the oldest). -/
  desc : Nat
  row : Nat
  idx : Nat
  /-- Number of the tile in its list, counted from 0 at TGO (R140). -/
  num : Nat
  /-- Write tiles of the list that lie before it. -/
  wnum : Nat
  landed : Bool
  poison : Bool
  /-- The final tile of a descriptor with `notify`. -/
  notify : Bool
  deriving DecidableEq, Repr

/-- A decoded tongue descriptor (R96); `pages` are the page addresses of a page-list read (R262). -/
structure TDesc where
  addr : Nat
  inner : Nat
  outer : Nat
  innerStride : Nat
  outerStride : Nat
  kind : Nat
  last : Bool
  notify : Bool
  aux : Nat
  pages : List Nat
  deriving DecidableEq, Repr

/-- A write tile issued and not yet in memory (kind 2, R96). -/
structure WTile where
  src : Nat
  /-- Device address written, and the physical address it had when the tile was issued. -/
  addr : Nat
  phys : Nat
  /-- Number of the write tile in its list (R98). -/
  num : Nat
  /-- Whether this is the final tile of a descriptor with `notify`. -/
  notify : Bool
  deriving DecidableEq, Repr

/-- A tongue engine (R94, R107, R108, R139). -/
structure Engine where
  enable : Bool := false
  /-- Queue slots and run-ahead horizon in force (R107). -/
  slots : Nat := 16
  look : Nat := 64
  /-- A control write that waits until no read is outstanding (R107). -/
  cfgPend : Option (Nat × Nat) := none
  /-- Stopped under R100 or R102, and the code of R110. -/
  err : Nat := 0
  /-- A list has been started and has not ended. -/
  active : Bool := false
  /-- The list counts as ended after a flush (R107). -/
  flushed : Bool := false
  /-- Reed SRAM offset given to TGO. -/
  list : Nat := 0
  /-- The descriptor being walked, read once, and the descriptors decoded after it (R94, R97). -/
  cur : Option TDesc := none
  ahead : List TDesc := []
  /-- The next tile to issue: descriptor offset, row, tile within the row. -/
  desc : Nat := 0
  row : Nat := 0
  idx : Nat := 0
  /-- The last descriptor of the list has been issued whole. -/
  done : Bool := false
  /-- Number of the next read tile (R140). -/
  num : Nat := 0
  tiles : List Tile := []
  writes : List WTile := []
  /-- Write tiles permitted and not issued, and write tiles of the list already issued (R107, R139). -/
  permits : Nat := 0
  issuedW : Nat := 0
  /-- Write tiles of the list that lie before the next tile to issue. -/
  wnum : Nat := 0
  /-- Columns consumed of the current tile row (R130). -/
  col : Nat := 0
  /-- Consumption point at the first column of the 8-row block in progress: descriptor, row, tile, number, column (R153). -/
  blk : Option (Nat × Nat × Nat × Nat × Nat) := none
  deriving DecidableEq, Repr

/-- What a reed is doing (R115, R147, R150). -/
inductive Run where
  /-- No step. -/
  | idle
  | running
  /-- The reed executed END. -/
  | ended
  /-- Stopped on an exception. -/
  | stopped
  /-- Pre-empted, its state saved or being saved. -/
  | preempted
  deriving DecidableEq, Repr

/-- What a running reed waits for. -/
inductive Wait where
  | none
  /-- TWAIT, or an array waiting on an empty queue (R95). -/
  | tile
  | fence
  /-- BAR over a scope (R139, R143). -/
  | bar (scope : Nat)
  /-- A store held by R142. -/
  | store
  /-- An access to a bank that is being handed over to the reed (R200). -/
  | bank
  deriving DecidableEq, Repr

/-- One physical reed. -/
structure Reed where
  run : Run := .idle
  wait : Wait := .none
  /-- The step the reed runs: its serial number in `State.steps`. -/
  step : Nat := 0
  /-- The partition recorded at the last dispatch; none after a reset (R199). -/
  part : Option Nat := none
  /-- Scalar registers, vector lanes by 32 * register + lane, masks (R116). -/
  s : SMap DWord := []
  v : SMap Word := []
  m : SMap Word := []
  /-- Control registers (R117). -/
  mode : DWord := 0
  tcfg : DWord := 0
  srSeed : DWord := 0
  srStream : DWord := 0
  srBase : DWord := 0
  prog : DWord := 0
  role : DWord := 0
  statSrc : DWord := 0
  statStride : DWord := 0
  /-- Program counter in bytes (R114). -/
  pc : Nat := 0
  /-- The instruction buffer and the number of its instructions (R111, R112). -/
  ibuf : List DWord := []
  /-- Accumulator entries by 8192 * array + 8 * row + column (R75, R89). -/
  acc : SMap Word := []
  /-- The 8-row block that a TSWEEP has begun and not committed: the accumulators with its rows so far, and their number
  (R129, R153). -/
  held : Option (SMap Word) := none
  sub : Nat := 0
  /-- The exception recorded in the image that was restored, until the reed issues an instruction: code, detail (R607). -/
  redo : Option (Nat × Nat) := none
  /-- Stationary registers by 64 * array + 8 * k + c, raw (R79, R128). -/
  stat : SMap Nat := []
  /-- Barriers of each scope that the reed has passed (R143). -/
  bars : SMap Nat := []
  w : Engine := {}
  a : Engine := {}
  deriving DecidableEq, Repr

/-- A step descriptor (R47). -/
structure StepDesc where
  stepId : Nat := 0
  group : Nat := 0
  die : Nat := 0
  flags : Nat := 0
  mask : Nat := 0
  model : Nat := 0
  phrase : Nat := 0
  part : Nat := 0
  work : Nat := 0
  predNs : Nat := 0
  predDram : Nat := 0
  /-- A reserved bit of the descriptor is set. -/
  rsvd : Bool := false
  deriving DecidableEq, Repr

/-- A link of a chain step (R624): its slots, whether it is a reed program, whether its own-chanter writes are broadcast, and
its work. -/
structure Link where
  mask : Nat
  prog : Bool
  bcast : Bool
  work : Nat
  deriving DecidableEq, Repr

/-- A step that is held or running (R45, R46, R58, R61 to R64). -/
structure Step where
  uid : Nat
  desc : StepDesc
  /-- Breath number of the dispatch edge; of the edge at which it was held while held. -/
  breath : Nat
  held : Bool := false
  /-- The step whose retirement it waits for (R46). -/
  dep : Option Nat := none
  overrun : Bool := false
  overBreaths : Nat := 0
  deferred : Bool := false
  fault : Bool := false
  preempted : Bool := false
  throttled : Bool := false
  late : Bool := false
  /-- The last edge has been passed with its outputs still to become visible (R46). -/
  retired : Bool := false
  /-- Object ids the step names (R240). -/
  objs : List Nat := []
  /-- Requests of the step, with whether it is a decode pass of the request (R493, R512). -/
  reqs : List (Nat × Bool) := []
  /-- First failure: source of R515, code, detail (R512). -/
  cause : Option (Nat × Nat × Nat) := none
  /-- Bytes of its programs that its reeds have copied: they count as its DRAM traffic (R112). -/
  progBytes : Nat := 0
  /-- Appends of the step to requests' KV: request, layer, tokens the layer holds after it (R292). -/
  appends : List (Nat × Nat × Nat) := []
  /-- It applied table updates or wrote side entries (R477). -/
  updates : Bool := false
  /-- Pre-emption: the request has been forwarded to it, by the write on a die; consorts that the save list of its die
  names (R591 to R595). -/
  stopping : Bool := false
  preBy : Nat := 0
  saveMask : Nat := 0
  /-- Code of a failed save (R596, R611). -/
  saveErr : Nat := 0
  /-- It resumes pre-empted work (R603), of this step; the descriptors that a pre-empted unit step had completed (R604). -/
  resume : Bool := false
  resumes : Option Nat := none
  progress : Nat := 0
  /-- Device addresses of the images that its pre-emption has saved (R594, R596). -/
  images : List Nat := []
  /-- A resume step of this pre-empted step has retired clean (R595), or its images are lost (R596). -/
  completed : Bool := false
  /-- Its group was resumed in part (R606). -/
  partialGrp : Bool := false
  /-- Links of a chain step, and the link in progress (R624, R625). -/
  chain : List Link := []
  link : Nat := 0
  deriving DecidableEq, Repr

/-- An accepted plan (R48, R49). -/
structure Plan where
  breath : Nat
  count : Nat
  late : Bool
  /-- What its steps name (R240, R512). -/
  uses : List StepUse := []
  /-- Consorts, by 8 * chanter + consort, that were `WITHDRAWN` or on an offline chanter at the commit (R50). -/
  gone : List Nat := []
  /-- Partitions of which the planner has moved request groups to the next breath (R55, R507). -/
  moved : List Nat := []
  deriving DecidableEq, Repr

/-- The breath generator of bellows-A (R34 to R42, R48, R49). -/
structure Breath where
  number : Nat := 0
  /-- Period of the current breath in microseconds. -/
  period : Nat := 500
  /-- Written periods and the breaths at whose edges they take effect (R36): (breath, period). -/
  pendPeriod : List (Nat × Nat) := []
  /-- High half of the number latched per die (R40). -/
  hi : SMap Word := []
  /-- Dies that missed the marker at the last edge (R42). -/
  missed : List Nat := []
  /-- Dies that have missed the marker of the current edge. -/
  missedNow : List Nat := []
  /-- The first edge after reset has occurred (R38). -/
  plans : List Plan := []
  /-- Serial number of the next step. -/
  nextUid : Nat := 1
  /-- Step records that the planner has read, of the last 64 breaths (R60): chanter, breath of retirement, finish_ns, pred_ns. -/
  recs : List (Nat × Nat × Nat × Nat) := []
  /-- Breath in which the Serpents' use counts were last halved (R321). -/
  decayed : Nat := 0
  deriving DecidableEq, Repr

/-- A bank handover in progress (R200, R202, R207). -/
inductive Handover where
  /-- To an owner, clearing the bank or not. -/
  | toOwner (owner : Nat) (clears : Bool)
  /-- The secure map added the bank. -/
  | toSecure
  deriving DecidableEq, Repr

end Sys2Proof.Machine
end

