-- ==== Sys2Proof/Machine/StateReq.lean ====
section
/-! DEFINITION. The state of requests (R486 to R526), sessions (R527 to R569) and shared prefixes (R541). -/
namespace Sys2Proof.Machine

/-- A command accepted for a request, that an edge applies (R494, R518). -/
inductive ReqCmdKind where
  | cancel | pause | resume
  /-- Bytes 0 to 15 of the descriptor layout (R517). -/
  | update (block : Nat)
  deriving DecidableEq, Repr

/-- What a retired step did to a request (R494, R510, R512): an end reason, or a recovery where it is 0. -/
structure Outcome where
  uid : Nat
  reason : Nat
  src : Nat := 0
  code : Nat := 0
  deriving DecidableEq, Repr

/-- A request table entry (R491), and the request's working storage outside the entry (R488, R515). -/
structure Req where
  gen : Nat := 0
  state : Nat := 0
  resume : Nat := 0
  prio : Nat := 0
  /-- Byte 6 of the entry. -/
  flags : Nat := 0
  endReason : Nat := 0
  model : Nat := 0
  fallback : Nat := 0
  part : Nat := 0
  retries : Nat := 0
  byHost : Bool := false
  byShed : Bool := false
  byBlocked : Bool := false
  fn : Nat := 0
  length : Nat := 0
  /-- The request is to be rerun alone, after a failing fault of a step that it shared (R513). -/
  solo : Bool := false
  generated : Nat := 0
  maxNew : Nat := 0
  kvRoot : Nat := 0
  /-- Tokens to prefill before the pages that a revive has written count, and the 128 bytes of the KV map from then on; zeros for
  none (R553). -/
  kept : Nat × Nat := (0, 0)
  deadline : Nat := 0
  ttft : Nat := 0
  tbt : Nat := 0
  tbtMax : Nat := 0
  tbtMiss : Nat := 0
  arrival : Nat := 0
  firstToken : Nat := 0
  lastToken : Nat := 0
  etaToken : Nat := 0
  etaDone : Nat := 0
  sessionId : Nat := 0
  fbToken : Nat := 0
  paused : Nat := 0
  /-- Working storage: the descriptor's seed and addresses, and the command's tag. -/
  seed : Nat := 0
  work : Nat := 0
  compl : Nat := 0
  tag : Nat := 0
  /-- Completion record data (R515). -/
  prompt : Nat := 0
  pausedEver : Bool := false
  recoveries : Nat := 0
  errSrc : Nat := 0
  errCode : Nat := 0
  endBreath : Nat := 0
  /-- Breath period at the end in µs. -/
  endPeriod : Nat := 0
  lateEver : Bool := false
  /-- Dues predicted and dues found missed: bits 0 TTFT, 1 TBT, 2 deadline (R498, R499). -/
  predicted : Nat := 0
  found : Nat := 0
  /-- The due breath of a TBT due found or predicted. -/
  tbtDue : Nat := 0
  /-- The descriptor of the request's final chunk was dispatched in this breath. -/
  finalBreath : Option Nat := none
  outcomes : List Outcome := []
  cmds : List (HCmd × ReqCmdKind) := []
  /-- The Bell has written the final chunk, or has failed to (R495). -/
  finalDone : Bool := false
  recDone : Bool := false
  /-- The Bell keeps a chunk of it that did not fit (R435, R506). -/
  heldChunk : Bool := false
  /-- Its turn has started (R546). -/
  started : Bool := false
  /-- A token has been released to the host (R532). -/
  released : Bool := false
  /-- Run 2 of a comparison: nothing of it goes to the host (R484). -/
  quiet : Bool := false
  /-- Shared prefix that its page lists name (R542). -/
  pfx : Option Nat := none
  /-- Tokens that each layer of its KV holds, of steps that retired without `fault` (R292). -/
  grown : SMap Nat := []
  deriving DecidableEq, Repr

/-- An event of the deadline monitor (R500, R524). -/
structure ReqEvent where
  id : Nat
  kind : Nat
  due : Nat
  deriving DecidableEq, Repr

/-- A session (R530), and what its committed image says. -/
structure Sess where
  gen : Nat := 0
  state : Nat := 0
  dest : Nat := 0
  rolledBack : Bool := false
  damaged : Bool := false
  mode : Nat := 0
  part : Nat := 0
  fn : Nat := 0
  req : Nat := 0
  warm : Nat := 0
  cold : Nat := 0
  tokens : Nat := 0
  turns : Nat := 0
  imageKib : Nat := 0
  model : Nat := 0
  parked : Nat := 0
  /-- Mode and destination from the next park (R535). -/
  nextMode : Nat := 0
  nextDest : Nat := 0
  /-- Turns waiting, oldest first (R544). -/
  queue : List Nat := []
  /-- Prefix that the committed image names, base of a delta image, and mode of the committed image (R540, R542). -/
  pfx : Option Nat := none
  base : Option Nat := none
  imgMode : Nat := 0
  /-- Chanter of a `WARM` image. -/
  chanter : Nat := 0
  /-- Code with which turns of a damaged session fail (R554). -/
  damage : Nat := 0
  deriving DecidableEq, Repr

/-- A session operation (R562). -/
inductive SOpKind where
  | park
  | revive
  /-- To a destination, or to a chanter's park area. -/
  | move (dest chanter : Nat)
  | exportTo (addr : Nat) (toFlash handoff : Bool)
  deriving DecidableEq, Repr

/-- An operation that waits for an inflight slot of its home bellows, or runs. -/
structure SessOp where
  slot : Nat
  kind : SOpKind
  running : Bool := false
  /-- A move whose copy is committed: the session is `PARKED` at the next edge (R558). -/
  done : Bool := false
  /-- The command to answer, where a command asked for it. -/
  cmd : Option HCmd := none
  deriving DecidableEq, Repr

/-- A shared prefix (R541). -/
structure Pfx where
  model : Nat
  ids : List Nat
  obj : Nat
  part : Nat
  deriving DecidableEq, Repr

/-- What the other bellows asks of a session's home (R528, R544): a turn with its entry and the generation the entry had
before, or a command. -/
inductive FwdOp where
  | turn (i oldGen : Nat)
  | set
  | delete
  | query
  | move
  | exportTo
  deriving DecidableEq, Repr

/-- A command on its way over the hub link to the home bellows (R528). -/
structure Fwd where
  home : Nat
  cmd : HCmd
  op : FwdOp
  deriving DecidableEq, Repr

/-- What a compared run has produced (R484, R485): its tokens, each with the bytes of text released up to it; its text; the versions
that its steps have bound: tokens before, kind, id, version, side-list mark; the tokens before a switch to the fallback or a cancel; and
whether it has failed. -/
structure RunLog where
  toks : List (Nat × Nat) := []
  text : List Byte := []
  binds : List (Nat × Nat × Nat × Nat × Nat) := []
  cut : Option Nat := none
  failed : Bool := false
  deriving DecidableEq, Repr

/-- A comparison in progress (R483, R484): its command, the request ids of its runs (0 for none yet), whether it was refused, and
what each run has produced. -/
structure Repro where
  cmd : HCmd
  desc : List Byte := []
  work : WorkInfo := {}
  run1 : Nat := 0
  run2 : Nat := 0
  refused : Bool := false
  /-- Run 2 was refused as a request. -/
  failed : Bool := false
  /-- What run 1 and run 2 have produced. -/
  log1 : RunLog := {}
  log2 : RunLog := {}
  deriving DecidableEq, Repr

end Sys2Proof.Machine
end

