-- ==== Sys2Proof/Machine/StateUnit.lean ====
section
/-! DEFINITION. The state of the units: version directories (R327 to R330, R365, R405), the descriptor list each unit runs,
the Serpent's cache, pool and migrations (R320 to R326, R339) and the Panpipe's side lists (R359 to R363). -/
namespace Sys2Proof.Machine

/-- State of a version slot; an `EMPTY` slot is not listed (R327). -/
inductive VState where
  | pending | current | retiring | lost
  deriving DecidableEq, Repr

/-- A version slot of a directory (R327 to R329). -/
structure VSlot where
  id : Nat
  st : VState
  version : Nat
  /-- The version descriptor as it was published, a little-endian number. -/
  desc : Nat
  /-- Breath at whose edge it takes effect. -/
  target : Nat
  /-- Steps bound to it, with the side-list mark each bound (R329, R362). -/
  bound : List (Nat × Nat) := []
  /-- Quarters or parts whose host has changed, each with the flash object that holds its bytes and the place of its start there
  (R331, R366). -/
  rehost : List (Nat × Nat × Nat) := []
  deriving DecidableEq, Repr

/-- The directory of one unit and its retire reports, oldest first (R329, R337). -/
structure Dir where
  slots : List VSlot := []
  retire : List Word := []
  deriving DecidableEq, Repr

/-- A version published by a host command and not yet reported retired by every directory (R330). -/
structure Pub where
  kind : Nat
  id : Nat
  version : Nat
  fn : Nat
  /-- Dies that have not reported it retired. -/
  left : List Nat
  deriving DecidableEq, Repr

/-- The descriptor list a unit runs for a step. -/
structure URun where
  uid : Nat
  part : Nat
  list : Nat
  /-- Index of the next descriptor. -/
  idx : Nat := 0
  ended : Bool := false
  /-- A pre-emption keeps the unit from starting the next descriptor (R398, R446). -/
  hold : Bool := false
  deriving DecidableEq, Repr

/-- A cached row quarter of a Serpent (R320, R321). -/
structure CacheRow where
  region : Nat
  set : Nat
  table : Nat
  version : Nat
  quarter : Nat
  row : Nat
  data : List Byte
  use : Nat
  /-- When the way was filled. -/
  order : Nat
  deriving DecidableEq, Repr

/-- Where a migrating row goes (R324). -/
inductive Dest where
  /-- A way of a set of a cache region. -/
  | cache (region set : Nat)
  /-- A row-map entry at a device address and a pool slot. -/
  | pool (entry slot : Nat)
  deriving DecidableEq, Repr

/-- A migration tag: the copy taken when the migration started, and the updates buffered since (R324). -/
structure Tag where
  table : Nat
  version : Nat
  quarter : Nat
  row : Nat
  dest : Dest
  data : List Byte
  /-- Partition for which the copy moves. -/
  part : Nat
  /-- Source address, or none for a row read from flash. -/
  src : Option Nat
  upd : List (Bool × List Byte) := []
  deriving DecidableEq, Repr

/-- A Serpent descriptor in progress: indices done, row quarters resolved (by index, then hosted quarter), and the rows that
flash has delivered (R308, R325). -/
structure SJob where
  pos : Nat := 0
  rows : List (List Byte) := []
  fetched : List ((Nat × Nat) × List Byte) := []
  /-- The flash read it waits for: (quarter, row). -/
  need : Option (Nat × Nat) := none
  /-- It waits for a free entry of the migration update buffer. -/
  held : Bool := false
  deriving DecidableEq, Repr

/-- One Serpent. -/
structure Serpent where
  cache : List CacheRow := []
  tags : List Tag := []
  /-- Use count and fill order of a row-map entry, by its device address (R321). -/
  pool : SMap (Nat × Nat) := []
  /-- Fills so far. -/
  order : Nat := 0
  /-- Region words in force, by word, and regions written since the last edge (R339). -/
  creg : SMap Word := []
  dirty : List Nat := []
  job : Option SJob := none
  /-- Accesses of this breath: (table, version, step, update) (R318). -/
  seen : List (Nat × Nat × Nat × Bool) := []
  deriving DecidableEq, Repr

/-- One index at a Panpipe (R359 to R363). -/
structure PIndex where
  /-- Highest sequence number assigned. -/
  next : Nat := 0
  /-- Highest number assigned by a step that has retired, and numbers assigned by steps that have not. -/
  mark : Nat := 0
  unretired : List (Nat × Nat) := []
  /-- Sequence numbers in each part's ring, oldest first, with their ring position. -/
  rings : SMap (List (Nat × Nat)) := []
  /-- Entries ever placed in each part's ring. -/
  tails : SMap Nat := []
  deriving DecidableEq, Repr

/-- One Panpipe. -/
structure Panpipe where
  idx : SMap PIndex := []
  /-- Insert or delete steps of this breath, by index (R363). -/
  seen : List (Nat × Nat) := []
  /-- Entry-record tiles that flash has delivered for the descriptor in progress: query, object, tile; and the one awaited. -/
  tiles : List ((Nat × Nat × Nat) × List Byte) := []
  need : Option (Nat × Nat × Nat) := none
  deriving DecidableEq, Repr

end Sys2Proof.Machine
end

