-- ==== Sys2Proof/Machine/State.lean ====
section
/-! DEFINITION. The state of the block: every register, buffer, queue, counter, mode and pin the spec gives it, as plain
data; the two reasons to stop; the state after reset; and the accessors of one reed. -/
namespace Sys2Proof.Machine

/-- The block reports every error in its own registers and records, so no command ends in a fault. The constructor is
kept for a sparse map that breaks its canonical form, which no command builds; nothing raises it (safe). -/
inductive Fault where
  | brokenForm
  deriving DecidableEq, Repr

/-- Commands without a meaning. -/
inductive Refusal where
  /-- A command of the table that the model gives no meaning yet: raised by the dispatcher alone (safe). -/
  | notModelled (mnemonic : String)
  deriving DecidableEq, Repr

/-- The state of the PBU-412. -/
structure State where
  /-- Commands waiting, first in, first out: the model's own field. -/
  pending : List Instr := []
  /-- Register words, by register address, where they differ from their reset value (R863, R872). A register selected
  by an index register stands at address + 2^26 * (index + 1). -/
  regs : SMap Word := []
  /-- 48-bit counters, by the register address of their low word (R746, R877). -/
  cnt : SMap Nat := []
  /-- High words latched by a read of the low word (R746). -/
  cntHi : SMap Word := []
  /-- SRAM and DRAM, by physical device address (R189, R224, R231). -/
  mem : Memory := []
  /-- Bits in error, data in 63..0 and check bits in 71..64, by physical word (R209 to R213). -/
  flip : SMap Nat := []
  /-- Host memory as the device has written it: the model's own field. -/
  hostMem : Memory := []
  /-- The data the last read returned to its requester: the model's own field. -/
  readData : Nat := 0
  /-- Serial number of the next free value: the model's own field. -/
  freeCtr : Nat := 0
  breath : Breath := {}
  /-- Steps held or running (R45, R62). -/
  steps : List Step := []
  /-- Physical reeds by 136 * chanter + 17 * consort + index. -/
  reeds : SMap Reed := []
  /-- Windway links that are down, by the row order of R22 (R720, R742). -/
  linksDown : List Nat := []
  /-- Dies in reset (R866). -/
  inReset : List Nat := []
  /-- Handovers in progress, by the address of the bank's register (R200). -/
  handover : SMap (Option Handover) := []
  /-- Requester that port 1 of a bank granted last, plus 1 (R194). -/
  portLast : SMap Nat := []
  /-- Rows a scrubber has left to read, by the ID register address of its block (R214). -/
  scrubLeft : SMap Nat := []
  /-- Breath at which a memory's scrubber last started a pass, by the address of its page (R214). -/
  scrubSeen : SMap (Option Nat) := []
  /-- Host functions, 512 * port + n (R645). -/
  fns : SMap Fn := []
  /-- Function a bellows's mailbox served last, plus 1, by die slot (R657). -/
  mbxLast : SMap Nat := []
  /-- Abort records of the two bellows, oldest first (R665, R676). -/
  abortsA : List Word := []
  abortsB : List Word := []
  /-- Notices firmware keeps until a slot frees, with their function (R662). -/
  fwNotices : List (Nat × Notice) := []
  /-- MSI-X messages sent, function and vector, newest last: the model's own record of outputs (R663). -/
  msixSent : List (Nat × Nat) := []
  /-- The reply firmware formed for the last host command: the model's own field (R658). -/
  reply : Reply := {}
  /-- A bellows whose firmware restarted and has not set `ready` again: notices aborted plus 1 (R664, R672). -/
  restarted : SMap Nat := []
  /-- Objects by object id (R234). -/
  objs : SMap (Option Obj) := []
  /-- Swaps in progress (R248). -/
  swaps : List Swap := []
  /-- Models by model id (R249). -/
  models : SMap Model := []
  /-- Horns by 8 * chanter + consort (R269). -/
  horns : SMap Horn := []
  /-- Version directories by 8 * kind + die: kind 0 table, 1 index, 2 vocabulary, 3 grammar (R327, R365, R405). -/
  dirs : SMap Dir := []
  /-- Versions published by host commands (R330). -/
  pubs : List Pub := []
  /-- Descriptor lists in progress by 16 * die + step slot (R45). -/
  runs : SMap (Option URun) := []
  serps : SMap Serpent := []
  panps : SMap Panpipe := []
  /-- Request table entries by device-wide index (R486, R491). -/
  reqs : SMap Req := []
  /-- Monitor events of the two bellows, oldest first, by die slot (R500). -/
  reqEvents : SMap (List ReqEvent) := []
  /-- Edges that a partition's requests on a bellows have been clear, by 64 * die + partition (R507). -/
  shedClear : SMap Nat := []
  /-- Replies formed at the last edge, oldest first: the model's own field (R518). -/
  edgeReplies : List Reply := []
  /-- Sessions by home bellows * 2^23 + slot (R527). -/
  sess : SMap Sess := []
  /-- Session operations in the order they were accepted (R562). -/
  sessOps : List SessOp := []
  /-- Lost session ids by die slot of their home, oldest first (R566). -/
  sessLost : SMap (List Nat) := []
  pfxs : SMap (Option Pfx) := []
  /-- Session commands and turns on their way to the other bellows, oldest first (R528). -/
  fwds : List Fwd := []
  /-- Comparisons in progress (R483). -/
  repros : List Repro := []
  /-- Partition that a bucket's resource granted last, plus 1, by 16 * die + local bucket (R582). -/
  bktLast : SMap Nat := []
  /-- Drones by die slot, and completions of flash requests, newest last: tag, status, units never written (R686, R687). -/
  drones : SMap Drone := []
  flashDone : List (Nat × Nat × Nat) := []
  /-- Fault records, oldest first (R723); the recovery in progress and the faults that wait for it (R740). -/
  faults : List FaultRec := []
  recov : Option Recov := none
  waitFaults : List WaitFault := []
  /-- Row trackers and spare rows used, by bank and sub-bank (R724, R725), banks withdrawn (R727). -/
  trackers : SMap Tracker := []
  spareRows : SMap Nat := []
  withdrawnBanks : List Nat := []
  /-- Breaths of the uncorrectable words of each reed or unit, by its ID register address (R721). -/
  ueSeen : SMap (List Nat) := []
  /-- Soft repairs made in each DRAM bank of a stack, and granules withheld (R729). -/
  dramSpare : SMap Nat := []
  withheld : List Nat := []
  /-- What the health record keeps (R728). -/
  health : List FaultRec := []
  /-- Ageing values in the health record, by the address of their register (R728, R750). -/
  healthAge : SMap Nat := []
  /-- Last delay of each path-delay monitor, by 64 * die + monitor (R749). -/
  monDelay : SMap Nat := []
  /-- Fife cores fenced, by die slot and core (R743). -/
  coresOut : List (Nat × Nat) := []
  /-- Retrains of each link: breaths (R720); and of each link: failed replays of the flit in hand, replays in this breath
  and in the last one (R720, R886). -/
  retrains : SMap (List Nat) := []
  linkReplay : SMap (Nat × Nat × Nat) := []
  sec : Sec := {}
  pwr : Pwr := {}
  mgmt : Mgmt := {}
  bist : SMap (Option BistRun) := []
  /-- Result of the last spare test of each consort: passed (R852). -/
  spareOk : SMap Bool := []
  deriving DecidableEq, Repr

/-- The machine right after power-on reset: every field at its reset value. -/
def State.reset : State := {}

/-- A reed that has done nothing since reset. -/
def Reed.blank (_ : Nat) : Reed := {}

/-- Number of a physical reed (R870: instance 17k + r of its chanter). -/
def reedNo (x : ReedRef) : Nat := 136 * x.die + 17 * x.k + x.r

/-- The state of a reed. -/
def State.reed (s : State) (x : ReedRef) : Reed := SMap.get Reed.blank s.reeds (reedNo x)

/-- Replace the state of a reed. -/
def State.setReed (s : State) (x : ReedRef) (r : Reed) : State :=
  { s with reeds := SMap.set Reed.blank s.reeds (reedNo x) r }

end Sys2Proof.Machine
end

