-- ==== Sys2Proof/Machine/Ops.lean ====
section
/-! DEFINITION. The named operations over registers, counters, interrupts, error records, the address map and memory. -/
namespace Sys2Proof.Machine

/-- The outcome of one step of the block. -/
abbrev Res := Host.Outcome State Fault Refusal

/-! ### Registers (R863, R872) -/

/-- The key of a register behind an index register (PART_SEL and its like). -/
def bank (a idx : Nat) : Nat := a + (idx + 1) * 2 ^ 26

/-- The stored word of a register. -/
def State.reg (s : State) (a : Nat) : Word := SMap.get regReset s.regs a

/-- Store a register word. -/
def State.setReg (s : State) (a : Nat) (w : Word) : State := { s with regs := SMap.set regReset s.regs a w }

/-- A field of a register, as a number. -/
def State.fld (s : State) (a hi lo : Nat) : Nat := fieldW (s.reg a) hi lo

/-- Replace a field of a register. -/
def State.setFld (s : State) (a hi lo v : Nat) : State := s.setReg a (putW (s.reg a) hi lo v)

/-- One bit of a register. -/
def State.rbit (s : State) (a n : Nat) : Bool := decide (s.fld a n n = 1)

/-- The address of a register of a block instance. -/
def Blk.at (b : Blk) (die i off : Nat) : Nat := regAddr die (b.page die i) off

/-- The address of an offset in the same page as `a`. -/
def inPage (a off : Nat) : Nat := off + 4096 * (a / 4096)

/-- Set bits of INT_STATUS of the page of `a` (R14, R872). -/
def State.raise (s : State) (a n : Nat) : State := s.setFld (inPage a 0x010) n n 1

/-- An event of R844 occurs: its in-band interrupt becomes pending where `ibi_mask` and the controller allow it. Fault
records raise at most one in a breath. -/
def State.ibi (s : State) (code : Nat) : State :=
  if s.rbit (Blk.mgmt.at 4 4 0x10C) (code - 1) = false ∨ s.mgmt.ibiOn = false ∨ s.mgmt.ibi.contains code = true ∨
      (code = 1 ∧ s.mgmt.ibiBreath = s.breath.number + 1) then s
  else
    { s with mgmt := { s.mgmt with
        ibi := s.mgmt.ibi ++ [code], ibiBreath := if code = 1 then s.breath.number + 1 else s.mgmt.ibiBreath } }

/-- The overflow bit of a counter at an offset of its block (R217, R218, R877). -/
def ovfBit (b : Blk) (off : Nat) : Nat :=
  if b = .reed ∧ off = 0x1A8 then 9
  else if b = .mgmt ∧ off = 0x510 then 27
  else if b = .mgmt ∧ 0x0E0 ≤ off then 28 + (off - 0x0E0) / 8
  else (off - 0x030) / 8

/-- The largest value of a 48-bit counter. -/
def cntMax : Nat := 2 ^ 48 - 1

/-- A counter's value. -/
def State.count (s : State) (a : Nat) : Nat := SMap.get (fun _ => 0) s.cnt a

/-- Add to a counter of a block: it saturates at all-ones and then sets its bit of CNT_OVF (R746, R877). -/
def State.cntAdd (s : State) (b : Blk) (die i off n : Nat) : State :=
  let a := b.at die i off
  let v := s.count a + n
  let s1 := { s with cnt := SMap.set (fun _ => 0) s.cnt a (min v cntMax) }
  if cntMax ≤ v then s1.setFld (inPage a 0x028) (ovfBit b off) (ovfBit b off) 1 else s1

/-- ERR_ADDR_HI of a requester (R875). -/
def reqCode : Requester → Nat
  | .host fn => 2 ^ 31 + fn % 1024
  | .fife b c => 8 * b + c
  | .jtag => 0x3FF
  | .other => 0x3FE

/-- Bit of ERR_STATUS: a reserved bit written (R13), a locked field (R11), a value refused (R874). -/
inductive ErrKind where
  | reservedWrite | lockWrite | valueWrite
  deriving DecidableEq, Repr

/-- Record an ignored write in ERR_STATUS and, when it is the first, in ERR_ADDR of the page of `a` (R874, R875). A REED_
page has no value_write bit and keeps its ERR_ADDR for exceptions (R148, R874). -/
def State.err (s : State) (who : Requester) (b : Blk) (a : Nat) (k : ErrKind) : State :=
  let es := inPage a 0x01C
  let n := match k with
    | .reservedWrite => 0
    | .lockWrite => 1
    | .valueWrite => if b = .reed then 0 else 2
  let first := decide (s.fld es 2 0 = 0)
  let s1 := s.setFld es n n 1
  if first && decide (b ≠ .reed) then
    (s1.setReg (inPage a 0x020) (BitVec.ofNat 32 (a % 4096))).setReg (inPage a 0x024) (BitVec.ofNat 32 (reqCode who))
  else s1

/-- `BOOT_DONE` has been written (R773): the done bit of SEC_BOOT_STATUS of bellows-A. -/
def State.bootDone (s : State) : Bool := s.rbit (Blk.sec.at 4 4 0x10C) 31

/-! ### Life cycle and debug level (R775, R778, R794) -/

/-- A register of SEC_ on bellows-A. -/
def secA (off : Nat) : Nat := Blk.sec.at 4 4 off

/-- Life-cycle state that a fuse word tells (R775). -/
def lcOf (lc : Nat) : Nat :=
  if bits lc 7 6 ≠ 0 then 4 else if bits lc 5 4 ≠ 0 then 3 else if bits lc 3 2 ≠ 0 then 2 else if bits lc 1 0 ≠ 0 then 1 else 0

/-- The life-cycle state (R775, R792). -/
def State.lifeCycle (s : State) : Nat := lcOf s.sec.lc

/-- Debug level in force (R775, R794): an accepted record's level, or that of the life-cycle state. -/
def State.debugLevel (s : State) : Nat :=
  max s.sec.opened (match s.lifeCycle with
    | 0 => 2
    | 1 => s.fld (secA 0x110) 1 0
    | _ => 0)

/-- The debug level opens the IEEE 1687 instruments (R778). -/
def State.jtagOpen (s : State) : Bool := decide (1 ≤ s.debugLevel)

/-! ### Fault records (R722, R723) -/

/-- A register of TOP_ on bellows-A. -/
def topA (off : Nat) : Nat := Blk.top.at 4 4 off

/-- Set a bit of TOP_FAULT_INT (R764). -/
def State.faultInt (s : State) (n : Nat) : State := s.setFld (topA 0x320) n n 1

/-- Two faults that share a record. -/
def FaultRec.same (a b : FaultRec) : Bool :=
  decide (a.breath = b.breath ∧ a.die = b.die ∧ a.kind = b.kind ∧ a.consort = b.consort ∧ a.unit = b.unit ∧ a.action = b.action)

/-- The actions that the health record keeps (R728): row repairs, fences, withdrawals, quiesces. -/
def FaultRec.lasting (r : FaultRec) : Bool :=
  ([2, 3, 4, 5, 8, 11, 12] : List Nat).contains r.action

/-- Queue a record, fold it into one that stands, or drop it when the queue is full (R723). -/
def State.faultPost (s : State) (r0 : FaultRec) : State :=
  let r := { r0 with breath := s.breath.number }
  let s0 := if r.lasting then { s with health := s.health ++ [r] } else s
  match s0.faults.find? (fun q => q.same r) with
  | some q =>
    { s0 with faults := s0.faults.map (fun (x : FaultRec) => if x = q then { x with merged := min (x.merged + 1) 65535 } else x) }
  | none =>
    let s1 := s0.cntAdd .top 4 4 0x030 1
    if 256 ≤ s1.faults.length then (s1.cntAdd .top 4 4 0x038 1).faultInt 1
    else ({ s1 with faults := s1.faults ++ [r] }.faultInt 0).ibi 1

/-! ### Free values -/

/-- Draw one free value of `w` bits and advance the serial number (log entry 3). -/
def State.free (s : State) (w : Nat) : Nat × State :=
  (Config.freeWord s.freeCtr % 2 ^ w, { s with freeCtr := s.freeCtr + 1 })

/-! ### The consort's logical positions (R20, R231, R755) -/

/-- Whether a physical reed is fenced. -/
def State.fenced (s : State) (die k r : Nat) : Bool := s.rbit (Blk.cons.at die k 0x104) r

/-- The physical reed that holds a logical position, if any (R20, R232). -/
def State.physOf (s : State) (die k pos : Nat) : Option Nat :=
  let st := Blk.cons.at die k 0x100
  if 16 ≤ pos then none
  else if s.fld st 25 24 = 1 ∧ s.fld st 11 8 = pos then some 16
  else if s.fenced die k pos then none
  else some pos

/-- The logical position a physical reed holds, if any (R105). -/
def State.posOf (s : State) (x : ReedRef) : Option Nat :=
  let st := Blk.cons.at x.die x.k 0x100
  if x.r = 16 then (if s.fld st 25 24 = 1 then some (s.fld st 11 8) else none)
  else if s.fenced x.die x.k x.r then none
  else some x.r

/-- The consort is `WITHDRAWN` (R732, R755). -/
def State.withdrawn (s : State) (die k : Nat) : Bool := decide (s.fld (Blk.cons.at die k 0x100) 31 30 = 3)

/-- The chanter is online (R255). -/
def State.online (s : State) (c : Nat) : Bool := s.rbit (Blk.top.at 4 4 0x204) c

/-! ### The device address map (R224 to R233) -/

/-- Who makes an access: it decides the windows, the views and the owners that admit it (R197, R227, R573). -/
inductive Agent where
  /-- The core of a reed and its tongue engines. -/
  | reed (x : ReedRef)
  /-- The Horn of a consort. -/
  | horn (die k : Nat)
  /-- The Serpent, Panpipe or Piccolo of a chanter. -/
  | unit (die : Nat)
  /-- A unit of a bellows. -/
  | bunit (die : Nat)
  /-- A Fife core of a bellows, and Fife DMA. -/
  | fife (die core : Nat)
  /-- Windway DMA of the runtime. -/
  | dma
  | host (fn : Nat)
  /-- The security unit (R206). -/
  | secUnit
  | jtag
  deriving DecidableEq, Repr

/-- The chanter an agent stands on. -/
def Agent.chanter : Agent → Option Nat
  | .reed x => some x.die
  | .horn d _ => some d
  | .unit d => some d
  | _ => none

/-- The die an agent stands on, for its copy of the windows (R576). -/
def Agent.die : Agent → Nat
  | .reed x => x.die
  | .horn d _ => d
  | .unit d => d
  | .bunit d => d
  | .fife d _ => d
  | .dma => 4
  | .host fn => if fn < 512 then 4 else 5
  | .secUnit => 4
  | .jtag => 4

/-- Bytes of one chanter's DRAM (R18). -/
def chanterBytes : Nat := 0x2400000000
/-- Base of the own-chanter window (R224). -/
def ownBase : Nat := 0xC000000000
/-- Base of the interleave window. -/
def ilvBase : Nat := 0x10000000000
/-- Base of the SRAM window. -/
def sramBase : Nat := 0x100000000000

/-- The offset of an address in the SRAM window (R224). -/
def sramOff (a : Nat) : Nat := a % sramBase

/-- GiB per chanter given to the interleave window (R254). -/
def State.ilvGib (s : State) : Nat := s.fld (Blk.top.at 4 4 0x200) 7 0

/-- Bytes of one DRAM stack (R18). -/
def stackBytes : Nat := 0xC00000000

/-- The stack of its chanter that holds a chanter-local offset, by 4 KiB granule (R225). -/
def dramStack (l : Nat) : Nat := l / 4096 % 3

/-- The offset within that stack (R225). -/
def stackOff (l : Nat) : Nat := l / 4096 / 3 * 4096 + l % 4096

/-- Physical address of chanter-local DRAM: stack 3c + (g mod 3) at its stack offset (R225). -/
def dramPhys (c l : Nat) : Nat := (3 * c + dramStack l) * stackBytes + stackOff l

/-- Physical address of a reed's SRAM: its physical view (R231). -/
def reedSram (x : ReedRef) (off : Nat) : Nat :=
  sramBase + x.die * 2 ^ 32 + 2 ^ 31 + x.k * 2 ^ 27 + x.r * 2 ^ 22 + off

/-- Physical address of a bellows SRAM offset. -/
def bellowsSram (die off : Nat) : Nat := sramBase + die * 2 ^ 32 + off

/-- Decode a DRAM device address to its physical byte, for an agent on chanter `ch` if any (R225 to R230). -/
def State.dramAt (s : State) (ch : Option Nat) (a : Nat) : Option Nat :=
  let top := (144 - s.ilvGib) * 2 ^ 30
  if a < 4 * chanterBytes then
    (let c := a / chanterBytes
     let l := a % chanterBytes
     if l < top ∧ s.online c = true then some (dramPhys c l) else none)
  else if ownBase ≤ a ∧ a < ownBase + chanterBytes then
    (match ch with
     | none => none
     | some c => if a - ownBase < top ∧ s.online c = true then some (dramPhys c (a - ownBase)) else none)
  else if ilvBase ≤ a ∧ a < ilvBase + 4 * s.ilvGib * 2 ^ 30 then
    (let g := (a - ilvBase) / 4096
     let c := g % 4
     if s.online c = true then some (dramPhys c (top + g / 4 * 4096 + (a - ilvBase) % 4096)) else none)
  else none

/-! ### Memory banks: geometry, state and owners (R189, R197 to R203, R219) -/

/-- The block that carries a memory's registers (R217, R218). -/
def MemRef.blk : MemRef → Blk
  | .reed _ => .reed
  | .bellows _ => .mgmt

/-- The die of a memory. -/
def MemRef.die : MemRef → Nat
  | .reed x => x.die
  | .bellows d => d

/-- The instance of the block that carries a memory's registers. -/
def MemRef.inst : MemRef → Nat
  | .reed x => 17 * x.k + x.r
  | .bellows d => d

/-- The register of a memory at an offset. -/
def MemRef.at (m : MemRef) (off : Nat) : Nat := m.blk.at m.die m.inst off

/-- Number of banks (R189). -/
def MemRef.banks : MemRef → Nat
  | .reed _ => 8
  | .bellows _ => 64

/-- Rows of a bank (R189). -/
def MemRef.rows : MemRef → Nat
  | .reed _ => 4096
  | .bellows _ => 16384

/-- Bytes of a bank. -/
def MemRef.bankBytes (m : MemRef) : Nat := m.rows * 128

/-- The physical address of an offset of a memory. -/
def MemRef.phys (m : MemRef) (off : Nat) : Nat :=
  match m with
  | .reed x => reedSram x off
  | .bellows d => bellowsSram d off

/-- The ownership register of bank `n` (R217 to R219). -/
def MemRef.own (m : MemRef) (n : Nat) : Nat := m.at ((match m with | .reed _ => 0x180 | .bellows _ => 0x400) + 4 * n)

/-- State code of a bank (R200). -/
def State.bankState (s : State) (m : MemRef) (n : Nat) : Nat := s.fld (m.own n) 25 24

/-- Owner code of a bank. -/
def State.bankOwner (s : State) (m : MemRef) (n : Nat) : Nat := s.fld (m.own n) 23 16

/-- Set busy, state and owner of a bank. -/
def State.setBank (s : State) (m : MemRef) (n : Nat) (busy : Bool) (st owner : Nat) : State :=
  ((s.setFld (m.own n) 31 31 (b2n busy)).setFld (m.own n) 25 24 st).setFld (m.own n) 23 16 owner

/-- The handover of a bank in progress, if any. -/
def State.handoverOf (s : State) (m : MemRef) (n : Nat) : Option Handover :=
  SMap.get (fun _ => none) s.handover (m.own n)

/-- Start, replace or end the handover of a bank. -/
def State.setHandover (s : State) (m : MemRef) (n : Nat) (h : Option Handover) : State :=
  { s with handover := SMap.set (fun _ => none) s.handover (m.own n) h }

/-- Write zero with valid check bits to every word of a bank (R199, R202, R208, R215). -/
def State.zeroBank (s : State) (m : MemRef) (n : Nat) : State :=
  let a := m.phys (n * m.bankBytes)
  { s with mem := s.mem.clear a m.bankBytes, flip := SMap.dropRange s.flip (a / 8) (m.bankBytes / 8) }

/-- Count a refused access of a memory (R198). -/
def State.bankRefused (s : State) (m : MemRef) : State :=
  s.cntAdd m.blk m.die m.inst (match m with | .reed _ => 0x070 | .bellows _ => 0x0F8) 1

/-- State and owner of a reed bank: (state, owner) of its BANK_OWN register (R219). -/
def State.reedBank (s : State) (x : ReedRef) (n : Nat) : Nat × Nat :=
  let w := Blk.reed.at x.die (17 * x.k + x.r) (0x180 + 4 * n)
  (s.fld w 25 24, s.fld w 23 16)

/-- State and owner of a bellows bank. -/
def State.bellowsBank (s : State) (die n : Nat) : Nat × Nat :=
  let w := Blk.mgmt.at die die (0x400 + 4 * n)
  (s.fld w 25 24, s.fld w 23 16)

/-- A reed runs a step, or has been stopped in one and not been released. -/
def Reed.busy (r : Reed) : Bool := decide (r.run = .running) || decide (r.run = .stopped) || decide (r.run = .preempted)

/-- The step slot of a consort is idle: no step that has been dispatched and has not retired holds it, and no reed of the
consort is busy (R62, R197). -/
def State.slotIdle (s : State) (x : ReedRef) : Bool :=
  !(s.reed x).busy && !s.steps.any (fun e => !e.held && !e.retired && decide (e.desc.die = x.die) && bit e.desc.mask x.k)

/-- The partition a host function is bound to (R571, R612). -/
def State.fnPart (s : State) (fn : Nat) : Nat :=
  let d := if fn < 512 then 4 else 5
  s.fld (bank (Blk.part.at d d 0x134) (fn % 512)) 5 0

/-- Whether an owner admits an agent that acts for `part` (R197). -/
def State.ownerAdmits (s : State) (who : Agent) (part : Option Nat) (m : MemRef) (owner : Nat) : Bool :=
  match m with
  | .reed x =>
    let fifeOk := decide (owner = 2) || (decide (owner = 1) && s.slotIdle x)
    (match who with
     | .reed y => decide (owner = 1) && decide (x = y)
     | .horn d k => decide (owner = 1) && decide (d = x.die) && decide (k = x.k)
     | .fife _ _ => fifeOk
     | .jtag => s.jtagOpen && fifeOk
     | .dma => decide (owner = 1) && (s.reed x).busy && decide ((s.reed x).part = part) && decide (part ≠ none)
     | _ => false)
  | .bellows _ =>
    (match who with
     | .fife _ _ => true
     | .secUnit => true
     | .jtag => s.jtagOpen
     | .bunit _ => decide (owner = 2) || (match part with | some p => decide (owner = 0x40 + p) | none => false)
     | .host fn => decide (owner = 0x40 + s.fnPart fn)
     | .dma => match part with | some p => decide (owner = 0x40 + p) | none => decide (owner = 2)
     | _ => false)

/-- Whether an agent may access a bank in state SECURE: the security unit and a Fife core in secure mode, while no wipe of the
bank is in progress (R206, R208). -/
def State.secureAdmits (s : State) (who : Agent) (m : MemRef) (n : Nat) : Bool :=
  !s.rbit (m.own n) 31 &&
    (match who with
     | .secUnit => true
     | .fife d c => s.sec.secure.contains (8 * d + c)
     | _ => false)

/-- Whether an agent acting for `part` may access a bank (R197, R200, R206). -/
def State.bankAdmits (s : State) (who : Agent) (part : Option Nat) (m : MemRef) (n : Nat) : Bool :=
  if s.bankState m n = 0 then s.ownerAdmits who part m (s.bankOwner m n)
  else if s.bankState m n = 3 then s.secureAdmits who m n
  else false

/-- Whether an agent acting for `part` may access a reed bank. -/
def State.reedAdmits (s : State) (who : Agent) (part : Option Nat) (x : ReedRef) (n : Nat) : Bool := s.bankAdmits who part (.reed x) n

/-- Whether an agent acting for `part` may access a bellows bank. -/
def State.bellowsAdmits (s : State) (who : Agent) (part : Option Nat) (die n : Nat) : Bool :=
  s.bankAdmits who part (.bellows die) n

/-- A bank is DRAINING or CLEARING towards an owner that admits the agent: the access waits (R200, R203). Of a Fife core, whom
every bellows bank that is not secure admits, the access waits too (log entry 179). -/
def State.bankWaits (s : State) (who : Agent) (part : Option Nat) (m : MemRef) (n : Nat) : Bool :=
  match s.handoverOf m n with
  | some (.toOwner o _) => decide (s.bankState m n ≠ 0) && s.ownerAdmits who part m o
  | _ => false

/-- A handover to an owner has ended: the bank has drained and, where a clear applies, been zeroed (R200, R202). -/
def State.handoverEnd (s : State) (m : MemRef) (n : Nat) : State :=
  match s.handoverOf m n with
  | some (.toOwner o c) => ((if c then s.zeroBank m n else s).setBank m n false 0 o).setHandover m n none
  | _ => s

/-! ### The SRAM window (R231 to R233) -/

/-- The memory, bank and offset that an address of the SRAM window names for an agent; none where the decode refuses it. -/
def State.sramWhere (s : State) (who : Agent) (a : Nat) : Option (MemRef × Nat × Nat) :=
  let w := sramOff a
  let slot := bits w 34 32
  if a / sramBase ≠ 1 ∨ bits w 43 35 ≠ 0 ∨ bit w 30 = true then none
  else if slot < 4 then
    (let idx := bits w 26 22
     let k := bits w 29 27
     let r? := if bit w 31 then
         (match who with
          | .fife _ _ => if idx < 17 then some idx else none
          | .jtag => if idx < 17 then some idx else none
          | _ => none)
       else s.physOf slot k idx
     match r? with
     | none => none
     | some r => some (.reed ⟨slot, k, r⟩, bits w 21 19, bits w 21 0))
  else if slot < 6 then
    (if bit w 31 ∨ bits w 29 27 ≠ 0 then none else some (.bellows slot, bits w 26 21, bits w 26 0))
  else none

/-- Decode a device address in the SRAM window to its physical byte, admitted by the bank's owner (R231 to R233). -/
def State.sramAt (s : State) (who : Agent) (part : Option Nat) (a : Nat) : Option Nat :=
  match s.sramWhere who a with
  | some (m, n, off) => if s.bankAdmits who part m n then some (m.phys off) else none
  | none => none

/-- The state in which an access by an agent to `n` bytes of the SRAM window is served: where it waits for a handover to end,
the handover has ended (R200, log entry 179). -/
def State.awaited (s : State) (who : Agent) (part : Option Nat) (a n : Nat) : State :=
  if s.handover = [] ∨ a < sramBase ∨ n = 0 then s
  else (List.range (n / 4096 + 2)).foldl (fun (t : State) i =>
    match t.sramWhere who (min (a + 4096 * i) (a + n - 1)) with
    | some (m, b, _) => if t.bankWaits who part m b then t.handoverEnd m b else t
    | none => t) s

/-! ### DMA windows (R573 to R575) -/

/-- One DMA window of a partition on a die: base, size in bytes, read and write (R574, R617). -/
def State.window (s : State) (die p w : Nat) : Nat × Nat × Bool × Bool :=
  let a := Blk.part.at die die (0x200 + 16 * w)
  let base := s.fld (bank a p) 31 12 * 4096 + s.fld (bank (a + 4) p) 15 0 * 2 ^ 32
  (base, s.fld (bank (a + 8) p) 27 0 * 4096, s.rbit (bank (a + 12) p) 0, s.rbit (bank (a + 12) p) 1)

/-- Whether one window of the partition admits a whole range in a direction (R574, R617). -/
def State.windowsAdmit (s : State) (die p : Nat) (write : Bool) (a n : Nat) : Bool :=
  (List.range 8).any (fun w =>
    let (base, size, rd, wr) := s.window die p w
    (if write then wr else rd) && decide (base + size ≤ 2 ^ 48) && decide (base ≤ a) && decide (a + n ≤ base + size))

/-- The address as the windows see it: the own-chanter window translated (R574). -/
def windowAddr (ch : Option Nat) (a : Nat) : Nat :=
  match ch with
  | some c => if ownBase ≤ a ∧ a < ownBase + chanterBytes then c * chanterBytes + (a - ownBase) else a
  | none => a

/-- Whether the partition's windows admit an access: they govern DRAM only, and an agent that acts for no partition is
not checked (R573 to R575). -/
def State.windowOk (s : State) (who : Agent) (part : Option Nat) (write : Bool) (a n : Nat) : Bool :=
  match part with
  | none => true
  | some p => if sramBase ≤ a then true else s.windowsAdmit who.die p write (windowAddr who.chanter a) n

/-- The physical byte of a device address for an agent, or none where the address map or an owner refuses it. -/
def State.physAt (s : State) (who : Agent) (part : Option Nat) (a : Nat) : Option Nat :=
  if sramBase ≤ a then (if a < sramBase + 0x600000000 then s.sramAt who part a else none)
  else s.dramAt who.chanter a

/-- The physical bytes of `n` device addresses from `a`, all admitted, or none. -/
def State.physRange (s : State) (who : Agent) (part : Option Nat) (a : Nat) : Nat → Option (List Nat)
  | 0 => some []
  | n + 1 =>
    match s.physAt who part a, s.physRange who part (a + 1) n with
    | some p, some ps => some (p :: ps)
    | _, _ => none

/-- Translate a whole access (R224, R574): the physical bytes, or none where it is refused. -/
def State.xlat (s : State) (who : Agent) (part : Option Nat) (write : Bool) (a n : Nat) : Option (List Nat) :=
  if s.windowOk who part write a n then s.physRange who part a n else none

/-- Count an access refused by the windows (R574, R618). -/
def State.windowRefused (s : State) (who : Agent) : State :=
  (s.cntAdd .part who.die who.die 0x040 1).raise (Blk.part.at who.die who.die 0) 3

/-! ### Check bits (R209 to R213) -/

/-- The weight-3 byte values in ascending order from 0x07 to 0xE0, and the eight weight-5 values (R209). -/
def hsiaoCols : List Nat :=
  (List.range 256).filter (fun b => decide (popcount 8 b = 3)) ++ [0x1F, 0x2F, 0x37, 0x3B, 0x3D, 0x3E, 0x4F, 0x57]

/-- The column value of data bit `i`. -/
def hsiaoCol (i : Nat) : Nat := hsiaoCols.getD i 0

/-- Check bits of the low `n` data bits. -/
def hsiaoCheck (x : Nat) : Nat → Nat
  | 0 => 0
  | n + 1 => (if x.testBit n then hsiaoCol n else 0) ^^^ hsiaoCheck x n

/-- The syndrome of an error pattern over data (63..0) and check bits (71..64) (R210). -/
def syndrome (mask : Nat) : Nat := hsiaoCheck (mask % 2 ^ 64) 64 ^^^ (mask / 2 ^ 64 % 256)

/-- What a syndrome says of a word (R210). -/
inductive EccClass where
  | clean | checkBit
  /-- Data bit `i` is inverted before use. -/
  | dataBit (i : Nat)
  | poison | uncorrectable
  deriving DecidableEq, Repr

/-- The class of a syndrome (R210). -/
def eccClass (syn : Nat) : EccClass :=
  if syn = 0 then .clean
  else if popcount 8 syn = 1 then .checkBit
  else match hsiaoCols.findIdx? (fun c => decide (c = syn)) with
    | some i => .dataBit i
    | none => if syn = 0xFF then .poison else .uncorrectable

/-- Whether a class is uncorrectable. -/
def EccClass.bad : EccClass → Bool
  | .poison => true
  | .uncorrectable => true
  | _ => false

/-- The error pattern of the physical word that holds byte `p`. -/
def State.flipOf (s : State) (p : Nat) : Nat := SMap.get (fun _ => 0) s.flip (p / 8)

/-- Whether the word of a physical byte reads back uncorrectable. -/
def State.badByte (s : State) (p : Nat) : Bool := decide (s.flipOf p ≠ 0) && (eccClass (syndrome (s.flipOf p))).bad

/-- Whether any of the bytes lies in an uncorrectable word. -/
def State.anyBad (s : State) (ps : List Nat) : Bool := ps.any (fun p => s.badByte p)

/-- The error pattern of a poisoned word: the computed check bits inverted (R211). -/
def poisonMask : Nat := 0xFF * 2 ^ 64

/-- The data bits in which a word is read otherwise than it was written: its error pattern with the bit that the code
inverts (R210). It is 0 for every single error; triple errors can leave it nonzero. -/
def readError (mask : Nat) : Nat :=
  if mask = 0 then 0 else match eccClass (syndrome mask) with
  | .dataBit i => (mask % 2 ^ 64) ^^^ (2 ^ i)
  | _ => mask % 2 ^ 64

/-- One physical byte as a read delivers it. -/
def State.readByte (s : State) (p : Nat) : Byte :=
  s.mem.byte p ^^^ BitVec.ofNat 8 (readError (s.flipOf p) / 2 ^ (8 * (p % 8)))

/-- The bytes at physical addresses. -/
def State.readPhys (s : State) (ps : List Nat) : List Byte := ps.map (fun p => s.readByte p)

/-- Read, correct and rewrite the word of a physical byte with fresh check bits (R196, R213). -/
def State.settle (s : State) (p : Nat) : State :=
  let e := readError (s.flipOf p)
  let a := p / 8 * 8
  { s with
    mem := if e = 0 then s.mem else s.mem.setLe a 8 ((s.mem.le a 8) ^^^ e)
    flip := SMap.set (fun _ => 0) s.flip (p / 8) 0 }

/-- Write one byte at each physical address; fresh check bits clear the word's errors (R196, R209). -/
def State.writePhys (s : State) : List Nat → List Byte → State
  | p :: ps, b :: bs =>
    let s1 := s.settle p
    State.writePhys { s1 with mem := s1.mem.setByte p b } ps bs
  | _, _ => s

/-- Whether a write covers only part of an uncorrectable word (R196, R212). -/
def State.partialBad (s : State) (ps : List Nat) : Bool :=
  ps.any (fun p => s.badByte p && !((List.range 8).all (fun i => ps.contains (p / 8 * 8 + i))))

/-! ### ECC records (R213, R217 to R220) -/

/-- A corrected word of a row in the tracker of its bank: a full tracker replaces its entry of lowest count, the oldest
among equals (R725). -/
def trackRow (t : Tracker) (row : Nat) : Tracker :=
  if t.any (fun e => decide (e.1 = row)) then t.map (fun e => if e.1 = row then (row, e.2 + 1) else e)
  else if t.length < 8 then t ++ [(row, 1)]
  else
    let m := t.foldl (fun a e => min a e.2) (t.headD (0, 0)).2
    (match t.find? (fun e => decide (e.2 = m)) with
     | some e => t.erase e
     | none => t) ++ [(row, 1)]

/-- Record an error of a memory: counters, and the ECC_ADDR register that holds the first error, an uncorrectable one
replacing a correctable one (R213, R220). `reed` tells a reed's memory from a bellows's. -/
def State.eccRecord (s : State) (b : Blk) (die i bank row word syn : Nat) (byScrub : Bool) : State :=
  let cls := eccClass syn
  let ue := cls.bad
  let s0 := s.cntAdd b die i (if b = .reed then (if ue then 0x060 else 0x058) else (if ue then 0x0E8 else 0x0E0)) 1
  let key := b.at die i ((if b = .reed then 0x180 else 0x400) + 4 * bank)
  let s1 := if ue then s0 else { s0 with trackers := SMap.upd (fun _ => []) s0.trackers key (fun t => trackRow t row) }
  let hiA := b.at die i (if b = .reed then 0x1A0 else 0x504)
  let keep := s1.rbit hiA 31 && !(ue && !(s1.rbit hiA 30))
  if keep then s1
  else
    let top := 2 ^ 31 + b2n ue * 2 ^ 30 + b2n (decide (cls = .poison)) * 2 ^ 29 + b2n byScrub * 2 ^ 28
    if b = .reed then
      s1.setReg hiA (BitVec.ofNat 32 (top + bank * 2 ^ 24 + row * 2 ^ 12 + word * 2 ^ 8 + syn))
    else
      (s1.setReg hiA (BitVec.ofNat 32 top)).setReg (b.at die i 0x500)
        (BitVec.ofNat 32 (bank * 2 ^ 26 + row * 2 ^ 12 + word * 2 ^ 8 + syn))

/-- Record the errors that a read of SRAM words at offsets of a reed meets (R210, R213). -/
def State.eccReedRead (s : State) (x : ReedRef) : List Nat → State
  | [] => s
  | off :: offs =>
    let p := reedSram x off
    let syn := syndrome (s.flipOf p)
    let s1 := if syn = 0 then s
      else s.eccRecord .reed x.die (17 * x.k + x.r) (bits off 21 19) (bits off 18 7) (bits off 6 3) syn false
    State.eccReedRead s1 x offs

/-- The memory and the offset that a physical byte of SRAM belongs to (R231). -/
def memOfPhys (p : Nat) : MemRef × Nat :=
  let w := sramOff p
  if bits w 34 32 < 4 then (.reed ⟨bits w 34 32, bits w 29 27, bits w 26 22⟩, bits w 21 0)
  else (.bellows (bits w 34 32), bits w 26 0)

/-- Count and record the error of the word of one physical byte that a read has met, if it has one: of SRAM in its block
(R212, R213, R220), of DRAM in its stack's page, an uncorrectable word as a fault of kind 0x05 unless it reads as poison
(R101, R721, R887, R912). -/
def State.noteWord (s : State) (p : Nat) : State :=
  let syn := syndrome (s.flipOf p)
  if syn = 0 then s
  else if p < sramBase then
    let c := p / chanterBytes
    let st := p / stackBytes % 3
    if (eccClass syn).bad then
      let s1 := (s.cntAdd .hbm c st 0x038 1).raise (Blk.hbm.at c st 0) 0
      if eccClass syn = .poison then s1 else s1.faultPost { breath := 0, die := c, kind := 5 }
    else s.cntAdd .hbm c st 0x030 1
  else
    let (m, off) := memOfPhys p
    s.eccRecord m.blk m.die m.inst (off / m.bankBytes) (off % m.bankBytes / 128) (off / 8 % 16) syn false

/-- The first byte of every word that bytes at rising physical addresses touch. -/
def wordsAt : List Nat → List Nat
  | [] => []
  | p :: ps => p :: ps.filter (fun q => decide (q % 8 = 0))

/-- Count and record the errors that a read of physical bytes meets, word by word (R212, R213). -/
def State.noteWords (s : State) (ps : List Nat) : State :=
  if s.flip = [] then s else (wordsAt ps).foldl (fun t p => t.noteWord p) s

/-- Count and record the errors of the words that a write covers only in part, which it reads and corrects (R196, R213). -/
def State.notePartial (s : State) (ps : List Nat) : State :=
  if s.flip = [] then s
  else ((wordsAt ps).filter (fun p => !((List.range 8).all (fun i => ps.contains (p / 8 * 8 + i))))).foldl (fun t p => t.noteWord p) s

/-- Count an access that the owner of a bank refuses, in the bank's block (R198, R233). -/
def State.noteRefused (s : State) (who : Agent) (part : Option Nat) (a n : Nat) : State :=
  if a < sramBase ∨ n = 0 then s
  else match [a, a + n - 1].findSome? (fun b => match s.sramWhere who b with
      | some (m, k, _) => if s.bankAdmits who part m k then none else some m
      | none => none) with
    | some m => s.bankRefused m
    | none => s

/-- What an access at a device address counts and records: a refusal by a bank's owner, and the errors of the words read or
rewritten (R198, R212, R213). -/
def State.noteDev (s : State) (who : Agent) (part : Option Nat) (write : Bool) (a n : Nat) : State :=
  if s.flip = [] ∧ a < sramBase then s
  else
    let t := s.awaited who part a n
    match t.xlat who part write a n with
    | none => s.noteRefused who part a n
    | some ps => if write then s.notePartial ps else s.noteWords ps

/-- Count and record the errors of `n` physical bytes that are read (R212, R213). -/
def State.noteRange (s : State) (lo n : Nat) : State :=
  (s.flip.filter (fun e => decide (lo ≤ 8 * e.1 ∧ 8 * e.1 < lo + n))).foldl (fun t e => t.noteWord (8 * e.1)) s

/-- Little-endian value of a list of bytes (R9). -/
def leOf : List Byte → Nat
  | [] => 0
  | b :: bs => b.toNat + 256 * leOf bs

/-- The `n` bytes of a number, least significant first (R9). -/
def leBytes : Nat → Nat → List Byte
  | 0, _ => []
  | n + 1, v => BitVec.ofNat 8 v :: leBytes n (v / 256)

/-- Why an access does not deliver data. -/
inductive MemErr where
  /-- Refused by the address map, the windows or a bank's owner (R198, R224, R574). -/
  | refused
  /-- An uncorrectable word (R212). -/
  | uncorrectable
  deriving DecidableEq, Repr

/-- Read `n` bytes at a device address. -/
def State.readDev (s : State) (who : Agent) (part : Option Nat) (a n : Nat) : Except MemErr (List Byte) :=
  let t := s.awaited who part a n
  match t.xlat who part false a n with
  | none => .error .refused
  | some ps => if t.anyBad ps then .error .uncorrectable else .ok (t.readPhys ps)

/-- Read a little-endian number of `n` bytes at a device address. -/
def State.readLe (s : State) (who : Agent) (part : Option Nat) (a n : Nat) : Except MemErr Nat :=
  match s.readDev who part a n with
  | .ok bs => .ok (leOf bs)
  | .error e => .error e

/-- Write bytes at a device address, or none where the write is refused or covers only part of an uncorrectable word
(R196, R212). -/
def State.writeDev (s : State) (who : Agent) (part : Option Nat) (a : Nat) (bs : List Byte) : Option State :=
  let t := s.awaited who part a bs.length
  match t.xlat who part true a bs.length with
  | none => none
  | some ps => if t.partialBad ps then none else some ((t.notePartial ps).writePhys ps bs)

/-- Write bytes at a device address; where the write is not made, count why (R198, R212). -/
def State.writeSeen (s : State) (who : Agent) (part : Option Nat) (a : Nat) (bs : List Byte) : State :=
  (s.writeDev who part a bs).getD (s.noteDev who part true a bs.length)

/-- Bytes that hold undefined values: free values at the physical bytes of a list (R292). -/
def State.undefine (s : State) : List Nat → State
  | [] => s
  | p :: ps =>
    let (v, s1) := s.free 8
    State.undefine (s1.writePhys [p] [BitVec.ofNat 8 v]) ps

/-- Note the first failure of a step: source of R515, code and detail (R512). -/
def State.stepCause (s : State) (uid src code detail : Nat) : State :=
  { s with steps := s.steps.map (fun (e : Step) =>
      if e.uid = uid ∧ e.cause = none then { e with cause := some (src, code, detail) } else e) }

/-- A fault of a step (R58, R64, R512). -/
def State.stepFault (s : State) (uid src code detail : Nat) : State :=
  let s1 := s.stepCause uid src code detail
  { s1 with steps := s1.steps.map (fun (e : Step) => if e.uid = uid then { e with fault := true } else e) }

/-- Stable sort of a list by a strict order. -/
def insertBy {α : Type} (lt : α → α → Bool) (x : α) : List α → List α
  | [] => [x]
  | y :: ys => if lt x y then x :: y :: ys else y :: insertBy lt x ys

/-- Elements in ascending order, equal ones in their given order. -/
def sortBy {α : Type} (lt : α → α → Bool) (xs : List α) : List α := xs.foldl (fun acc x => insertBy lt x acc) []

end Sys2Proof.Machine
end

