-- ==== Sys2Proof/Machine/Operands.lean ====
section
/-! DEFINITION. The operands of the reed instructions (R116, R120, R122): registers, lanes, masks and immediates, and the
frame in which every reed instruction runs: its checks, its exceptions and the advance of the program counter. -/
namespace Sys2Proof.Machine

/-! ### Registers (R116) -/

/-- A scalar register; s0 reads 0. -/
def Reed.sget (r : Reed) (i : Nat) : DWord := if i = 0 then 0 else SMap.get (fun _ => 0) r.s i

/-- Write a scalar register; a write to s0 is discarded. -/
def Reed.sset (r : Reed) (i : Nat) (v : DWord) : Reed :=
  if i = 0 then r else { r with s := SMap.set (fun _ => 0) r.s i v }

/-- One lane of a vector register. -/
def Reed.vget (r : Reed) (i lane : Nat) : Word := SMap.get (fun _ => 0) r.v (32 * i + lane)

/-- Write one lane. -/
def Reed.vset (r : Reed) (i lane : Nat) (w : Word) : Reed :=
  { r with v := SMap.set (fun _ => 0) r.v (32 * i + lane) w }

/-- A mask register; m0 reads all ones. -/
def Reed.mget (r : Reed) (i : Nat) : Word := if i = 0 then 0xFFFFFFFF else SMap.get (fun _ => 0) r.m i

/-- Write a mask register m1 to m7. -/
def Reed.mset (r : Reed) (i : Nat) (w : Word) : Reed :=
  if i = 0 then r else { r with m := SMap.set (fun _ => 0) r.m i w }

/-- Whether lane `e` is enabled by mask register `i`. -/
def Reed.lane (r : Reed) (i e : Nat) : Bool := (r.mget i).getLsbD e

/-- Write lanes `0 .. n-1` of a vector register where the mask enables them. -/
def Reed.vwriteFrom (r : Reed) (d : Nat) (mask : Word) (f : Nat → Word) : Nat → Reed
  | 0 => r
  | n + 1 =>
    let r' := Reed.vwriteFrom r d mask f n
    if mask.getLsbD n then r'.vset d n (f n) else r'

/-- Write all 32 lanes under a mask (R124): lanes whose bit is 0 keep their old value. -/
def Reed.vwrite (r : Reed) (d : Nat) (mask : Word) (f : Nat → Word) : Reed := r.vwriteFrom d mask f 32

/-- An accumulator entry (R75, R89). -/
def Reed.accGet (r : Reed) (arr row col : Nat) : Word := SMap.get (fun _ => 0) r.acc (8192 * arr + 8 * row + col)

/-- Write an accumulator entry. -/
def Reed.accSet (r : Reed) (arr row col : Nat) (w : Word) : Reed :=
  { r with acc := SMap.set (fun _ => 0) r.acc (8192 * arr + 8 * row + col) w }

/-- The immediate, sign-extended. -/
def RIimm (x : RI) : DWord := x.imm.signExtend 64
/-- The immediate, zero-extended. -/
def RIimmZ (x : RI) : DWord := x.imm.setWidth 64

/-! ### Modes of cr0 (R117, R166) -/

/-- fp_ovf: IEEE when 1. -/
def Reed.ieee (r : Reed) : Bool := r.mode.getLsbD 0
/-- int_ovf: WRAP when 1. -/
def Reed.wrapMode (r : Reed) : Bool := r.mode.getLsbD 1
/-- round: stochastic when 1. -/
def Reed.stoch (r : Reed) : Bool := r.mode.getLsbD 2

/-! ### The frame of an instruction -/

/-- Which fields an opcode uses (R122). -/
structure Uses where
  d : Bool := false
  a : Bool := false
  b : Bool := false
  c : Bool := false
  m : Bool := false
  fmt : Bool := false
  fn : Bool := false
  imm : Bool := false
  deriving DecidableEq, Repr

/-- Every field the opcode does not use is 0 (R122). -/
def Uses.ok (u : Uses) (x : RI) : Bool :=
  (u.d || decide (x.d = 0)) && (u.a || decide (x.a = 0)) && (u.b || decide (x.b = 0)) && (u.c || decide (x.c = 0)) &&
  (u.m || decide (x.m = 0)) && (u.fmt || decide (x.fmt = 0)) && (u.fn || decide (x.fn = 0)) &&
  (u.imm || decide (x.imm = 0))

/-- What one instruction does: complete, jump, raise an exception, or wait at its own pc (R147, R152). -/
inductive RRes where
  | done (s : State) (r : Reed)
  | jump (s : State) (r : Reed) (target : Int)
  | exc (s : State) (code detail addr : Nat)
  | hold (s : State) (r : Reed) (w : Wait)
  deriving Repr

/-- The reeds of a barrier scope of the reed `x` (R139): 0 its consort's reeds of the step, 1 the step's reeds on the
die, 2 the reeds of every step of the group. `q` is another reed, by number. -/
def State.inScope (s : State) (x : ReedRef) (scope q : Nat) : Bool :=
  let r := s.reed x
  let t := SMap.get Reed.blank s.reeds q
  let stepOf (u : Nat) : Option Step := s.steps.find? (fun e => decide (e.uid = u))
  let sameStep := decide (t.step = r.step)
  let sameGroup := match stepOf r.step, stepOf t.step with
    | some e, some f => decide (e.desc.group ≠ 0) && decide (e.desc.group = f.desc.group) && decide (e.breath = f.breath)
    | _, _ => false
  if scope = 0 then sameStep && decide (q / 17 = reedNo x / 17)
  else if scope = 1 then sameStep && decide (q / 136 = x.die)
  else sameStep || sameGroup

/-- The reed of a number. -/
def reedOfNo (n : Nat) : ReedRef := ⟨n / 136, n % 136 / 17, n % 17⟩

/-- Record an exception of a reed and stop it; its step carries `fault` (R115, R147, R148). -/
def State.stopReed (s : State) (x : ReedRef) (code detail addr : Nat) : State :=
  let r := s.reed x
  let pg := Blk.reed.at x.die (17 * x.k + x.r) 0
  let es := pg + 0x01C
  let s1 := s.setReg es (BitVec.ofNat 32 (2 ^ 31 + code * 2 ^ 16 + detail % 256 * 2 ^ 8 + s.fld es 1 0))
  let s2 := s1.setReg (pg + 0x020) (BitVec.ofNat 32 (addr % 2 ^ 32))
  let s3 := s2.setReg (pg + 0x024) (BitVec.ofNat 32 (r.pc / 8 * 2 ^ 16 + addr / 2 ^ 32 % 2 ^ 16))
  let s4 := s3.stepFault r.step 1 code detail
  s4.setReed x { r with run := .stopped, wait := .none }

/-- Whether a reed that belongs to a step has ended or stopped. -/
def Reed.over (r : Reed) : Bool := decide (r.run = .ended) || decide (r.run = .stopped)

/-- The step of a reed belongs to a group that was resumed in part (R606). -/
def State.inPart (s : State) (r : Reed) : Bool := s.steps.any (fun e => decide (e.uid = r.step) && e.partialGrp)

/-- The reeds that wait at a barrier some reed of whose scope has ended or stopped (R144), or at one of scope 2 in a group
that was resumed in part (R606). -/
def State.brokenBars (s : State) : List Nat :=
  (s.reeds.filter (fun e =>
    match e.2.wait with
    | .bar sc => decide (e.2.run = .running) && ((decide (sc = 2) && s.inPart e.2) ||
        s.reeds.any (fun f => f.2.over && s.inScope (reedOfNo e.1) sc f.1))
    | _ => false)).map (fun e => e.1)

/-- Give barrier exceptions until no waiting reed has an ended reed in its scope (R144). -/
def State.breakBars (s : State) : Nat → State
  | 0 => s
  | n + 1 => State.breakBars ((s.brokenBars).foldl (fun t q => t.stopReed (reedOfNo q) 0x08 0 0) s) n

/-- Take a reed exception, and the barrier exceptions that follow from it (R144, R147). -/
def State.reedExc (s : State) (x : ReedRef) (code detail addr : Nat) : State :=
  (s.stopReed x code detail addr).breakBars 8

/-- End a reed's part of its step (R115, R144). -/
def State.endReed (s : State) (x : ReedRef) : State :=
  (s.setReed x { s.reed x with run := .ended, wait := .none }).breakBars 8

/-- The exception of a fetch past the last instruction; a restored reed that has no instruction to execute again takes its
recorded exception instead (R114, R607). -/
def State.fetchExc (s : State) (x : ReedRef) : State :=
  match (s.reed x).redo with
  | some (c, d) => s.reedExc x c d 0
  | none => s.reedExc x 0x05 0 0

/-- Turn what an instruction does into the next state. A jump that a restored image recorded as failed fails again: its target
and the program are those of the image (R151, R607). -/
def State.finish (s : State) (x : ReedRef) (count : Nat) : RRes → State
  | .done t r => t.setReed x { r with pc := r.pc + 8, wait := .none, redo := none }
  | .jump t r target =>
    if 0 ≤ target ∧ target % 8 = 0 ∧ target < 8 * count ∧ (s.reed x).redo = none then
      t.setReed x { r with pc := target.toNat, wait := .none, redo := none }
    else s.reedExc x 0x05 0 0
  | .exc t code detail addr => t.reedExc x code detail addr
  | .hold t r w => t.setReed x { r with wait := w }

/-- Run one instruction at a reed: a reed that runs no step does nothing; past the last instruction the fetch raises its
exception (R114); an unused field that is not 0 makes the instruction illegal (R122). -/
def runReed (x : RI) (u : Uses) (s : State) (body : State → Reed → RRes) : State :=
  let r := s.reed x.reed
  if r.run ≠ .running then s
  else if 8 * r.ibuf.length ≤ r.pc then s.fetchExc x.reed
  else if u.ok x = false then s.reedExc x.reed 0x01 0 0
  else s.finish x.reed r.ibuf.length (body s r)

/-- A body that only computes on the reed. -/
def pureBody (f : Reed → Reed) : State → Reed → RRes := fun s r => .done s (f r)

/-! ### Tongue engines put back to their consumption point (R102, R107) -/

/-- The die whose memory a physical address belongs to. -/
def homeDie (p : Nat) : Nat := if p < sramBase then p / chanterBytes else bits (sramOff p) 34 32

/-- End the reads outstanding to a die: the first of them stops the engine, its tile and those after it are given up, and the
cursor stands on it (R100, R102). The flag tells whether there was one. -/
def Engine.endReads (e : Engine) (die : Nat) : Engine × Bool :=
  match e.tiles.find? (fun t => !t.landed && decide (homeDie t.phys = die)) with
  | none => (e, false)
  | some t => ({ e with
      err := 0x08, cur := none, ahead := [], done := false, desc := t.desc, row := t.row, idx := t.idx, num := t.num, wnum := t.wnum
      tiles := e.tiles.takeWhile (fun u => decide (u.num ≠ t.num)) }, true)

/-- The cursor put back to the consumption point, landed and read-ahead tiles discarded (R107). -/
def Engine.flush (e : Engine) : Engine :=
  match e.tiles with
  | [] => { e with err := 0, flushed := true, cur := none, ahead := [] }
  | t :: _ => { e with
      err := 0, flushed := true, cur := none, ahead := [], tiles := [], done := false, desc := t.desc, row := t.row, idx := t.idx
      num := t.num, wnum := t.wnum }

/-- A die goes offline: every engine with a read outstanding to it stops with code 0x08 and raises its error interrupt
(R102). -/
def State.tongueOffline (s : State) (die : Nat) : State :=
  s.reeds.foldl (fun (t : State) (q : Nat × Reed) =>
    let x := reedOfNo q.1
    let (w, sw) := q.2.w.endReads die
    let (a, sa) := q.2.a.endReads die
    let pg := Blk.reed.at x.die (17 * x.k + x.r) 0
    let t1 := if sw then (t.setReed x { t.reed x with w := w }).raise pg 0 else t
    if sa then (t1.setReed x { t1.reed x with a := a }).raise pg 1 else t1) s

/-! ### Reed SRAM (R123, R132, R142) -/

/-- Whether a range touches the queue region of an enabled engine (R142). -/
def queueHit (e : Engine) (qbase a n : Nat) : Bool :=
  e.enable && decide (a < qbase + 4096 * e.slots) && decide (qbase < a + n)

/-- Queue base of an engine: bits 21:12 of its QBASE (R104). -/
def State.qbase (s : State) (x : ReedRef) (isA : Bool) : Nat :=
  s.fld (Blk.reed.at x.die (17 * x.k + x.r) (if isA then 0x140 else 0x120)) 21 12 * 4096

/-- What an access of the reed core meets: data, an exception code, or a wait (R142, R149). -/
inductive SramRes where
  | ok
  | exc (code : Nat)
  | wait
  deriving DecidableEq, Repr

/-- What the owners of the banks of a range of reed SRAM say to the reed's own core and engines: `ok`, `wait` for a handover
towards the reed, or a refusal (R197, R200). -/
def State.ownRange (s : State) (x : ReedRef) (a n : Nat) : SramRes :=
  if (List.range n).all (fun i => decide (s.reedBank x (bits (a + i) 21 19) = (0, 1))) then .ok
  else if (List.range n).all (fun i =>
      decide (s.reedBank x (bits (a + i) 21 19) = (0, 1)) || s.bankWaits (.reed x) none (.reed x) (bits (a + i) 21 19)) then .wait
  else .exc 0x04

/-- Check one access of the core: range, alignment, owner, queue regions, permitted write tiles, uncorrectable words. -/
def State.sramCheck (s : State) (x : ReedRef) (store : Bool) (a n align : Nat) : SramRes :=
  let r := s.reed x
  let ps := (List.range n).map (fun i => reedSram x (a + i))
  if 2 ^ 22 < a + n ∨ a % align ≠ 0 then .exc 0x04
  else if s.ownRange x a n ≠ .ok then s.ownRange x a n
  else if store && (queueHit r.w (s.qbase x false) a n || queueHit r.a (s.qbase x true) a n) then .exc 0x04
  else if store && r.a.writes.any (fun w => decide (a < w.src + 4096) && decide (w.src < a + n)) then .wait
  else if (if store then s.partialBad ps else s.anyBad ps) then .exc 0x07
  else .ok

/-- The words of an access, by offset. -/
def wordsOf (a n : Nat) : List Nat := (List.range ((a + n + 7) / 8 - a / 8)).map (fun i => (a / 8 + i) * 8)

/-- What a core access that waits is waiting for. -/
def State.waitFor (s : State) (x : ReedRef) (a n : Nat) : Wait := if s.ownRange x a n = .wait then .bank else .store

/-- Read a little-endian number from reed SRAM. -/
def State.sramRead (s : State) (x : ReedRef) (a n : Nat) : Nat :=
  leOf (s.readPhys ((List.range n).map (fun i => reedSram x (a + i))))

/-- Write a little-endian number to reed SRAM. -/
def State.sramWrite (s : State) (x : ReedRef) (a n v : Nat) : State :=
  s.writePhys ((List.range n).map (fun i => reedSram x (a + i))) (leBytes n v)

end Sys2Proof.Machine
end

