-- ==== Sys2Proof/Machine/RegWrite.lean ====
section
/-! DEFINITION. Writing a register: field access types, reserved bits, locks and freezing (R11, R13, R14, R874, R876). -/
namespace Sys2Proof.Machine

/-- The bits of a register's fields of one access type. -/
def RegRow.accMask (r : RegRow) (a : AccKind) : Word :=
  r.fields.foldl (fun m f => if f.acc = a then m ||| maskW f.hi f.lo else m) 0

/-- The bits of a register that lie in some field. -/
def RegRow.known (r : RegRow) : Word := r.fields.foldl (fun m f => m ||| maskW f.hi f.lo) 0

/-- The page of `a` is frozen: `BOOT_DONE` has been written and LOCK.freeze is 1 (R876). -/
def State.frozen (s : State) (a : Nat) : Bool := s.bootDone && s.rbit (inPage a 0x02C) 0

/-- The bits of a register that writes no longer change (R11, R876). -/
def State.lockedBits (s : State) (r : RegRow) (a : Nat) : Word :=
  (if s.bootDone then r.accMask .rwl else 0) ||| (if s.frozen a then r.accMask .rw else 0)

/-- The bits of a register that a write stores. -/
def State.storedBits (s : State) (r : RegRow) (a : Nat) : Word :=
  (r.accMask .rw ||| r.accMask .rws ||| r.accMask .rwl) &&& ~~~ s.lockedBits r a

/-- The word a register holds after a write of `v` over `old` (R11). -/
def State.writtenWord (s : State) (r : RegRow) (a : Nat) (old v : Word) : Word :=
  ((old &&& ~~~ s.storedBits r a) ||| (v &&& s.storedBits r a)) &&& ~~~ (r.accMask .w1c &&& v)

/-- Write a register at address `a` of block `b`, stored under `key`: the fields take the write by their access types, a
reserved bit and a change of a locked field are recorded (R11, R13, R874). -/
def State.writeFields (s : State) (who : Requester) (b : Blk) (a key : Nat) (v : Word) : State :=
  match regRow b (a / 2 ^ 23) (a % 4096) with
  | none => s
  | some r =>
    let old := s.reg key
    let s1 := s.setReg key (s.writtenWord r a old v)
    let s2 := if v &&& ~~~ r.known ≠ 0 then s1.err who b a .reservedWrite else s1
    if (old ^^^ v) &&& s.lockedBits r a ≠ 0 then s2.err who b a .lockWrite else s2

/-- Write a register of a block instance at an offset. -/
def State.writeAt (s : State) (who : Requester) (b : Blk) (die i off : Nat) (v : Word) : State :=
  s.writeFields who b (b.at die i off) (b.at die i off) v

/-- Ignore a write and record it as a refused value (R874). -/
def State.refuseAt (s : State) (who : Requester) (b : Blk) (die i off : Nat) : State :=
  s.err who b (b.at die i off) .valueWrite

/-- Record the reserved bits that a write sets, where the write itself is ignored (R13). -/
def State.noteReserved (s : State) (who : Requester) (b : Blk) (a : Nat) (v : Word) : State :=
  match regRow b (a / 2 ^ 23) (a % 4096) with
  | none => s
  | some r => if v &&& ~~~ r.known ≠ 0 then s.err who b a .reservedWrite else s

/-- Ignore a write of `v`: its reserved bits and its refused value are recorded (R13, R874). -/
def State.refuseWrite (s : State) (who : Requester) (b : Blk) (die i off : Nat) (v : Word) : State :=
  (s.noteReserved who b (b.at die i off) v).refuseAt who b die i off

/-! ### Who may access a register (R650, R865, R866) -/

/-- A function after reset. -/
def Fn.blank (_ : Nat) : Fn := {}

/-- The state of a function. -/
def State.fn (s : State) (f : Nat) : Fn := SMap.get Fn.blank s.fns f

/-- Replace the state of a function. -/
def State.setFn (s : State) (f : Nat) (x : Fn) : State := { s with fns := SMap.set Fn.blank s.fns f x }

/-- The bellows of a function's port (R645). -/
def fnDie (f : Nat) : Nat := if f < 512 then 4 else 5

/-- The port is bifurcated (R643). -/
def State.bifurcated (s : State) (die : Nat) : Bool := s.rbit (Blk.host.at die die 0x104) 0

/-- The physical function of a function's link (R645). -/
def State.pfOf (s : State) (f : Nat) : Nat :=
  if s.bifurcated (fnDie f) && decide (256 ≤ f % 512) then f / 512 * 512 + 256 else f / 512 * 512

/-- HOST_FPRIV of a function: [1] manage, [0] raw_ids; the physical function of link B holds both at reset (R646, R674). -/
def State.fpriv (s : State) (f : Nat) : Nat :=
  let w := s.fld (bank (Blk.host.at (fnDie f) (fnDie f) 0x114) (f % 512)) 1 0
  if f % 512 = 256 ∧ s.bifurcated (fnDie f) then w ^^^ 3 else w

/-- The function holds `manage`; while boot has halted no function does (R770). -/
def State.manage (s : State) (f : Nat) : Bool := bit (s.fpriv f) 1 && !s.pwr.halted

/-- The two ends of a link, in the row order of R22. -/
def linkEnds : Nat → Nat × Nat
  | 0 => (0, 1) | 1 => (1, 2) | 2 => (2, 3) | 3 => (3, 0) | 4 => (4, 0) | 5 => (4, 1) | 6 => (5, 2) | 7 => (5, 3)
  | 8 => (4, 5) | 9 => (4, 6) | _ => (5, 7)

/-- The link between two dies (R22); 11 where none joins them. -/
def linkOf (a b : Nat) : Nat :=
  ((List.range 11).find? (fun l => decide (linkEnds l = (a, b)) || decide (linkEnds l = (b, a)))).getD 11

/-- Chanters from `a` to `b` round the ring in increasing slot order, and in decreasing order. -/
def ringUp (a b : Nat) : List Nat := (List.range ((b + 4 - a) % 4 + 1)).map (fun i => (a + i) % 4)
/-- Chanters from `a` to `b` round the ring in decreasing slot order. -/
def ringDown (a b : Nat) : List Nat := (List.range ((a + 4 - b) % 4 + 1)).map (fun i => (a + 4 - i) % 4)

/-- The paths from a bellows to a chanter: the one of R23 first, then the one that enters at the other served chanter (R24). -/
def hubRoutes (p t : Nat) : List (List Nat) :=
  let lo := 2 * (p - 4)
  let hi := lo + 1
  if t = lo then [[p, lo], [p, hi, lo]]
  else if t = hi then [[p, hi], [p, lo, hi]]
  else if (t + 4 - hi) % 4 = 1 then [p :: ringUp hi t, p :: ringDown lo t]
  else [p :: ringDown lo t, p :: ringUp hi t]

/-- The paths between two dies that are no drones. -/
def coreRoutes (a b : Nat) : List (List Nat) :=
  if a = b then [[a]]
  else if a < 4 ∧ b < 4 then
    (if (b + 4 - a) % 4 = 3 then [ringDown a b, ringUp a b] else [ringUp a b, ringDown a b])
  else if a < 4 then (hubRoutes b a).map List.reverse
  else if b < 4 then hubRoutes a b
  else [[a, b]]

/-- The paths between two dies, as the dies they pass: the fixed route of R23 first, then the other way of R24. A drone is
reached through its own bellows. -/
def routes (a b : Nat) : List (List Nat) :=
  if a = b then [[a]]
  else
    let core := coreRoutes (if 6 ≤ a then a - 2 else a) (if 6 ≤ b then b - 2 else b)
    core.map (fun p => (if 6 ≤ a then [a] else []) ++ p ++ (if 6 ≤ b then [b] else []))

/-- The links of a path. -/
def pathLinks : List Nat → List Nat
  | a :: b :: ds => linkOf a b :: pathLinks (b :: ds)
  | _ => []

/-- A path passes no offline chanter on its way (R24). Before `BOOT_DONE` no chanter counts as offline for a route: routes are
then those of R23 (log entry 180). -/
def State.pathOpen (s : State) (p : List Nat) : Bool :=
  (p.drop 1).dropLast.all (fun d => decide (4 ≤ d) || s.online d || !s.bootDone)

/-- The route that traffic between two dies takes (R23, R24), as the dies it passes. -/
def State.route (s : State) (a b : Nat) : Option (List Nat) := (routes a b).find? (fun p => s.pathOpen p)

/-- A route between two dies has all its links up (R742, R866). -/
def State.routeUp (s : State) (a b : Nat) : Bool :=
  (routes a b).any (fun p => s.pathOpen p && (pathLinks p).all (fun l => !s.linksDown.contains l))

/-- The bellows through which an access of a requester enters: the TAP and other logic lie on bellows-A. -/
def entryDie : Requester → Nat
  | .host fn => fnDie fn
  | .fife b _ => if b = 5 then 5 else 4
  | _ => 4

/-- A die that is in reset or that no route reaches (R866). -/
def State.unreachable (s : State) (who : Requester) (die : Nat) : Bool :=
  decide (die < 8) && (s.inReset.contains die || !s.routeUp (entryDie who) die)

/-- Record a bad or unreachable access: cause 0 width, 1 page or offset, 2 unreachable (R865, R866, R880). -/
def State.badAccess (s : State) (who : Requester) (a cause : Nat) (write : Bool) : State :=
  let d := entryDie who
  let hi := Blk.top.at d d 0x504
  let (host, src) := match who with
    | .host fn => (1, fn % 1024)
    | w => (0, reqCode w % 1024)
  let s1 := (s.cntAdd .top d d (if cause = 2 then 0x048 else 0x040) 1).raise hi (if cause = 2 then 1 else 0)
  if s1.rbit hi 31 then s1
  else (s1.setReg (Blk.top.at d d 0x500) (BitVec.ofNat 32 (a % 2 ^ 26))).setReg hi
    (BitVec.ofNat 32 (2 ^ 31 + cause * 2 ^ 29 + b2n write * 2 ^ 28 + host * 2 ^ 27 + src))

/-- The test network lets a requester through: JTAG instruments open at debug level 1, those that reach the security unit at
level 2 (R778, R856). Other requesters pass. -/
def State.jtagPasses (s : State) (who : Requester) (a : Nat) : Bool :=
  match who with
  | .jtag =>
    (match pageBlk (a / 2 ^ 23) (a / 4096 % 2048) with
     | some (.sec, _) => decide (2 ≤ s.debugLevel)
     | _ => s.jtagOpen)
  | _ => true

/-- A register write reaches its register: a host function needs `manage`, a JTAG instrument the debug level, and the die is
reachable. Otherwise the write is counted and dropped (R650, R778, R865, R866). -/
def State.gate (s : State) (who : Requester) (a : Nat) (k : State → State) : State :=
  let filtered := match who with
    | .host fn => !s.manage fn
    | _ => false
  if filtered then s.cntAdd .host (entryDie who) (entryDie who) 0x050 1
  else if s.jtagPasses who a = false then s
  else if s.unreachable who (a / 2 ^ 23) then s.badAccess who a 2 true
  else k s

end Sys2Proof.Machine
end

