-- ==== Sys2Proof/Machine/Banks.lean ====
section
/-! DEFINITION. The memory banks: ports, owners and handover, secure banks, check bits and scrubbing (R189 to R222). -/
namespace Sys2Proof.Machine

/-- Owner a bank has after a reset (R204, R219). -/
def MemRef.resetOwner : MemRef → Nat
  | .reed _ => 1
  | .bellows _ => 2

/-- Zero the banks of a list. -/
def State.zeroBanks (s : State) (m : MemRef) (ns : List Nat) : State := ns.foldl (fun t n => t.zeroBank m n) s

/-- The owner codes a memory's banks take; all others are reserved (R197). -/
def MemRef.ownerOk (m : MemRef) (c : Nat) : Bool :=
  match m with
  | .reed _ => decide (c ≤ 2)
  | .bellows _ => decide (c = 0) || decide (c = 2) || (decide (0x40 ≤ c) && decide (c ≤ 0x7F))

/-- A PART owner code. -/
def isPartOwner (c : Nat) : Bool := decide (0x40 ≤ c) && decide (c ≤ 0x7F)

/-- A `go` is refused (R201): the bank is not OWNED; the reed runs a step or holds an exception; a unit step of the old
partition runs on the bellows and its partition owner would change. -/
def State.goRefused (s : State) (m : MemRef) (n next : Nat) : Bool :=
  let owner := s.bankOwner m n
  decide (s.bankState m n ≠ 0) || s.withdrawnBanks.contains (m.own n) ||
  (match m with
   | .reed x => (s.reed x).busy || s.rbit (m.at 0x01C) 31
   | .bellows d =>
     isPartOwner owner && decide (next ≠ owner) &&
       s.steps.any (fun e => !e.held && !e.retired && decide (e.desc.die = d) && decide (0x40 + e.desc.part = owner)))

/-- Whether a handover clears the bank (R202). -/
def handoverClears (m : MemRef) (old new : Nat) (clear : Bool) : Bool :=
  clear || (isPartOwner old && isPartOwner new && decide (old ≠ new)) ||
  (match m with | .reed _ => decide (old = 1) && decide (new ≠ 1) | .bellows _ => false)

/-- Start a handover to an owner, clearing the bank or not (R200 to R203). -/
def State.handoverGo (s : State) (m : MemRef) (n next : Nat) (clear : Bool) : State :=
  (s.setBank m n true 1 (s.bankOwner m n)).setHandover m n
    (some (.toOwner next (handoverClears m (s.bankOwner m n) next clear)))

/-- A write of a bank's ownership register (R197, R201, R219): a reserved code in `owner_next` has the write ignored; a refused
`go` sets `rejected` and changes nothing else. -/
def State.writeBankOwn (s : State) (who : Requester) (m : MemRef) (n : Nat) (v : Word) : State :=
  if m.ownerOk (fieldW v 15 8) = false then (s.noteReserved who m.blk (m.own n) v).err who m.blk (m.own n) .valueWrite
  else if v.getLsbD 0 && s.goRefused m n (fieldW v 15 8) then
    ((s.noteReserved who m.blk (m.own n) v).setFld (m.own n) 30 30 1).err who m.blk (m.own n) .valueWrite
  else
    let s1 := s.writeFields who m.blk (m.own n) (m.own n) v
    if v.getLsbD 0 then s1.handoverGo m n (s1.fld (m.own n) 15 8) (s1.rbit (m.own n) 1) else s1

/-- The secure map of a bellows: its 64 bits (R205). -/
def State.secureMap (s : State) (die : Nat) : Nat :=
  (s.reg (Blk.sec.at die die 0x200)).toNat + 2 ^ 32 * (s.reg (Blk.sec.at die die 0x204)).toNat

/-- Keep the count of secure banks and wipe_busy of SEC_SBANK_STATUS (R222). -/
def State.secureStatus (s : State) (die : Nat) : State :=
  let m := MemRef.bellows die
  let n := (List.range 64).countP (fun b => decide (s.bankState m b = 3))
  let w := (List.range 64).any (fun b =>
    (decide (s.bankState m b = 3) && s.rbit (m.own b) 31) ||
    (decide (s.bankState m b = 2) && decide (s.handoverOf m b = some .toSecure)))
  s.setReg (Blk.sec.at die die 0x208) (BitVec.ofNat 32 (b2n w * 2 ^ 31 + n))

/-- Whether a physical range of `n` bytes touches bank `b` of a memory. -/
def MemRef.touches (m : MemRef) (b p n : Nat) : Bool :=
  decide (p < m.phys (b * m.bankBytes) + m.bankBytes) && decide (m.phys (b * m.bankBytes) < p + n)

/-- A tile that a tongue engine has issued still moves bytes of a bank: its slot or its source lies there (R200, R202). -/
def Engine.inBank (e : Engine) (x : ReedRef) (m : MemRef) (b : Nat) : Bool :=
  e.tiles.any (fun t => !t.landed && (m.touches b t.phys 4096 || m.touches b (reedSram x t.slot) 4096)) ||
  e.writes.any (fun w => m.touches b w.phys 4096 || m.touches b (reedSram x w.src) 4096)

/-- An accepted access to a bank has not completed (R202). -/
def State.bankInFlight (s : State) (m : MemRef) (b : Nat) : Bool :=
  s.reeds.any (fun q => q.2.w.inBank (reedOfNo q.1) m b || q.2.a.inBank (reedOfNo q.1) m b)

/-- A drained bank: CLEARING where a clear applies, else OWNED by the new owner (R200, R202, R207). -/
def State.bankDrained (s : State) (m : MemRef) (n : Nat) : State :=
  if s.bankState m n ≠ 1 ∨ s.bankInFlight m n = true then s
  else match s.handoverOf m n with
    | some (.toOwner o false) => (s.setBank m n false 0 o).setHandover m n none
    | some (.toOwner o true) => s.setBank m n true 2 o
    | some .toSecure => (s.setBank m n true 2 0).secureStatus m.die
    | none => s

/-- A clearing bank has been zeroed and becomes OWNED by the new owner (R200, R202). -/
def State.bankCleared (s : State) (m : MemRef) (n : Nat) : State :=
  if s.bankState m n ≠ 2 then s
  else match s.handoverOf m n with
    | some (.toOwner o _) => ((s.zeroBank m n).setBank m n false 0 o).setHandover m n none
    | _ => s

/-- One bank of a bellows whose wipe completes (R207, R208): SECURE while the map names it, else OWNED by FIFE. -/
def State.wipeBank (s : State) (die n : Nat) : State :=
  let m := MemRef.bellows die
  let wiping := (decide (s.bankState m n = 3) && s.rbit (m.own n) 31) ||
    (decide (s.bankState m n = 2) && decide (s.handoverOf m n = some .toSecure))
  if wiping = false then s
  else
    let s1 := (s.zeroBank m n).setHandover m n none
    if (s.secureMap die).testBit n then s1.setBank m n false 3 0 else s1.setBank m n false 0 2

/-- Complete the wipes of a bellows. -/
def State.wipeDone (s : State) (die : Nat) : State :=
  ((List.range 64).foldl (fun t n => t.wipeBank die n) s).secureStatus die

/-- Start the wipe of every SECURE bank of a bellows; a wipe in progress absorbs it (R208). -/
def State.wipeStart (s : State) (die : Nat) : State :=
  let m := MemRef.bellows die
  ((List.range 64).foldl (fun t n => if t.bankState m n = 3 then t.setBank m n true 3 0 else t) s).secureStatus die

/-- Start the wipe of every secure bank of both bellows (R208). -/
def State.wipeSecure (s : State) : State := (s.wipeStart 4).wipeStart 5

/-- One bank of a bellows under a new secure map: a bank that is being cleared goes on being cleared, for the map (R200, R205,
R207). -/
def State.mapBank (s : State) (die old new n : Nat) : State :=
  let m := MemRef.bellows die
  if new.testBit n ∧ ¬ old.testBit n ∧ s.bankState m n ≠ 3 then
    (if s.bankState m n = 2 then s.setBank m n true 2 0 else s.setBank m n true 1 (s.bankOwner m n)).setHandover m n (some .toSecure)
  else if old.testBit n ∧ ¬ new.testBit n ∧ s.bankState m n = 3 then s.setBank m n true 3 0
  else s

/-- A write of half of the secure map (R205 to R207). -/
def State.writeSecureMap (s : State) (who : Requester) (die : Nat) (hi : Bool) (v : Word) : State :=
  let off := if hi then 0x204 else 0x200
  let old := s.secureMap die
  let new := if hi then old % 2 ^ 32 + 2 ^ 32 * v.toNat else old / 2 ^ 32 * 2 ^ 32 + v.toNat
  if s.bootDone = false ∧ 4 < popcount 64 new then s.refuseWrite who .sec die die off v
  else
    let s1 := s.writeAt who .sec die die off v
    ((List.range 64).foldl (fun t n => t.mapBank die old (s1.secureMap die) n) s1).secureStatus die

/-! ### Errors and scrubbing -/

/-- Write back one corrected word, unless it has been written in the meantime or is uncorrectable (R213). -/
def State.writeBack (s : State) (m : MemRef) (off : Nat) : State :=
  if s.badByte (m.phys off) ∨ s.flipOf (m.phys off) = 0 then s else s.settle (m.phys off)

/-- Record the error of one word that a read of a memory has met, if it has one (R213). -/
def State.eccWord (s : State) (m : MemRef) (off : Nat) (byScrub : Bool) : State :=
  let syn := syndrome (s.flipOf (m.phys off))
  let row := off / 128
  if syn = 0 then s
  else s.eccRecord m.blk m.die m.inst (row / m.rows) (row % m.rows) (off / 8 % 16) syn byScrub

/-- Scrub the first `n` words of a row (R214): errors are recorded and counted, correctable words rewritten. -/
def State.scrubWords (s : State) (m : MemRef) (off : Nat) : Nat → State
  | 0 => s
  | n + 1 => ((State.scrubWords s m off n).eccWord m (off + 8 * n) true).writeBack m (off + 8 * n)

/-- The rows a scrubber has left to read. -/
def State.scrubRows (s : State) (m : MemRef) : Nat := SMap.get (fun _ => 0) s.scrubLeft (m.at 0)

/-- Breaths between the pass starts of a memory's scrubber (R221). -/
def State.passBreaths (s : State) (m : MemRef) : Nat :=
  s.fld (match m with | .reed _ => m.at 0x1A4 | .bellows _ => m.at 0x508) 15 0

/-- A pass is due: `pass_breaths` breaths have gone by since the last one started (R214). The spec gives the first pass after a
reset no breath: it may start at once (DESIGN CHOICE, log entry 190). -/
def State.passDue (s : State) (m : MemRef) : Bool :=
  match SMap.get (fun _ => none) s.scrubSeen (m.at 0) with
  | none => true
  | some b => decide (b + s.passBreaths m ≤ s.breath.number)

/-- Set the rows left. -/
def State.setScrub (s : State) (m : MemRef) (n : Nat) : State :=
  { s with scrubLeft := SMap.set (fun _ => 0) s.scrubLeft (m.at 0) n }

/-- The scrub control register of a memory (R221). -/
def MemRef.scrubCtrl : MemRef → Nat
  | .reed x => (MemRef.reed x).at 0x1A4
  | .bellows d => (MemRef.bellows d).at 0x508

/-- The recorded error's valid register. -/
def MemRef.eccHi : MemRef → Nat
  | .reed x => (MemRef.reed x).at 0x1A0
  | .bellows d => (MemRef.bellows d).at 0x504

/-- Errors that have struck a row: (word, error pattern). -/
def State.strike (s : State) (m : MemRef) (row : Nat) (ups : List (Nat × Nat)) : State :=
  ups.foldl (fun t u =>
    let p := m.phys (row * 128 + u.1 % 16 * 8) / 8
    { t with flip := SMap.upd (fun _ => 0) t.flip p (fun x => x ^^^ (u.2 % 2 ^ 72)) }) s

/-! ### The commands -/

/-- BANK_PORT1_GRANT (R193, R194): the cycles waited are counted, and the grant goes to the first waiting requester after
the one granted last. Requesters: reed Horn 0, tongue A 1, tongue W 2, DMA 3; bellows units 0, host 1, DMA 2. -/
def execBankPort1Grant (m : MemRef) (n : Nat) (waiting : List Nat) (cycles : Nat) (s : State) : Res :=
  let k := match m with | .reed _ => 4 | .bellows _ => 3
  let last := SMap.get (fun _ => 0) s.portLast (m.own n)
  let order := (List.range k).map (fun i => (last + i) % k)
  .next (match order.find? (fun q => waiting.contains q) with
    | none => s
    | some g =>
      let s1 := s.cntAdd m.blk m.die m.inst (match m with | .reed _ => 0x068 | .bellows _ => 0x0F0) cycles
      { s1 with portLast := SMap.set (fun _ => 0) s1.portLast (m.own n) (g + 1) })

/-- ECC_WRITEBACK (R213). -/
def execEccWriteback (m : MemRef) (off : Nat) (s : State) : Res := .next (s.writeBack m off)

/-- SCRUB_PASS_START (R214, R221): every `pass_breaths` breaths; a pass that has not finished makes the scrubber late and is finished first. -/
def execScrubPassStart (m : MemRef) (s : State) : Res :=
  .next (if s.rbit m.scrubCtrl 16 = false ∨ s.passDue m = false then s
    else
      let left := s.scrubRows m
      let s0 : State := { s with scrubSeen := SMap.set (fun _ => none) s.scrubSeen (m.at 0) (some s.breath.number) }
      let s1 := if left = 0 then s0
        else s0.cntAdd m.blk m.die m.inst (match m with | .reed _ => 0x1A8 | .bellows _ => 0x510) 1
      s1.setScrub m (left + m.banks * m.rows))

/-- SCRUB_ROW_READ (R214, R221): the next row of the pass, while the scrubber is enabled; `upsets` are the errors that have struck its words since. A bank in
CLEARING or being wiped is skipped. -/
def execScrubRowRead (m : MemRef) (upsets : List (Nat × Nat)) (s : State) : Res :=
  let left := s.scrubRows m
  let total := m.banks * m.rows
  let row := (total - left % total) % total
  let b := row / m.rows
  .next (if left = 0 ∨ s.rbit m.scrubCtrl 16 = false then s
    else
      let s1 := s.setScrub m (left - 1)
      if s.bankState m b = 2 ∨ (s.bankState m b = 3 ∧ s.rbit (m.own b) 31 = true) then s1
      else (s1.strike m row upsets).scrubWords m (row * 128) 16)

/-- ECC_ADDR_CLEAR (R220): a 1 in valid clears the whole record. -/
def execEccAddrClear (who : Requester) (m : MemRef) (value : Word) (s : State) : Res :=
  .next (s.gate who (m.eccHi) (fun s =>
    let s1 := s.writeFields who m.blk m.eccHi m.eccHi value
    (if value.getLsbD 31 = false then s1
    else match m with
      | .reed _ => s1.setReg m.eccHi 0
      | .bellows d => (s1.setReg m.eccHi 0).setReg ((MemRef.bellows d).at 0x500) 0)))

/-- BANK_HANDOVER_GO (R200 to R203, R219). -/
def execBankHandoverGo (who : Requester) (m : MemRef) (n : Nat) (value : Word) (s : State) : Res :=
  .next (s.gate who (m.own n) (fun s =>
    (if n < m.banks then s.writeBankOwn who m n value else s)))

/-- BANK_DRAIN_DONE (R200, R202). -/
def execBankDrainDone (m : MemRef) (n : Nat) (s : State) : Res := .next (s.bankDrained m n)

/-- BANK_CLEAR_DONE (R200, R202). -/
def execBankClearDone (m : MemRef) (n : Nat) (s : State) : Res := .next (s.bankCleared m n)

/-- SBANK_MASK_WRITE (R205 to R207). -/
def execSbankMaskWrite (who : Requester) (die : Nat) (hi : Bool) (value : Word) (s : State) : Res :=
  .next (s.gate who (Blk.sec.at die die (if hi then 0x204 else 0x200)) (fun s =>
    (if isBellows die then s.writeSecureMap who die hi value else s)))

/-- An accepted unlock opens debug once every wipe is complete (R780). -/
def State.unlockOpen (s : State) : State :=
  match s.sec.unlocking with
  | none => s
  | some l =>
    if s.rbit (Blk.sec.at 4 4 0x208) 31 = true ∨ s.rbit (Blk.sec.at 5 5 0x208) 31 = true then s
    else
      let a := Blk.sec.at 4 4 0x110
      { s with sec := { s.sec with unlocking := none, opened := l } }.setFld a 30 30 1

/-- SECURE_WIPE_DONE (R207, R208). -/
def execSecureWipeDone (die : Nat) (s : State) : Res := .next (if isBellows die then (s.wipeDone die).unlockOpen else s)

end Sys2Proof.Machine
end

