-- ==== Sys2Proof/Machine/Mail.lean ====
section
/-! DEFINITION. The host interface: functions, doorbells, mailboxes, the completion queue, function-level reset and the
frame of host commands (R642 to R679). -/
namespace Sys2Proof.Machine

/-! ### Functions -/

/-- The function is enabled (R645). -/
def State.fnEnabled (s : State) (f : Nat) : Bool :=
  let pf := s.pfOf f
  decide (f < 1024) &&
    (decide (f = pf) || ((s.fn pf).vfEnable && decide (f - pf ≤ (s.fn pf).numVfs)))

/-- HOST_FSTATUS of a function (R674). -/
def State.fstatus (s : State) (f : Nat) : Word :=
  let x := s.fn f
  BitVec.ofNat 32 (b2n x.flr * 2 ^ 31 + b2n (s.fnEnabled f) * 2 ^ 30 + b2n x.busMaster * 2 ^ 29 +
    b2n x.pasidEn * 2 ^ 28 + b2n x.atsEn * 2 ^ 27)

/-- The register of a bellows's MBX_ block. -/
def mbx (die off : Nat) : Nat := Blk.mbx.at die die off

/-- `ready` of a bellows (R677). -/
def State.mbxReady (s : State) (die : Nat) : Bool := s.rbit (mbx die 0x008) 0

/-- TOP_FAULT_STATE reports `FATAL`, on bellows-A (R745, R763). -/
def State.isFatal (s : State) : Bool := decide (s.fld (Blk.top.at 4 4 0x300) 31 30 = 2)

/-! ### Host memory -/

/-- Whether the device's writes for a function go out now (R667, R668). -/
def State.canWriteHost (s : State) (f : Nat) : Bool := (s.fn f).busMaster && !(s.fn f).flr

/-- Write bytes to host memory for a function; its payload bytes are counted. -/
def State.hostWrite (s : State) (f a : Nat) (bs : List Byte) : State :=
  let s1 := { s with hostMem := s.hostMem.setBytes a bs }
  s1.cntAdd .host (fnDie f) (fnDie f) 0x038 bs.length

/-! ### Device to host channel -/

/-- Kind of a notice (R659). -/
def Notice.kind (n : Notice) : Nat := bits n.flags 14 12

/-- The 16 bytes of a notice (R652). -/
def Notice.bytes (n : Notice) : List Byte :=
  leBytes 8 n.addr ++ leBytes 4 n.len ++ leBytes 2 n.tag ++ leBytes 2 n.flags

/-- The vector named for a kind in F2H_VEC (R673). -/
def Fn.vector (x : Fn) (kind : Nat) : Option Nat :=
  if kind = 1 then some (fieldW x.vec 5 0)
  else if kind = 2 then some (fieldW x.vec 13 8)
  else if kind = 3 then some (fieldW x.vec 21 16)
  else if kind = 4 then some (fieldW x.vec 29 24)
  else none

/-- A notice of a kind becomes readable: its vector, when armed, sends its message and is disarmed; a masked vector
becomes pending (R663). -/
def State.msixRaise (s : State) (f kind : Nat) : State :=
  let x := s.fn f
  match x.vector kind with
  | none => s
  | some v =>
    if x.msixEn = false ∨ x.disarmed.contains v then s
    else
      let x1 := { x with disarmed := v :: x.disarmed }
      if x.msixMask ∨ (SMap.get (fun _ => 0) x.msix (4 * v + 3)).getLsbD 0 then
        s.setFn f { x1 with pba := if x.pba.contains v then x.pba else v :: x.pba }
      else { (s.setFn f x1) with msixSent := s.msixSent ++ [(f, v)] }

/-- Notices of a channel that are not replies: 64 slots serve them (R653). -/
def Fn.others (x : Fn) : Nat := x.f2h.countP (fun n => decide (n.kind ≠ 1))

/-- Put a notice at the end of the F2H channel (R653, R659). -/
def State.f2hPush (s : State) (f : Nat) (n : Notice) : State :=
  let x := s.fn f
  let s1 := (s.setFn f { x with f2h := x.f2h ++ [n] }).cntAdd .mbx (fnDie f) (fnDie f) 0x038 1
  if (s1.fn f).cfg.getLsbD 8 then s1 else s1.msixRaise f n.kind

/-- Whether a notice that is no reply finds a slot now. -/
def State.f2hRoom (s : State) (f : Nat) : Bool := decide ((s.fn f).others < 64)

/-- The abort record of a discarded notice (R665, R676). -/
def abortRec (f : Nat) (n : Notice) : Word :=
  BitVec.ofNat 32 (2 ^ 31 + n.kind * 2 ^ 28 + f % 1024 * 2 ^ 16 + n.tag % 2 ^ 16)

/-- Queue an abort record; a full queue drops it (R665, R666). -/
def State.abort (s : State) (f : Nat) (n : Notice) : State :=
  let d := fnDie f
  let s1 := s.cntAdd .mbx d d 0x048 1
  let q := if d = 4 then s1.abortsA else s1.abortsB
  if 1024 ≤ q.length then s1.raise (mbx d 0) 3
  else
    let q' := q ++ [abortRec f n]
    (if d = 4 then { s1 with abortsA := q' } else { s1 with abortsB := q' }).raise (mbx d 0) 2

/-- Send a notice of firmware that is no reply: it waits, in order, until a slot frees (R662); a function that is not
enabled or in FLR has it discarded with an abort record (R665, R666). -/
def State.sendNotice (s : State) (f : Nat) (n : Notice) : State :=
  if s.fnEnabled f = false then s
  else if (s.fn f).flr then s.abort f n
  else if s.f2hRoom f && !(s.fwNotices.any (fun e => decide (e.1 = f))) then s.f2hPush f n
  else { s with fwNotices := s.fwNotices ++ [(f, n)] }

/-- An event notice (R672). -/
def State.event (s : State) (f code addr : Nat) : State := s.sendNotice f { addr := addr, len := code, tag := 0, flags := 0x4000 }

/-- Let the oldest notice that firmware keeps for a function enter its channel when a slot is free (R662). -/
def State.drainFw (s : State) (f : Nat) : State :=
  match s.fwNotices.find? (fun e => decide (e.1 = f)) with
  | none => s
  | some e =>
    if s.f2hRoom f then
      { s with fwNotices := s.fwNotices.erase e }.f2hPush f e.2
    else s

/-! ### Host to device channel (R654 to R658) -/

/-- Bytes merged into the 16 bytes of the doorbell, from offset `off`. -/
def mergeBytes (old off : Nat) : List Byte → Nat
  | [] => old
  | b :: bs => mergeBytes (withBits old (8 * off + 7) (8 * off) b.toNat) (off + 1) bs

/-- The notice of 16 bytes (R652). -/
def noticeOf (v : Nat) : Notice :=
  { addr := bits v 63 0, len := bits v 95 64, tag := bits v 111 96, flags := bits v 127 112 }

/-- The slots of a function that are free. -/
def Fn.freeSlots (x : Fn) : List Nat := (List.range 64).filter (fun k => !(x.h2f.any (fun e => decide (e.slot = k))))

/-- Post a notice, or drop it (R655, R656). Which free slot it takes is left open: a free value chooses. -/
def State.post (s : State) (f : Nat) (n : Notice) : State :=
  let d := fnDie f
  let x := s.fn f
  let fs := x.freeSlots
  if fs = [] ∨ s.mbxReady d = false ∨ x.flr then
    ((s.setFn f { x with int := x.int ||| 1 }).cntAdd .mbx d d 0x040 1).raise (mbx d 0) 1
  else
    let (r, s1) := s.free 6
    let slot := fs.getD (r % fs.length) 0
    (s1.setFn f { x with h2f := x.h2f ++ [{ slot := slot, note := n }] }).raise (mbx d 0) 0

/-- Functions of a port with a notice that has not been taken. -/
def State.waiting (s : State) (die : Nat) : List Nat :=
  (s.fns.filter (fun e => decide (fnDie e.1 = die) && e.2.h2f.any (fun h => !h.taken))).map (fun e => e.1)

/-- The function served next: the first after the one served last, in rotation by number (R657). -/
def State.nextFn (s : State) (die : Nat) : Option Nat :=
  let w := s.waiting die
  let last := SMap.get (fun _ => 0) s.mbxLast die
  match w.find? (fun f => decide (last ≤ f)) with
  | some f => some f
  | none => w.head?

/-- Discard a notice of the H2F channel whose slot holds an uncorrectable word, with an abort reply as of R664 (R719). -/
def State.discardH2f (s : State) (f : Nat) (h : H2F) : State :=
  let x := s.fn f
  let s1 := s.setFn f { x with h2f := x.h2f.erase h }
  (if x.flr then s1 else s1.f2hPush f { addr := 0, len := 0, tag := h.note.tag, flags := 0x9000 }).cntAdd .mbx (fnDie f) (fnDie f) 0x048 1

/-- Discard the oldest notice of the F2H channel, whose slot holds an uncorrectable word, with an abort record (R665, R719). -/
def State.discardF2h (s : State) (f : Nat) : State :=
  let x := s.fn f
  match x.f2h with
  | [] => s
  | n :: rest => ((s.setFn f { x with f2h := rest }).abort f n).drainFw f

/-- Take the next notice (R657). One in a bad slot is discarded, and the take gives none (R719; log entry 204). -/
def State.take (s : State) (die : Nat) (bad : Bool) : State :=
  match if s.sec.pendingReset then none else s.nextFn die with
  | none => { (s.setReg (mbx die 0x110) 0) with readData := 0 }
  | some f =>
    let x := s.fn f
    match x.h2f.find? (fun h => !h.taken) with
    | none => s
    | some h =>
      if bad then { ((s.discardH2f f h).setReg (mbx die 0x110) 0) with readData := 0 }
      else
      let s1 := s.setFn f { x with h2f := x.h2f.map (fun e => if e = h then { e with taken := true } else e) }
      let s2 := (s1.setReg (mbx die 0x110) (BitVec.ofNat 32 (2 ^ 31 + h.slot * 2 ^ 16 + f))).cntAdd .mbx die die 0x030 1
      { s2 with
        mbxLast := SMap.set (fun _ => 0) s2.mbxLast die (f + 1)
        readData := h.note.tag + 2 ^ 16 * h.note.flags }

/-- The notice in MBX_SEND0 to 3 (R676). -/
def State.sendRegs (s : State) (die : Nat) : Notice :=
  noticeOf ((s.reg (mbx die 0x120)).toNat + 2 ^ 32 * (s.reg (mbx die 0x124)).toNat +
    2 ^ 64 * (s.reg (mbx die 0x128)).toNat + 2 ^ 96 * (s.reg (mbx die 0x12C)).toNat)

/-- A write of MBX_SEND3: send the staged notice or reply and report in MBX_SEND_STATUS (R658, R665, R666, R676). -/
def State.sendGo (s : State) (die : Nat) : State :=
  let ctl := mbx die 0x130
  let f := s.fld ctl 9 0
  let slot := s.fld ctl 21 16
  let n := s.sendRegs die
  let x := s.fn f
  let st (t : State) (c : Nat) : State := t.setFld (mbx die 0x134) 1 0 c
  let free (t : State) : State := t.setFn f { t.fn f with h2f := (t.fn f).h2f.filter (fun h => decide (h.slot ≠ slot)) }
  if s.rbit ctl 31 then
    match x.h2f.find? (fun h => decide (h.slot = slot) && h.taken) with
    | none => st s 3
    | some h =>
      if s.fnEnabled f = false then st (free s) 2
      else if x.flr then st ((free s).abort f n) 2
      else if h.doomed then st (free s) 2
      else st ((free s).f2hPush f n) 0
  else if s.fnEnabled f = false then st s 2
  else if x.flr then st (s.abort f n) 2
  else if s.f2hRoom f then st (s.f2hPush f n) 0
  else st s 1

/-! ### Aborts and function-level reset (R664 to R667) -/

/-- Abort replies and freed slots of one function at a firmware restart (R664). -/
def State.restartFn (s : State) (f : Nat) : State :=
  let x := s.fn f
  let live := x.h2f.filter (fun h => !h.doomed)
  let s1 := s.setFn f { x with h2f := [] }
  if x.flr then live.foldl (fun t _ => t.cntAdd .mbx (fnDie f) (fnDie f) 0x048 1) s1
  else live.foldl (fun t h =>
    (t.f2hPush f { addr := 0, len := b2n h.taken, tag := h.note.tag, flags := 0x9000 }).cntAdd .mbx (fnDie f) (fnDie f) 0x048 1) s1

/-- Notices of a port that a restart aborts. -/
def State.abortable (s : State) (die : Nat) : Nat :=
  (s.fns.map (fun e => if fnDie e.1 = die then e.2.h2f.countP (fun h => !h.doomed) else 0)).sum

/-- A firmware restart on a bellows (R664). -/
def State.firmwareRestart (s : State) (die : Nat) : State :=
  let n := s.abortable die
  let s1 := s.setFld (mbx die 0x008) 0 0 0
  let s2 := (s1.fns.filter (fun e => decide (fnDie e.1 = die))).foldl (fun t e => t.restartFn e.1) s1
  { s2 with restarted := SMap.set (fun _ => 0) s2.restarted die (n + 1) }

/-- The functions of a port that are enabled. -/
def State.enabledFns (s : State) (die : Nat) : List Nat :=
  ((List.range 512).map (fun i => 512 * (die - 4) + i)).filter (fun f => s.fnEnabled f)

/-- Event 0x06 to every enabled function of a bellows that resumes after a firmware restart (R664, R672). -/
def State.announceRestart (s : State) (die : Nat) : State :=
  let n := SMap.get (fun _ => 0) s.restarted die
  if n = 0 ∨ s.mbxReady die = false then s
  else
    (s.enabledFns die).foldl (fun t f => t.event f 0x06 (n - 1))
      { s with restarted := SMap.set (fun _ => 0) s.restarted die 0 }

/-- Event 0x07 to every enabled function of a bellows whose firmware resumes after a warm reset (R672, R816). -/
def State.announceReset (s : State) (die : Nat) : State :=
  if s.pwr.announce.contains die = false ∨ s.mbxReady die = false then s
  else
    (s.enabledFns die).foldl (fun t f => t.event f 0x07 0)
      { s with pwr := { s.pwr with announce := s.pwr.announce.filter (fun d => decide (d ≠ die)) } }

/-- Boot ends when `ready` is set on both bellows: the device is `ON` (R825, R844). -/
def State.bootEnd (s : State) : State :=
  if s.pwr.state = .booting ∧ s.mbxReady 4 = true ∧ s.mbxReady 5 = true then
    { s with pwr := { s.pwr with state := .on } }.ibi 6
  else s

/-- Clear a function's channels (R665). -/
def State.clearChannels (s : State) (f : Nat) : State :=
  let x := s.fn f
  let keep := (x.h2f.filter (fun h => h.taken)).map (fun h => { h with doomed := true })
  let kept := s.fwNotices.filter (fun e => decide (e.1 = f))
  let s1 := { s.setFn f { x with h2f := keep, f2h := [] } with
    fwNotices := s.fwNotices.filter (fun e => decide (e.1 ≠ f)) }
  (x.f2h ++ kept.map (fun e => e.2)).foldl (fun t n => t.abort f n) s1

/-- Discard the completion-queue entries the host has not taken: their notices are not kept, so their records carry the
entry as it was written to host memory (R665). -/
def State.clearQueue (s : State) (f : Nat) : State :=
  let x := s.fn f
  let k := fieldW x.cfg 4 0
  if x.cfg.getLsbD 8 = false then s
  else
    (List.range (min (serialDiff x.cqTail x.cqHead) (2 ^ k))).foldl (fun t i =>
      t.abort f (noticeOf (t.hostMem.le (x.cqBase + (x.cqHead + i) % 2 ^ k * 16) 16))) s

/-- Start a function-level reset of one function (R665, R667). -/
def State.flrOne (s : State) (f : Nat) : State :=
  let s1 := (s.clearQueue f).clearChannels f
  s1.setFn f { s1.fn f with flr := true, flrEdge := true }

/-- The virtual functions of a physical function's link that are enabled. -/
def State.vfsOf (s : State) (f : Nat) : List Nat :=
  if s.pfOf f = f then ((List.range 512).map (fun i => f + 1 + i)).filter (fun v => decide (s.pfOf v = f) && s.fnEnabled v)
  else []

/-- Initiate FLR: that of a physical function clears VF Enable and resets its virtual functions (R667). -/
def State.flr (s : State) (f : Nat) : State :=
  if s.fnEnabled f = false then s
  else
    let s1 := (s.vfsOf f).foldl (fun t v => t.flrOne v) (s.flrOne f)
    s1.setFn f { s1.fn f with vfEnable := false }

/-- Complete an FLR: BAR2 registers and configuration space take their reset values (R667). -/
def State.flrComplete (s : State) (f : Nat) : State :=
  let x := s.fn f
  if x.flr = false then s
  else
    let d := fnDie f
    let s1 := s.setFn f { ({} : Fn) with h2f := x.h2f, flrEdge := x.flrEdge, sel := x.sel, aer := x.aer }
    (s1.cntAdd .host d d 0x058 1).raise (Blk.host.at d d 0) 2

/-- Reset every function of a port (R667). -/
def State.portReset (s : State) (port : Nat) : State :=
  if s.bifurcated (4 + port) then (s.flr (512 * port)).flr (512 * port + 256) else s.flr (512 * port)

/-! ### The frame of host commands (R669, R670) -/

/-- A field of a command's payload: `n` bytes from `off`. -/
def HCmd.fld (c : HCmd) (off n : Nat) : Nat := leOf ((c.payload.drop off).take n)

/-- An earlier command with the same tag is outstanding on the function (R654). -/
def State.dupTag (s : State) (c : HCmd) : Bool :=
  match c.slot with
  | none => false
  | some k => ((s.fn c.fn).h2f.takeWhile (fun h => decide (h.slot ≠ k))).any (fun h => decide (h.note.tag = c.tag) && !h.doomed)

/-- The statuses common to every command, with their detail (R670). -/
def State.hostCheck (s : State) (c : HCmd) (size : Nat) (mgmt : Bool) : Option (Nat × Nat) :=
  if s.dupTag c then some (0xF1, 0xD0)
  else if c.tag = 0 ∨ c.flagsHi ≠ 0 ∨ c.len ≠ size ∨ c.addr % 8 ≠ 0 then some (0xF1, 0)
  else if c.fault ∨ (s.fn c.fn).busMaster = false ∨ c.payload.length ≠ size then some (0xF2, 0)
  else if mgmt && !s.manage c.fn then some (0xF3, 0)
  else none

/-- The reply firmware forms for a command (R658). -/
def State.answer (s : State) (c : HCmd) (status detail addr : Nat) : State :=
  { s with reply := { fn := c.fn, status := status, detail := detail, addr := addr } }

/-- Answer with a reply block at `ra` in host memory (R669): a block that cannot be written is a payload fault. -/
def State.answerBlock (s : State) (c : HCmd) (ra : Nat) (block : List Byte) (addr : Nat) : State :=
  if ra % 8 ≠ 0 ∨ s.canWriteHost c.fn = false then s.answer c 0xF2 0 0
  else (s.hostWrite c.fn ra block).answer c 0 0 addr

/-- Run a command's own part when the common checks pass. -/
def State.hostRun (s : State) (c : HCmd) (size : Nat) (mgmt : Bool) (k : State → State) : State :=
  match s.hostCheck c size mgmt with
  | some (st, d) => s.answer c st d 0
  | none => k (s.cntAdd .host (fnDie c.fn) (fnDie c.fn) 0x030 size)

/-! ### BAR4 (R651) -/

/-- `bar4_base` and size of a function's BAR4. -/
def State.bar4 (s : State) (f : Nat) : Nat × Nat :=
  let d := fnDie f
  let a := Blk.host.at d d 0x120
  let lg := if s.pfOf f = f then s.fld (Blk.host.at d d 0x108) 5 0 else s.fld (Blk.host.at d d 0x108) 13 8
  (s.fld (bank a (f % 512)) 31 12 * 4096 + s.fld (bank (a + 4) (f % 512)) 15 0 * 2 ^ 32, if lg = 0 then 0 else 2 ^ lg)

/-- The bytes of physical memory a host access reaches, or none where it is refused: DRAM under the windows, a bellows
bank under its owner; register space and reed SRAM are refused, and everything while boot has halted (R770). -/
def State.bar4Xlat (s : State) (f : Nat) (write : Bool) (a n : Nat) : Option (List Nat) :=
  if s.pwr.halted = true ∨ (sramBase ≤ a ∧ (bits (sramOff a) 34 32 < 4 ∨ sramBase + 0x600000000 ≤ a + n)) then none
  else s.xlat (.host f) (some (s.fnPart f)) write a n

/-- A BAR4 access of the bytes of `data` (their values count for a write only). -/
def State.bar4Access (s : State) (f off : Nat) (write : Bool) (data : List Byte) : State :=
  let d := fnDie f
  let n := data.length
  let (base, size) := s.bar4 f
  let refuse (t : State) : State := { ((t.cntAdd .host d d 0x040 1).raise (Blk.host.at d d 0) 1) with readData := 0 }
  if s.fnEnabled f = false ∨ (s.fn f).flr ∨ size < off + n then s
  else match s.bar4Xlat f write (base + off) n with
    | none =>
      let s1 := if base + off < sramBase ∧ (s.physRange (.host f) (some (s.fnPart f)) (base + off) n).isSome
        then s.windowRefused (.host f)
        else if sramBase ≤ base + off ∧ (bits (sramOff (base + off)) 34 32 = 4 ∨ bits (sramOff (base + off)) 34 32 = 5)
        then s.cntAdd .mgmt (bits (sramOff (base + off)) 34 32) (bits (sramOff (base + off)) 34 32) 0x0F8 1
        else s
      refuse s1
    | some ps =>
      if write then
        if s.partialBad ps then refuse (s.notePartial ps)
        else ((s.notePartial ps).writePhys ps data).cntAdd .host d d 0x030 n
      else
        let s1 := { s.noteWords ps with readData := leOf (s.readPhys ps) }.cntAdd .host d d 0x038 n
        if s.anyBad ps then (s1.cntAdd .host d d 0x048 1).raise (Blk.host.at d d 0) 0 else s1

/-! ### The commands -/

/-- H2F_STAGE (R655). -/
def execH2fStage (fn off : Nat) (data : List Byte) (s : State) : Res :=
  .next (if s.fnEnabled fn ∧ off + data.length ≤ 12 then
    s.setFn fn { s.fn fn with stage := mergeBytes (s.fn fn).stage off data } else s)

/-- DOORBELL: a write that covers bytes 12 to 15 (R655, R656). -/
def execDoorbell (fn off : Nat) (data : List Byte) (s : State) : Res :=
  let v := mergeBytes (s.fn fn).stage off data
  .next (if s.fnEnabled fn = false ∨ 12 < off ∨ off + data.length ≠ 16 then s
    else (s.setFn fn { s.fn fn with stage := v % 2 ^ 96 }).post fn (noticeOf v))

/-- MBX_TAKE: a read of MBX_TAKE3 (R657). -/
def execMbxTake (die : Nat) (s : State) (bad : Bool := false) : Res := .next (if isBellows die then s.take die bad else s)

/-- MBX_SEND_NOTICE: a write of MBX_SEND3 while `reply` is 0 (R659, R676). -/
def execMbxSendNotice (who : Requester) (die : Nat) (value : Word) (s : State) : Res :=
  .next (s.gate who (mbx die 0x12C) (fun s =>
    (if isBellows die then (s.writeAt who .mbx die die 0x12C value).sendGo die else s)))

/-- MBX_SEND_REPLY: a write of MBX_SEND3 while `reply` is 1 (R658, R676). -/
def execMbxSendReply (who : Requester) (die : Nat) (value : Word) (s : State) : Res :=
  .next (s.gate who (mbx die 0x12C) (fun s =>
    (if isBellows die then (s.writeAt who .mbx die die 0x12C value).sendGo die else s)))

/-- F2H_TAKE: a host read that covers the last word of the mailbox page (R660). -/
def execF2hTake (fn : Nat) (s : State) (bad : Bool := false) : Res :=
  let x := s.fn fn
  .next (if x.cfg.getLsbD 8 then { s with readData := 0 }
    else if bad then { s.discardF2h fn with readData := 0 }
    else match x.f2h with
      | [] => { s with readData := 0 }
      | n :: rest => { (s.setFn fn { x with f2h := rest }).drainFw fn with readData := leOf n.bytes })

/-- CQ_WRITE: queue mode moves the oldest notice into the completion queue (R661, R668). -/
def execCqWrite (fn : Nat) (s : State) (bad : Bool := false) : Res :=
  let x := s.fn fn
  let k := fieldW x.cfg 4 0
  .next (match x.f2h with
    | [] => s
    | n :: rest =>
      if x.cfg.getLsbD 8 = false ∨ s.canWriteHost fn = false ∨ 2 ^ k ≤ serialDiff x.cqTail x.cqHead then s
      else if bad then s.discardF2h fn
      else
        let phase := (x.cqTail / 2 ^ k % 2) ^^^ 1
        let s1 := s.setFn fn { x with f2h := rest, cqTail := (x.cqTail + 1) % 2 ^ 32 }
        let s2 := s1.hostWrite fn (x.cqBase + x.cqTail % 2 ^ k * 16) { n with flags := withBits n.flags 11 11 phase }.bytes
        (s2.msixRaise fn n.kind).drainFw fn)

/-- CQ_HEAD: entries consumed; every vector is re-armed (R661, R663). -/
def execCqHead (fn : Nat) (value : Word) (s : State) : Res :=
  .next (if s.fnEnabled fn then s.setFn fn { s.fn fn with cqHead := value.toNat, disarmed := [] } else s)

/-- F2H_STATUS: notices waiting; in mailbox mode the read re-arms every vector (R663, R673). -/
def execF2hStatus (fn : Nat) (s : State) : Res :=
  let x := s.fn fn
  .next (if s.fnEnabled fn then
      { (if x.cfg.getLsbD 8 then s else s.setFn fn { x with disarmed := [] }) with readData := x.f2h.length }
    else s)

/-- MBX_READY: a write of MBX_CTRL, ignored before `BOOT_DONE` (R677). -/
def execMbxReady (who : Requester) (die : Nat) (value : Word) (s : State) : Res :=
  .next (s.gate who (mbx die 0x008) (fun s =>
    (if isBellows die ∧ s.bootDone then (((s.writeAt who .mbx die die 0x008 value).announceRestart die).announceReset die).bootEnd else s)))

/-- MBX_ABORT_POP: a read removes the oldest abort record (R676). -/
def execMbxAbortPop (die : Nat) (s : State) : Res :=
  .next (if die = 4 then { s with abortsA := s.abortsA.tail, readData := (s.abortsA.headD 0).toNat }
    else if die = 5 then { s with abortsB := s.abortsB.tail, readData := (s.abortsB.headD 0).toNat }
    else s)

/-- FLR (R665, R667). -/
def execFlr (fn : Nat) (s : State) : Res := .next (s.flr fn)

/-- FLR_COMPLETE (R667). -/
def execFlrComplete (fn : Nat) (s : State) : Res := .next (s.flrComplete fn)

/-- PORT_RESET (R667, R815). -/
def execPortReset (port : Nat) (s : State) : Res := .next (if port < 2 then s.portReset port else s)

/-- LINK_CHANGE: the link status that training found; link B reads 0 on a port that is not bifurcated (R675). -/
def execLinkChange (die : Nat) (status : Word) (s : State) : Res :=
  let w := status &&& 0xF0FF1F1F
  let w' := if s.bifurcated die then w else w &&& 0xAF0F001F
  .next (if isBellows die then (s.setReg (Blk.host.at die die 0x100) w').raise (Blk.host.at die die 0) 3 else s)

/-- BAR4_ACCESS (R651). -/
def execBar4Access (fn off : Nat) (write : Bool) (data : List Byte) (s : State) : Res :=
  .next (s.bar4Access fn off write data)

/-- CONFIGURATION_WRITE: the configuration bits of a function that act on the device (R645, R667, R668). A physical
function that clears VF Enable resets its virtual functions' channels. -/
def execConfigurationWrite (fn : Nat) (cfg : FnConfig) (s : State) : Res :=
  let pf := decide (s.pfOf fn = fn)
  let lost := if pf && (s.fn fn).vfEnable && !cfg.vfEnable then s.vfsOf fn else []
  let s1 := lost.foldl (fun t v => t.flrOne v) s
  let x := s1.fn fn
  .next (if s.fnEnabled fn = false ∨ (s.fn fn).flr then s
    else s1.setFn fn { x with
      busMaster := cfg.busMaster, vfEnable := pf && cfg.vfEnable
      numVfs := if pf then (if (s.fn fn).vfEnable then x.numVfs else min cfg.numVfs (if s.bifurcated (fnDie fn) then 255 else 511)) else 0
      msixEn := cfg.msixEn, msixMask := cfg.msixMask, pasidEn := cfg.pasidEn, atsEn := cfg.atsEn })

end Sys2Proof.Machine
end

