-- ==== Sys2Proof/Machine/Units.lean ====
section
/-! DEFINITION. What the units share: version directories (R327 to R331, R365, R405), the descriptor list a unit runs (R47,
R309), its accesses to memory, and its status register. -/
namespace Sys2Proof.Machine

/-! ### Directories -/

/-- The block that holds a directory: kind 0 table, 1 index, 2 vocabulary, 3 grammar. -/
def verBlk : Nat → Blk
  | 0 => .serp
  | 1 => .panp
  | 2 => .mouth
  | _ => .keyw

/-- A directory before its first publish. -/
def Dir.blank (_ : Nat) : Dir := {}

/-- The directory of a kind on a die. -/
def State.dir (s : State) (kind die : Nat) : Dir := SMap.get Dir.blank s.dirs (8 * kind + die)

/-- Replace a directory, and keep `pending` of its VER_STATUS register (R336). -/
def State.setDir (s : State) (kind die : Nat) (d : Dir) : State :=
  ({ s with dirs := SMap.set Dir.blank s.dirs (8 * kind + die) d }).setFld ((verBlk kind).at die die 0x10C) 19 16
    (d.slots.countP (fun (v : VSlot) => decide (v.st = VState.pending)))

/-- The dies that hold a directory of a kind: every online chanter, or both bellows (R330, R405). -/
def State.verDies (s : State) (kind : Nat) : List Nat :=
  if kind < 2 then (List.range 4).filter (fun c => s.online c) else [4, 5]

/-- A Serpent before its first use. -/
def Serpent.blank (_ : Nat) : Serpent := {}
/-- The Serpent of a chanter. -/
def State.serp (s : State) (die : Nat) : Serpent := SMap.get Serpent.blank s.serps die
/-- Tags and buffered updates in use, as SERP_MIG_STATUS shows them (R334). -/
def Serpent.migWord (x : Serpent) : Word :=
  BitVec.ofNat 32 (2 ^ 16 * x.tags.length + (x.tags.map (fun t => t.upd.length)).sum)
/-- Replace a Serpent. -/
def State.setSerp (s : State) (die : Nat) (x : Serpent) : State :=
  ({ s with serps := SMap.set Serpent.blank s.serps die x }).setReg (Blk.serp.at die die 0x11C) x.migWord

/-- Drop what a Serpent holds of a version whose slot is freed: no copy outlives its version (R223). -/
def State.dropCopies (s : State) (kind die : Nat) (v : VSlot) : State :=
  if kind ≠ 0 then s
  else
    let x := s.serp die
    s.setSerp die { x with
      cache := x.cache.filter (fun e => decide (e.table ≠ v.id ∨ e.version ≠ v.version))
      tags := x.tags.filter (fun e => decide (e.table ≠ v.id ∨ e.version ≠ v.version)) }

/-- A retire report (R337, R375, R449, R451). -/
def VSlot.report (v : VSlot) : Word := BitVec.ofNat 32 (2 ^ 31 + v.id * 2 ^ 16 + v.version % 2 ^ 16)

/-- Free one slot that no step is bound to: a retired version is reported and waits while the reports are full, a lost one
goes at once (R327, R329, R337). -/
def State.freeSlot (s : State) (kind die : Nat) (v : VSlot) : State :=
  let d := s.dir kind die
  if v.bound ≠ [] then s
  else match v.st with
    | .lost => (s.setDir kind die { d with slots := d.slots.erase v }).dropCopies kind die v
    | .retiring =>
      if 64 ≤ d.retire.length then s
      else
        (((s.setDir kind die { slots := d.slots.erase v, retire := d.retire ++ [v.report] }).dropCopies kind die v)).raise
          ((verBlk kind).at die die 0) 2
    | _ => s

/-- Free every slot that can be freed. -/
def State.sweepDir (s : State) (kind die : Nat) : State :=
  (s.dir kind die).slots.foldl (fun t v => t.freeSlot kind die v) s

/-- The outcome of a publish (R328, R336): 0 accepted, 1 INVALID, 2 LATE, 3 no empty slot, 4 queue full, 5 EARLY. -/
def State.publishResult (s : State) (kind die id lo : Nat) (desc : Option Nat) : Nat :=
  let d := s.dir kind die
  let n := (lo + 2 ^ 16 - s.breath.number % 2 ^ 16) % 2 ^ 16
  if 4 ≤ d.slots.countP (fun v => decide (v.id = id)) then 3
  else if 16 ≤ d.slots.countP (fun (v : VSlot) => decide (v.st = VState.pending)) then 4
  else if n = 0 ∨ 2 ^ 15 ≤ n then 2
  else if 1024 < n then 5
  else if desc = none then 1
  else 0

/-- Publish a version: `desc` is the descriptor where it passes its checks (R328). -/
def State.publish (s : State) (kind die id lo : Nat) (desc : Option Nat) : State :=
  let r := s.publishResult kind die id lo desc
  let n := (lo + 2 ^ 16 - s.breath.number % 2 ^ 16) % 2 ^ 16
  let s1 := s.setFld ((verBlk kind).at die die 0x10C) 2 0 r
  match desc with
  | none => s1
  | some x =>
    if r ≠ 0 then s1
    else
      let d := s.dir kind die
      s1.setDir kind die { d with slots := d.slots ++
        [{ id := id, st := .pending, version := x % 2 ^ 32, desc := x, target := s.breath.number + n }] }

/-- The descriptor address in VER_DESC (R334, R449). -/
def State.verDesc (s : State) (kind die : Nat) : Nat :=
  let b := verBlk kind
  s.fld (b.at die die 0x100) 31 6 * 64 + (if kind < 2 then s.fld (b.at die die 0x104) 15 0 * 2 ^ 32 else 0)

/-- The version descriptor that a publish names, where it can be read: device memory, or the bellows's SRAM. -/
def State.readVerDesc (s : State) (kind die n : Nat) : Option Nat :=
  if kind < 2 then
    (match s.readLe (.unit die) none (s.verDesc kind die) n with
     | .ok v => some v
     | .error _ => none)
  else
    if 2 ^ 27 < s.verDesc kind die + n then none
    else (s.readLe (.bunit die) none (bellowsSram die (s.verDesc kind die)) n).toOption

/-- Count and record what reading a version descriptor meets (R198, R212, R213). -/
def State.noteVer (s : State) (kind die n : Nat) : State :=
  if kind < 2 then s.noteDev (.unit die) none false (s.verDesc kind die) n
  else s.noteDev (.bunit die) none false (bellowsSram die (s.verDesc kind die)) n

/-- One pending version whose target breath begins: the current version of its id retires (R43, R327, R328). -/
def State.takeEffect (s : State) (kind die : Nat) (v : VSlot) : State :=
  if v.st = .pending ∧ v.target ≤ s.breath.number then
    let d := s.dir kind die
    (s.setDir kind die { d with slots := d.slots.map (fun (w : VSlot) =>
      if w = v then { w with st := VState.current }
      else if w.id = v.id ∧ w.st = .current then { w with st := VState.retiring } else w) }).raise ((verBlk kind).at die die 0) 1
  else s

/-- Edge action 3 for one directory. -/
def State.publishEdge (s : State) (kind die : Nat) : State :=
  ((s.dir kind die).slots.foldl (fun t v => t.takeEffect kind die v) s).sweepDir kind die

/-- Every directory of the device: (kind, die). -/
def allDirs : List (Nat × Nat) :=
  (List.range 4).flatMap (fun c => [(0, c), (1, c)]) ++ [(2, 4), (2, 5), (3, 4), (3, 5)]

/-- Edge action 3 (R43). -/
def State.publishAll (s : State) : State := allDirs.foldl (fun t e => t.publishEdge e.1 e.2) s

/-- Bind a step to the current version of an id, with a side-list mark (R44, R329, R362). -/
def State.bindVer (s : State) (kind die id uid mark : Nat) : State :=
  let d := s.dir kind die
  s.setDir kind die { d with slots := d.slots.map (fun (w : VSlot) =>
    if w.id = id ∧ w.st = .current ∧ w.bound.any (fun b => decide (b.1 = uid)) = false then
      { w with bound := w.bound ++ [(uid, mark)] } else w) }

/-- Release every version of a directory that a step bound (R329). -/
def State.releaseVers (s : State) (kind die uid : Nat) : State :=
  let d := s.dir kind die
  (s.setDir kind die { d with slots := d.slots.map (fun (w : VSlot) =>
    { w with bound := w.bound.filter (fun b => decide (b.1 ≠ uid)) }) }).sweepDir kind die

/-- The version of an id that a step bound, unless it is lost (R332). -/
def State.boundVer (s : State) (kind die id uid : Nat) : Option VSlot :=
  (s.dir kind die).slots.find? (fun w => decide (w.id = id) && w.bound.any (fun b => decide (b.1 = uid)) && decide (w.st ≠ .lost))

/-- The mark that a step bound with a version. -/
def VSlot.markOf (v : VSlot) (uid : Nat) : Nat :=
  match v.bound.find? (fun b => decide (b.1 = uid)) with
  | some b => b.2
  | none => 0

/-! ### Notices to the publishing function (R330, R331, R672) -/

/-- The address of a version event. -/
def Pub.addr (p : Pub) : Nat := p.kind * 2 ^ 56 + p.id * 2 ^ 32 + p.version

/-- Send the retire notice of every version that all directories have reported retired (R330). -/
def State.retireNotices (s : State) : State :=
  (s.pubs.filter (fun p => decide (p.left = []))).foldl (fun t p => t.event p.fn 0x01 p.addr)
    { s with pubs := s.pubs.filter (fun p => decide (p.left ≠ [])) }

/-- Firmware has read a retire report of a die (R330, R337). -/
def State.reported (s : State) (kind die : Nat) (w : Word) : State :=
  match s.pubs.find? (fun p => decide (p.kind = kind) && p.left.contains die &&
      decide (2 ^ 31 + p.id * 2 ^ 16 + p.version % 2 ^ 16 = w.toNat)) with
  | none => s
  | some p =>
    { s with pubs := s.pubs.map (fun (q : Pub) => if q = p then { q with left := q.left.filter (fun x => decide (x ≠ die)) } else q) }.retireNotices

/-- Read a retire report (R337). -/
def State.retirePop (s : State) (kind die : Nat) : State :=
  let d := s.dir kind die
  match d.retire with
  | [] => { s with readData := 0 }
  | w :: ws => { ((s.setDir kind die { d with retire := ws }).sweepDir kind die).reported kind die w with readData := w.toNat }

/-- A version loses the only copy of a part on one chanter's directory (R331, R366). -/
def State.loseSlot (s : State) (kind die : Nat) (lost : VSlot → Bool) : State :=
  let d := s.dir kind die
  if d.slots.any (fun v => lost v && decide (v.st ≠ .lost)) then
    ((s.setDir kind die { d with slots := d.slots.map (fun (v : VSlot) => if lost v then { v with st := .lost } else v) }).raise
      ((verBlk kind).at die die 0) 3)
  else s

/-- Tell the publishing functions of lost versions, once each (R331, R366). -/
def State.lostNotices (s : State) (kind : Nat) (lost : Nat → Nat → Bool) : State :=
  (s.pubs.filter (fun p => decide (p.kind = kind) && lost p.id p.version)).foldl (fun t p => t.event p.fn 0x02 p.addr)
    { s with pubs := s.pubs.filter (fun p => !(decide (p.kind = kind) && lost p.id p.version)) }

/-- The next online chanter after `c` in ascending slot order modulo 4 (R331, R366). -/
def State.nextOnline (s : State) (c : Nat) : Nat :=
  match [(c + 1) % 4, (c + 2) % 4, (c + 3) % 4].find? (fun d => s.online d) with
  | some d => d
  | none => c

/-- The host chanter of quarter or part `q` as QMAP or PMAP of a chanter names it (R334, R375). -/
def State.hostOf (s : State) (b : Blk) (die q : Nat) : Nat := s.fld (b.at die die 0x114) (2 * q + 1) (2 * q)

/-- Move what offline chanters hosted, at an edge (R331, R366). -/
def State.remap (s : State) (b : Blk) (die : Nat) : State :=
  (List.range 4).foldl (fun t q =>
    let h := t.hostOf b die q
    if t.online h then t else t.setFld (b.at die die 0x114) (2 * q + 1) (2 * q) (t.nextOnline h)) s

/-- A chanter goes offline: a version with quarters or parts on it that are neither in flash nor staged from flash is lost
(R331, R366). The layout code of an index is never 1. -/
def State.verOffline (s : State) (kind c : Nat) : State :=
  let hosted := (List.range 4).any (fun q => decide (s.hostOf (verBlk kind) c q = c))
  let lost (v : VSlot) : Bool :=
    hosted && !bit v.desc 57 && (decide (kind = 1) || decide (bits v.desc 55 48 ≠ 1)) && (decide (v.st ≠ .lost))
  let keys := (s.dir kind c).slots.filter lost
  let s1 := (List.range 4).foldl (fun t die => (t.loseSlot kind die lost).sweepDir kind die) s
  let s2 := s1.lostNotices kind (fun id ver => keys.any (fun v => decide (v.id = id ∧ v.version = ver)))
  { s2 with pubs := s2.pubs.map (fun (p : Pub) =>
      if p.kind = kind then { p with left := p.left.filter (fun x => decide (x ≠ c)) } else p) }.retireNotices

/-! ### Descriptor lists -/

/-- The run of a step slot of a die. -/
def State.runOf (s : State) (die slot : Nat) : Option URun := SMap.get (fun _ => none) s.runs (16 * die + slot)

/-- Replace the run of a step slot. -/
def State.setRun (s : State) (die slot : Nat) (r : Option URun) : State :=
  { s with runs := SMap.set (fun _ => none) s.runs (16 * die + slot) r }

/-- The agent of a unit of a die. -/
def unitAgent (die : Nat) : Agent := if die < 4 then .unit die else .bunit die

/-- The error of a unit that an access met: the unit's code, below 256, with the access beside it, so that the failure can be
counted where it happened (R198, R212). An error without an access is its code. -/
def accErr (code : Nat) (write : Bool) (a n : Nat) : Nat := code + 256 * (1 + (b2n write + 2 * (a + 2 ^ 64 * n)))

/-- The code of an error of a unit. -/
def errCode (c : Nat) : Nat := c % 256

/-- Count and record the access of an error of a unit, where it has one: a refusal in the bank's block, an uncorrectable word in
its memory's (R198, R212, R233). -/
def State.noteErr (s : State) (die part c : Nat) : State :=
  if c < 256 then s
  else
    let k := c / 256 - 1
    s.noteDev (unitAgent die) (some part) (bit k 0) (k / 2 % 2 ^ 64) (k / 2 / 2 ^ 64)

/-- Count and record what the accesses of a unit to the ranges of a list meet (R212, R213). -/
def State.noteIns (s : State) (die part : Nat) (ins : List (Nat × Nat)) : State :=
  if s.flip = [] then s else ins.foldl (fun t a => t.noteDev (unitAgent die) (some part) false a.1 a.2) s

/-- Read bytes for a unit: `cr` is its code for a misaligned or refused address, `cu` for an uncorrectable word. -/
def State.uread (s : State) (die part cr cu align a n : Nat) : Except Nat (List Byte) :=
  if a % align ≠ 0 then .error cr
  else match s.readDev (unitAgent die) (some part) a n with
    | .ok bs => .ok bs
    | .error .refused => .error (accErr cr false a n)
    | .error .uncorrectable => .error (accErr cu false a n)

/-- Read a little-endian number for a unit. -/
def State.ureadLe (s : State) (die part cr cu align a n : Nat) : Except Nat Nat :=
  match s.uread die part cr cu align a n with
  | .ok bs => .ok (leOf bs)
  | .error c => .error c

/-- A computation of a unit: what it has read, with the result or a code. -/
abbrev TextM (α : Type) : Type := ExceptT Nat (StateM (List (Nat × Nat))) α

/-- Read bytes for a unit in the course of a computation. -/
def State.tread (s : State) (die part cr cu align a n : Nat) : TextM (List Byte) :=
  fun l => (s.uread die part cr cu align a n, (a, n) :: l)

/-- Read a little-endian number for a unit in the course of a computation. -/
def State.treadLe (s : State) (die part cr cu align a n : Nat) : TextM Nat :=
  fun l => (s.ureadLe die part cr cu align a n, (a, n) :: l)

/-- A step of a computation that reads nothing. -/
def tstep {α : Type} (r : Except Nat α) : TextM α := fun l => (r, l)

/-- Run a computation of a unit with what it reads counted and recorded first (R212, R213): its end, and the state with that. -/
def State.noted {α : Type} (s : State) (die part : Nat) (f : State → TextM α) : Except Nat α × State :=
  let s1 := s.noteIns die part (f s []).2
  ((f s1 []).1, s1)

/-- Write bytes for a unit. -/
def State.uwrite (s : State) (die part cr cu align a : Nat) (bs : List Byte) : Except Nat State :=
  let t := s.awaited (unitAgent die) (some part) a bs.length
  if a % align ≠ 0 then .error cr
  else match t.xlat (unitAgent die) (some part) true a bs.length with
    | none => .error (accErr cr true a bs.length)
    | some ps => if t.partialBad ps then .error (accErr cu true a bs.length) else .ok ((t.notePartial ps).writePhys ps bs)

/-- A step that has been dispatched and has not retired. -/
def Step.active (e : Step) : Bool := !e.held && !e.retired

/-- The other chanters to which a broadcast link of a step delivers its own-chanter writes (R626). -/
def State.bcastDies (s : State) (uid : Nat) : List Nat :=
  match s.steps.find? (fun e => decide (e.uid = uid)) with
  | none => []
  | some e =>
    match e.chain[e.link]? with
    | none => []
    | some l =>
      if l.bcast then (List.range 4).filter (fun d => decide (d ≠ e.desc.die) && s.steps.any (fun (f : Step) =>
        f.active && decide (f.desc.die = d) && decide (f.breath = e.breath) && decide (f.desc.group = e.desc.group) &&
          decide (e.desc.group ≠ 0)))
      else []

/-- Deliver a write of a broadcast link to the same chanter-local offset on the other chanters (R626). -/
def State.mirror (s : State) (uid a : Nat) (bs : List Byte) : State :=
  if ownBase ≤ a ∧ a < ownBase + chanterBytes then
    (s.bcastDies uid).foldl (fun (t : State) d =>
      t.writePhys ((List.range bs.length).map (fun i => dramPhys d (a - ownBase + i))) bs) s
  else s

/-- Write bytes for the step that runs in a slot of a chanter: a unit's output. -/
def State.uout (s : State) (slot die part cr cu align a : Nat) (bs : List Byte) : Except Nat State :=
  match s.uwrite die part cr cu align a bs with
  | .error c => .error c
  | .ok t => .ok (match t.runOf die slot with
    | some r => t.mirror r.uid a bs
    | none => t)

/-- The next descriptor of a run. -/
def State.nextDesc (s : State) (die cr cu : Nat) (r : URun) : Except Nat Nat :=
  s.ureadLe die r.part cr cu 64 (r.list + 64 * r.idx) 64

/-- The descriptors of a list from one index, to the one marked last by bit `lb`, at most `fuel` of them. -/
def State.listDescs (s : State) (die part list lb : Nat) : Nat → Nat → List Nat
  | 0, _ => []
  | n + 1, i =>
    match s.ureadLe die part 0 0 64 (list + 64 * i) 64 with
    | .error _ => []
    | .ok d => if bit d lb then [d] else d :: State.listDescs s die part list lb n (i + 1)

/-- The same for lists of 32-byte descriptors. -/
def State.listDescs32 (s : State) (die part list lb : Nat) : Nat → Nat → List Nat
  | 0, _ => []
  | n + 1, i =>
    match s.ureadLe die part 0 0 32 (list + 32 * i) 32 with
    | .error _ => []
    | .ok d => if bit d lb then [d] else d :: State.listDescs32 s die part list lb n (i + 1)

/-- Go to the next descriptor of the list. -/
def State.runNext (s : State) (die slot : Nat) (last : Bool) : State :=
  match s.runOf die slot with
  | none => s
  | some r => s.setRun die slot (some { r with idx := r.idx + 1, ended := last })

/-- End the list of a run whose step has failed (R332, R373, R399). -/
def State.runFail (s : State) (die slot src code : Nat) : State :=
  match s.runOf die slot with
  | none => s
  | some r => (s.setRun die slot (some { r with ended := true })).stepFault r.uid src code 0

/-- A step applies table updates or writes side entries (R477). -/
def State.stepUpdates (s : State) (uid : Nat) : State :=
  { s with steps := s.steps.map (fun (e : Step) => if e.uid = uid then { e with updates := true } else e) }

/-- The step that a step resumes, or the step itself (R604). -/
def State.rootOf (s : State) (uid : Nat) : Nat :=
  match s.steps.find? (fun e => decide (e.uid = uid)) with
  | some e => e.resumes.getD uid
  | none => uid

/-- Place of a step in dispatch order: by dispatch edge, then in the order of R318; a resume step counts as the step it
resumes (R604). -/
def State.stepOrder (s : State) (uid : Nat) : Nat :=
  let u := s.rootOf uid
  match s.steps.find? (fun e => decide (e.uid = u)) with
  | some e => e.breath * 2 ^ 64 + u
  | none => u

/-- Record an error in a unit's STATUS register, where it is the first, and raise `error`; `low` goes to its low field. -/
def State.unitError (s : State) (b : Blk) (die off code hi low : Nat) : State :=
  let a := b.at die die off
  let s1 := if s.rbit a 30 then s else ((s.setFld a 30 30 1).setFld a 23 16 code).setFld a hi 0 low
  s1.raise a 0

/-- The busy bit of a unit's STATUS register. -/
def State.unitBusy (s : State) (b : Blk) (die off : Nat) (v : Bool) : State := s.setFld (b.at die die off) 31 31 (b2n v)

/-- Leave an output area undefined: free values where the unit may write (R332, R373, R399). -/
def State.undefineOut (s : State) (die part a n : Nat) : State :=
  match s.xlat (unitAgent die) (some part) true a n with
  | some ps => s.undefine ps
  | none => s

end Sys2Proof.Machine
end

