-- ==== Sys2Proof/Machine/ReqBase.lean ====
section
/-! DEFINITION. The request table: entries, ids, and the outcomes that steps leave for the next edge (R486, R487, R491,
R494). -/
namespace Sys2Proof.Machine

/-- An entry after power-on reset. -/
def Req.blank (_ : Nat) : Req := {}

/-- The entry of a device-wide index. -/
def State.req (s : State) (i : Nat) : Req := SMap.get Req.blank s.reqs i

/-- The bellows that holds an entry (R486). -/
def reqDie (i : Nat) : Nat := if i < 32768 then 4 else 5

/-- REQT_OCCUPANCY of a bellows (R520). -/
def State.occupancy (s : State) (die : Nat) : Word :=
  let es := s.reqs.filter (fun e => decide (reqDie e.1 = die))
  BitVec.ofNat 32 (es.countP (fun e => decide (e.2.state = 5)) * 2 ^ 16 + es.countP (fun e => decide (e.2.state ≠ 0)))

/-- Replace an entry. -/
def State.setReq (s : State) (i : Nat) (r : Req) : State :=
  let s1 := { s with reqs := SMap.set Req.blank s.reqs i r }
  s1.setReg (Blk.reqt.at (reqDie i) (reqDie i) 0x100) (s1.occupancy (reqDie i))

/-- Change an entry. -/
def State.modReq (s : State) (i : Nat) (f : Req → Req) : State := s.setReq i (f (s.req i))

/-- The request id of an entry (R486). -/
def reqId (i : Nat) (r : Req) : Nat := i / 32768 * 2 ^ 31 + r.gen * 2 ^ 16 + i

/-- The entry an id names: its generation is the entry's, and the entry is not `FREE` (R486, R487). -/
def State.reqNamed (s : State) (id : Nat) : Option Nat :=
  let i := id % 65536
  let r := s.req i
  if bits id 30 16 = 0 ∨ bit id 15 ≠ bit id 31 ∨ r.gen ≠ bits id 30 16 ∨ r.state = 0 then none else some i

/-- `PARKED`, `DONE` or `CANCELLED` (R493). -/
def Req.terminal (r : Req) : Bool := decide (r.state = 7 ∨ r.state = 9 ∨ r.state = 10)
/-- Neither `FREE` nor terminal. -/
def Req.live (r : Req) : Bool := decide (r.state ≠ 0) && !r.terminal

/-- Model that a request runs: its fallback once that is active (R502). -/
def Req.runs (r : Req) : Nat := if bit r.flags 1 then r.fallback else r.model

/-- Leave an outcome for the edge after the step retires (R494). -/
def State.reqOutcome (s : State) (i uid reason src code : Nat) : State :=
  s.modReq i (fun r => { r with outcomes := r.outcomes ++ [{ uid := uid, reason := reason, src := src, code := code }] })

/-- Note something in the log of the compared run that a request id names (R484). -/
def State.reproLog (s : State) (id : Nat) (f : RunLog → RunLog) : State :=
  { s with repros := s.repros.map (fun (p : Repro) =>
      if id = 0 then p
      else if p.run1 = id then { p with log1 := f p.log1 }
      else if p.run2 = id then { p with log2 := f p.log2 } else p) }

/-- The breath in which a step was dispatched. -/
def State.stepBreath (s : State) (uid : Nat) : Nat :=
  match s.steps.find? (fun e => decide (e.uid = uid)) with
  | some e => e.breath
  | none => s.breath.number

/-- A step carries `fault` without a failure of its whole group (R447). -/
def State.stepFlag (s : State) (uid : Nat) : State :=
  { s with steps := s.steps.map (fun (e : Step) => if e.uid = uid then { e with fault := true } else e) }

/-- The requests of a step. -/
def State.stepReqs (s : State) (uid : Nat) : List (Nat × Bool) :=
  match s.steps.find? (fun e => decide (e.uid = uid)) with
  | some e => e.reqs
  | none => []

/-- Free values as bytes. -/
def State.freeBytes (s : State) : Nat → List Byte × State
  | 0 => ([], s)
  | n + 1 =>
    let (v, s1) := s.free 8
    let (bs, s2) := State.freeBytes s1 n
    (BitVec.ofNat 8 v :: bs, s2)

end Sys2Proof.Machine
end

