-- ==== Sys2Proof/Machine/Select.lean ====
section
/-! DEFINITION. Ranking, result lists, merging and the Piccolo's commands (R380 to R403). -/
namespace Sys2Proof.Machine

/-- A candidate (R380, R384): `src` and `pos` are those of its first producer, `lpos` its logical input position. -/
structure Cand where
  id : Nat
  score : Word
  seq : Nat := 0
  side : Bool := false
  src : Nat := 0
  pos : Nat := 0
  lpos : Nat := 0
  deriving DecidableEq, Repr

/-- The id of a sentinel slot (R382). -/
def noId : Nat := 2 ^ 64 - 1

/-- A score is below another: FP32, or INT32 where `int` (R180, R380). -/
def scoreLt (int : Bool) (a b : Word) : Bool := if int then a.slt b else (fp32 a).lt (fp32 b)

/-- Two scores are equal by value. -/
def scoreEq (int : Bool) (a b : Word) : Bool := if int then decide (a = b) else (fp32 a).eqv (fp32 b)

/-- A score is a NaN (R381). -/
def scoreNan (int : Bool) (a : Word) : Bool := !int && (fp32 a).isNan

/-- One candidate ranks before another (R380, R388). -/
def ranksBefore (int asc : Bool) (a b : Cand) : Bool :=
  (if asc then scoreLt int a.score b.score else scoreLt int b.score a.score) ||
    (scoreEq int a.score b.score && decide (a.lpos < b.lpos))

/-- Candidates in rank order. -/
def rankSort (int asc : Bool) (cs : List Cand) : List Cand := sortBy (ranksBefore int asc) cs

/-- What a result list reports beside its entries (R383). -/
structure ResList where
  k : Nat
  int : Bool
  tie : Bool := false
  overflow : Bool := false
  merged : Bool := false
  tiedExcl : Nat := 0
  excluded : Nat := 0
  dups : Nat := 0
  past : Nat := 0
  src : Nat := 0
  considered : Nat := 0
  entries : List Cand := []
  deriving DecidableEq, Repr

/-- Saturate to `w` bits. -/
def satTo (w n : Nat) : Nat := min n (2 ^ w - 1)

/-- The bytes of one entry (R384). -/
def Cand.bytes (c : Cand) : List Byte :=
  leBytes 8 c.id ++ leBytes 4 c.score.toNat ++ leBytes 4 c.seq ++ leBytes 1 (b2n c.side) ++ leBytes 1 0 ++
    leBytes 2 c.src ++ leBytes 4 c.pos

/-- The bytes of a sentinel slot (R385). -/
def sentinel (int : Bool) : List Byte :=
  leBytes 8 noId ++ leBytes 4 (if int then 0x80000000 else 0xFF800000) ++ leBytes 4 0 ++ leBytes 2 0 ++
    leBytes 2 0xFFFF ++ leBytes 4 0xFFFFFFFF

/-- The bytes of a result list (R383 to R385). -/
def ResList.bytes (r : ResList) : List Byte :=
  let n := r.entries.length
  leBytes 2 n ++ leBytes 2 r.k ++ leBytes 1 (b2n r.int) ++
  leBytes 1 (b2n r.tie + 2 * b2n (decide (n < r.k)) + 4 * b2n r.overflow + 8 * b2n r.merged) ++
  leBytes 2 (satTo 16 r.tiedExcl) ++ leBytes 4 (satTo 32 r.excluded) ++ leBytes 4 (satTo 32 r.dups) ++
  leBytes 4 (satTo 32 r.past) ++ leBytes 2 r.src ++ leBytes 2 0 ++ leBytes 4 (satTo 32 r.considered) ++ leBytes 4 0 ++
  r.entries.flatMap Cand.bytes ++ (List.replicate (r.k - n) (sentinel r.int)).flatten

/-- Size of a result list (R383). -/
def listBytes (k : Nat) : Nat := 32 + 24 * k

/-- Select the first `k` candidates of a list without NaN scores, with the tie report of R386. -/
def selectTop (int asc : Bool) (k : Nat) (cs : List Cand) (r : ResList) : ResList :=
  let ranked := rankSort int asc cs
  let kept := ranked.take k
  let t := match kept.getLast? with
    | some e => if kept.length = k ∧ 1 ≤ k then (ranked.drop k).countP (fun c => scoreEq int c.score e.score) else 0
    | none => 0
  { r with entries := kept, tie := decide (t ≠ 0), tiedExcl := t }

/-- The winner of two candidates with one id (R391). -/
def dupWinner (int : Bool) (a b : Cand) : Cand :=
  let newer (x y : Cand) : Bool := decide (0 < serialDiff x.seq y.seq) && decide (serialDiff x.seq y.seq < 2 ^ 31)
  if a.side ∧ ¬ b.side ∧ newer a b then a
  else if b.side ∧ ¬ a.side ∧ newer b a then b
  else if scoreLt int b.score a.score then a
  else if scoreLt int a.score b.score then b
  else a

/-- Fold the candidates of one id, in ascending input position; each id keeps one (R391). -/
def foldDups (int : Bool) (cs : List Cand) : List Cand :=
  cs.foldl (fun acc c =>
    if acc.any (fun a => decide (a.id = c.id)) then acc.map (fun a => if a.id = c.id then dupWinner int a c else a)
    else acc ++ [c]) []

/-! ### The Piccolo -/

/-- A Piccolo descriptor (R393). -/
structure PDesc where
  v : Nat
  deriving DecidableEq, Repr

/-- `n` bytes of a descriptor from offset `off`. -/
def dfld (v off n : Nat) : Nat := v / 256 ^ off % 256 ^ n

/-- A register of a Piccolo. -/
def picc (die off : Nat) : Nat := Blk.picc.at die die off

/-- Bytes of an input element. -/
def PDesc.elem (d : PDesc) : Nat := if dfld d.v 2 1 = 2 ∨ dfld d.v 2 1 = 7 then 4 else 2

/-- Capacity of the result. -/
def PDesc.cap (d : PDesc) : Nat := if dfld d.v 0 1 = 3 then dfld d.v 4 4 else dfld d.v 8 2

/-- The descriptor keeps R393 and the id range of R394. -/
def PDesc.fieldsOk (d : PDesc) : Bool :=
  let op := dfld d.v 0 1
  let fl := dfld d.v 1 1
  let fmt := dfld d.v 2 1
  let n := dfld d.v 4 4
  let k := dfld d.v 8 2
  decide (op ≤ 3) && decide (bits fl 7 3 = 0) && (decide (op = 3) || !bit fl 0) &&
  (if op = 2 then decide (fmt = 0) else decide (fmt = 2 ∨ fmt = 5 ∨ fmt = 6 ∨ fmt = 7)) && decide (dfld d.v 3 1 = 0) &&
  (decide (1 ≤ n) && decide (n ≤ (if op = 2 then 256 else if op = 3 then 4096 else 2 ^ 24))) &&
  (if op = 3 then decide (k = 0) else decide (1 ≤ k) && decide (k ≤ 4096)) &&
  (decide (op = 1) || decide (dfld d.v 12 4 = 0)) && decide (dfld d.v 40 24 = 0) &&
  (bit fl 1 || decide (dfld d.v 24 8 + n - 1 < noId))

/-- Two ranges meet. -/
def meets (a n b m : Nat) : Bool := decide (a < b + m) && decide (b < a + n)

/-- The one name of the byte at a device address: the own-chanter window and the logical view of SRAM are other names for the
same bytes (R227, R231). -/
def State.plainAddr (s : State) (who : Agent) (a : Nat) : Nat :=
  if a < sramBase then windowAddr who.chanter a
  else match s.sramWhere who a with
    | some (m, _, off) => m.phys off
    | none => a

/-- The candidates of a dense input: ids that are sentinels are skipped; NaN scores are counted apart. -/
def denseCands (d : PDesc) (scores ids : List Byte) : List Cand :=
  (List.range (dfld d.v 4 4)).map (fun i =>
    { id := if bit (dfld d.v 1 1) 1 then leOf ((ids.drop (8 * i)).take 8) else dfld d.v 24 8 + i
      score := widen (dfld d.v 2 1) (leOf ((scores.drop (d.elem * i)).take d.elem))
      src := dfld d.v 10 2, pos := i, lpos := i })

/-- Ops 0, 1 and 3 over a dense input (R386 to R388). -/
def denseResult (d : PDesc) (cs : List Cand) : ResList :=
  let int := decide (dfld d.v 2 1 = 2)
  let live := cs.filter (fun c => decide (c.id ≠ noId))
  let ok := live.filter (fun c => !scoreNan int c.score)
  let base : ResList := { k := d.cap, int := int, src := dfld d.v 10 2, considered := live.length, excluded := live.length - ok.length }
  if dfld d.v 0 1 = 1 then
    let pass := ok.filter (fun c => scoreLt int (BitVec.ofNat 32 (dfld d.v 12 4)) c.score)
    { base with entries := pass.take d.cap, past := pass.length - d.cap, overflow := decide (d.cap < pass.length) }
  else selectTop int (bit (dfld d.v 1 1) 0) d.cap ok base

/-- One input list of a merge: its address, its header and its entries. -/
structure InList where
  addr : Nat
  n : Nat
  k : Nat
  fmt : Nat
  src : Nat
  entries : List Byte
  deriving DecidableEq, Repr

/-- Read one input list: the header and its first n entries. -/
def State.readInList (s : State) (die part a : Nat) : Except Nat InList :=
  match s.uread die part 2 3 8 a 32 with
  | .error c => .error c
  | .ok h =>
    let n := leOf (h.take 2)
    let k := leOf ((h.drop 2).take 2)
    let fmt := leOf ((h.drop 4).take 1)
    if k < n ∨ 1 < fmt then .error 1
    else match s.uread die part 2 3 8 (a + 32) (24 * n) with
      | .error c => .error c
      | .ok es => .ok { addr := a, n := n, k := k, fmt := fmt, src := leOf ((h.drop 20).take 2), entries := es }

/-- Read every input list of a merge, in table order. -/
def State.readInLists (s : State) (die part t : Nat) : Nat → Except Nat (List InList)
  | 0 => .ok []
  | n + 1 =>
    match State.readInLists s die part t n with
    | .error c => .error c
    | .ok ls =>
      match s.ureadLe die part 2 3 8 (t + 8 * n) 8 with
      | .error c => .error c
      | .ok a =>
        match s.readInList die part a with
        | .error c => .error c
        | .ok l => if ls.any (fun m => decide (m.fmt ≠ l.fmt)) then .error 1 else .ok (ls ++ [l])

/-- The entries of an input list as candidates whose logical positions start at `base` (R389, R390). -/
def InList.cands (l : InList) (base : Nat) : List Cand :=
  (List.range l.n).map (fun i =>
    let e := l.entries.drop (24 * i)
    let f (o n : Nat) : Nat := leOf ((e.drop o).take n)
    { id := f 0 8, score := BitVec.ofNat 32 (f 8 4), seq := f 12 4, side := bit (f 16 1) 0, src := f 18 2, pos := f 20 4
      lpos := base + i })

/-- The candidates of the inputs in ascending source index, equal sources in table order (R389). -/
def mergeCands (ls : List InList) : List Cand :=
  ((sortBy (fun (a b : InList) => decide (a.src < b.src)) ls).foldl
    (fun (acc : Nat × List Cand) l => (acc.1 + l.n, acc.2 ++ l.cands acc.1)) (0, [])).2

/-- Op 2: drop sentinels and NaN entries, fold duplicates, select (R389 to R392). -/
def mergeResult (d : PDesc) (ls : List InList) : ResList :=
  let int := ls.any (fun l => decide (l.fmt = 1))
  let live := (mergeCands ls).filter (fun c => decide (c.id ≠ noId))
  let ok := live.filter (fun c => !scoreNan int c.score)
  let one := foldDups int ok
  selectTop int false d.cap one
    { k := d.cap, int := int, src := dfld d.v 10 2, considered := live.length, excluded := live.length - ok.length
      dups := ok.length - one.length, merged := true }

/-- The result of a descriptor and the areas it reads, or a code of R399. -/
def State.piccResult (s : State) (die part : Nat) (d : PDesc) : Except Nat (ResList × List (Nat × Nat)) :=
  let n := dfld d.v 4 4
  let inA := dfld d.v 16 8
  if d.fieldsOk = false then .error 1
  else if dfld d.v 0 1 = 2 then
    match s.readInLists die part inA n with
    | .error c => .error c
    | .ok ls => .ok (mergeResult d ls, (inA, 8 * n) :: ls.map (fun l => (l.addr, listBytes l.n)))
  else
    let ids := bit (dfld d.v 1 1) 1
    match s.uread die part 2 3 d.elem inA (d.elem * n),
          (if ids then s.uread die part 2 3 8 (dfld d.v 24 8) (8 * n) else .ok []) with
    | .error c, _ => .error c
    | _, .error c => .error c
    | .ok sc, .ok idb => .ok (denseResult d (denseCands d sc idb), (inA, d.elem * n) :: (if ids then [(dfld d.v 24 8, 8 * n)] else []))

/-- Carry out one descriptor (R395), or a code. -/
def State.piccRun (s : State) (die part : Nat) (d : PDesc) : Except Nat State :=
  match s.piccResult die part d with
  | .error c => .error c
  | .ok (r, ins) =>
    let out := dfld d.v 32 8
    let at' (a : Nat) : Nat := s.plainAddr (.unit die) a
    if ins.any (fun a => meets (at' out) (listBytes d.cap) (at' a.1) a.2) then .error 1
    else match (s.noteIns die part ins).uout 10 die part 2 3 8 out r.bytes with
      | .error c => .error c
      | .ok t =>
        let add (u : State) (off n : Nat) : State := if n = 0 then u else u.cntAdd .picc die die off n
        let t1 := add (add (add (add (add (add t 0x030 1) 0x038 r.considered) 0x040 r.excluded) 0x048 r.dups)
          0x050 (b2n (decide (r.entries.length < r.k)))) 0x058 (b2n r.tie)
        .ok (if r.excluded = 0 then t1 else t1.raise (picc die 0) 1)

/-- Fail a descriptor: its results and those of the descriptors after it are undefined (R399). One that is refused with 0x01
writes nothing, so its own result area keeps its bytes (R394). -/
def State.piccFail (s : State) (die : Nat) (r : URun) (err : Nat) : State :=
  let code := errCode err
  let from' := r.idx + b2n (decide (code = 1))
  let s1 := (s.listDescs die r.part r.list 10 4096 from').foldl (fun t v =>
    t.undefineOut die r.part (dfld v 32 8) (listBytes (PDesc.cap ⟨v⟩))) (s.noteErr die r.part err)
  (s1.unitError .picc die 0x100 code 15 r.idx).runFail die 10 5 code

/-- Serve the next descriptor of the Piccolo's list where it is of op `op`; a reserved op fails here (R393, R398, R402). -/
def State.piccServe (s : State) (die op : Nat) : State :=
  match s.runOf die 10 with
  | none => s
  | some r =>
    if r.ended ∨ r.hold ∨ s.rbit (picc die 0x008) 0 = false then s
    else match s.nextDesc die 2 3 r with
      | .error c => s.piccFail die r c
      | .ok v =>
        let o := dfld v 0 1
        if o ≤ 3 ∧ o ≠ op then s
        else match s.piccRun die r.part ⟨v⟩ with
          | .error c => s.piccFail die r c
          | .ok t => (t.setReg (picc die 0x104) (BitVec.ofNat 32 ((r.idx + 1) % 2 ^ 16))).runNext die 10 (bit v 10)

/-- PICC_TOPK (R386, R387). -/
def execPiccTopk (die : Nat) (s : State) : Res := .next (if isChanter die then s.piccServe die 0 else s)
/-- PICC_THRESHOLD (R387). -/
def execPiccThreshold (die : Nat) (s : State) : Res := .next (if isChanter die then s.piccServe die 1 else s)
/-- PICC_MERGE (R389 to R392). -/
def execPiccMerge (die : Nat) (s : State) : Res := .next (if isChanter die then s.piccServe die 2 else s)
/-- PICC_SORT (R387, R388). -/
def execPiccSort (die : Nat) (s : State) : Res := .next (if isChanter die then s.piccServe die 3 else s)

end Sys2Proof.Machine
end

