-- ==== Sys2Proof/Machine/Buckets.lean ====
section
/-! DEFINITION. The buckets of the bandwidth regulators (R578 to R584). -/
namespace Sys2Proof.Machine

/-- A register of PART_ on a die. -/
def partA (die off : Nat) : Nat := Blk.part.at die die off

/-- Local buckets of a die (R578). -/
def bucketsOf (die : Nat) : Nat := if die < 4 then 2 else if die < 6 then 3 else if die < 8 then 1 else 0

/-- A bucket register of a partition: rate 0x104, burst 0x108, level 0x10C, control 0x110. -/
def bktA (die part bkt off : Nat) : Nat := bank (partA die off) (4 * part + bkt)

/-- The level of a bucket. -/
def State.level (s : State) (die part bkt : Nat) : Int := (s.reg (bktA die part bkt 0x10C)).toInt

/-- A bucket's `enable`. -/
def State.bktOn (s : State) (die part bkt : Nat) : Bool := s.rbit (bktA die part bkt 0x110) 0

/-- A bucket admits a transfer by itself (R579, R580). -/
def State.bktAdmits (s : State) (die part bkt : Nat) : Bool := !s.bktOn die part bkt || decide (0 < s.level die part bkt)

/-- Charge an admitted transfer (R580); a borrowed charge saturates (R583). -/
def State.bktCharge (s : State) (die part bkt n : Nat) : State :=
  let l := max (s.level die part bkt - (ceilDiv n 64 : Nat)) (-(2 ^ 31))
  if s.bktOn die part bkt then s.setReg (bktA die part bkt 0x10C) (BitVec.ofInt 32 l) else s

/-- Refill every enabled bucket (R581). -/
def State.refill (s : State) : State :=
  (List.range 8).foldl (fun (t : State) d => (List.range 64).foldl (fun (u : State) p =>
    (List.range (bucketsOf d)).foldl (fun (v : State) b =>
      if v.bktOn d p b then
        v.setReg (bktA d p b 0x10C) (BitVec.ofInt 32
          (min (v.level d p b + (v.reg (bktA d p b 0x104)).toNat) ((v.reg (bktA d p b 0x108)).toNat : Int)))
      else v) u) t) s

/-- The first partition after the one granted last, in rotation, that satisfies `p` (R582). -/
def State.bktNext (s : State) (die bkt : Nat) (p : Nat → Bool) : Option Nat :=
  let last := SMap.get (fun _ => 0) s.bktLast (16 * die + bkt)
  ((List.range 64).map (fun i => (last + i) % 64)).find? p

/-- Admit one transfer of `n` bytes of a partition: its own bucket admits it, or it borrows; none while it waits (R580 to R583). -/
def State.bktTake (s : State) (die part bkt n : Nat) : Option State :=
  if s.bktAdmits die part bkt then some (s.bktCharge die part bkt n)
  else if s.rbit (bktA die part bkt 0x110) 1 then some ((s.cntAdd .part die die 0x038 1).bktCharge die part bkt n)
  else none

end Sys2Proof.Machine
end

