-- ==== Sys2Proof/Machine/Wrap.lean ====
section
/-! DEFINITION. Key slots and wrapping (R784, R787 to R789): serials that never repeat, and sealed images. -/
namespace Sys2Proof.Machine

/-- The content of a key slot. -/
def State.keySlot (s : State) (n : Nat) : Option KeySlot := SMap.get (fun _ => none) s.sec.slots n

/-- Change a key slot; SEC_KEY_STATUS shows which slots are loaded. -/
def State.setKeySlot (s : State) (n : Nat) (k : Option KeySlot) : State :=
  let s1 := { s with sec := { s.sec with slots := SMap.set (fun _ => none) s.sec.slots n k } }
  s1.setFld (secA 0x12C) n n (b2n k.isSome)

/-- Drone state in DRONE_STATUS [19:16]; 3 is `MOUNTED` (R685, R712). -/
def State.droneState (s : State) (d : Nat) : Nat := s.fld (Blk.drone.at d d 0x00C) 19 16

/-- The slot wraps: it holds a key, its count is not exhausted, and drone-A is `MOUNTED` (R787). -/
def State.canWrap (s : State) (n : Nat) : Bool :=
  decide (s.droneState 6 = 3) &&
    (match s.keySlot n with | some k => decide (k.count < 2 ^ 40) | none => false)

/-- Segments of 1,024 KiB that are wrapped or unwrapped of `n` bytes of a body count (R788, R791). -/
def State.wrapCount (s : State) (n : Nat) : State := s.cntAdd .sec 4 4 0x038 (ceilDiv n (1024 * 1024))

/-- A GCM tag failed (R791, R796). -/
def State.tagFailed (s : State) : State := (s.cntAdd .sec 4 4 0x040 1).raise (secA 0) 0

/-- Take the next serial of a slot (R787): the end of a new block of counts is committed first; the last count sets the
slot's bit of SEC_KEY_EXH and raises `key_exhausted` (R796). -/
def State.takeSerial (s : State) (n : Nat) : Nat × State :=
  match s.keySlot n with
  | none => (0, s)
  | some k =>
    let ser := k.wrapId * 2 ^ 40 + k.count
    let s1 := if k.count % 2 ^ 20 = 0 then
        { s with sec := { s.sec with ends := SMap.set (fun _ => 0) s.sec.ends n (k.count + 2 ^ 20) } } else s
    let s2 := s1.setKeySlot n (some { k with count := k.count + 1 })
    (ser, if k.count + 1 = 2 ^ 40 then (s2.setFld (secA 0x130) n n 1).raise (secA 0) 4 else s2)

/-- The slot of a partition (R788, SEC_PART_KEY). -/
def State.partKey (s : State) (p : Nat) : Nat := s.fld (secA (0x210 + 4 * (p / 8))) (4 * (p % 8) + 3) (4 * (p % 8))

/-- A partition's `secure` bit (R614). -/
def State.partSecure (s : State) (p : Nat) : Bool := s.rbit (bank (Blk.part.at 4 4 0x120) p) 30

/-- Bytes as numbers. -/
def byteNums (bs : List Byte) : List Nat := bs.map (fun b => b.toNat)

/-- Wrap an image under a slot (R559, R788): its header tile takes the flag, key_slot, seg_kib and serial, and its body is
sealed with header bytes 0 to 255 as additional data. -/
def State.wrapImage (s : State) (slot : Nat) (img : List Byte) : List Byte × State :=
  let (ser, s1) := s.takeSerial slot
  let h0 := img.take 4096
  let flags := (leOf ((h0.drop 7).take 1)) ||| 1
  let body0 := img.drop 4096
  let tags := 16 * ceilDiv body0.length (1024 * 1024)
  let h := h0.take 7 ++ leBytes 1 flags ++ (h0.drop 8).take 56 ++ leBytes 8 (img.length + tags) ++ (h0.drop 72).take 56 ++
    leBytes 4 slot ++ leBytes 4 1024 ++ leBytes 8 ser ++ h0.drop 144
  let key := match s.keySlot slot with | some k => k.key | none => 0
  let sealed := (Config.gcmSeal key ser (byteNums (h.take 256)) (byteNums body0)).map (fun n => BitVec.ofNat 8 n)
  (h ++ (sealed ++ List.replicate (body0.length + tags) 0).take (body0.length + tags), s1.wrapCount body0.length)

/-- Open a wrapped image under the slot its header names: none where a tag fails. -/
def State.openImage (s : State) (img : List Byte) : Option (List Byte) :=
  let h := img.take 4096
  let slot := leOf ((h.drop 128).take 4)
  match s.keySlot slot with
  | none => none
  | some k =>
    (Config.gcmOpen k.key (leOf ((h.drop 136).take 8)) (byteNums (h.take 256)) (byteNums (img.drop 4096))).map
      (fun body => h ++ body.map (fun n => BitVec.ofNat 8 n))

end Sys2Proof.Machine
end

