-- ==== Sys2Proof/Machine/FlashBase.lean ====
section
/-! DEFINITION. The drones' records of flash objects (R684 to R687, R691), and the bytes that a read of flash gives. -/
namespace Sys2Proof.Machine

/-- The hash of R307. -/
def rowHash (i : Nat) : Nat := i * 0x9E3779B97F4A7C15 % 2 ^ 64 / 2 ^ 32

/-- A register of DRONE_ on a drone. -/
def droneA (d off : Nat) : Nat := Blk.drone.at d d off

/-- A drone before its first use. -/
def Drone.blank (_ : Nat) : Drone := {}
/-- A drone. -/
def State.drone (s : State) (d : Nat) : Drone := SMap.get Drone.blank s.drones d
/-- Replace a drone. -/
def State.setDrone (s : State) (d : Nat) (x : Drone) : State := { s with drones := SMap.set Drone.blank s.drones d x }
/-- Change a drone. -/
def State.modDrone (s : State) (d : Nat) (f : Drone → Drone) : State := s.setDrone d (f (s.drone d))

/-- The record of an object on a drone. -/
def State.fobj (s : State) (d id : Nat) : Option FObj := SMap.get (fun _ => none) (s.drone d).objs id

/-- Replace the record of an object; DRONE_OBJ_CNT counts the records. -/
def State.setFobj (s : State) (d id : Nat) (o : Option FObj) : State :=
  let s1 := s.modDrone d (fun x => { x with objs := SMap.set (fun _ => none) x.objs id o })
  s1.setReg (droneA d 0x134) (BitVec.ofNat 32 (s1.drone d).objs.length)

/-- The drones of an object: code 0 both, 1 drone-A, 2 drone-B (R684). -/
def dronesOf : Nat → List Nat
  | 0 => [6, 7]
  | 1 => [6]
  | _ => [7]

/-- The drone and the drone unit of unit `u` of an object (R684). -/
def unitHome (code u : Nat) : Nat × Nat := if code = 0 then (6 + u % 2, u / 2) else (5 + code, u)

/-- The code with which an object was created, where a drone has a record of it. -/
def State.flashCode (s : State) (id : Nat) : Option Nat :=
  match s.fobj 6 id, s.fobj 7 id with
  | some o, _ => some o.drones
  | none, some o => some o.drones
  | none, none => none

/-- Units of an object of `size` units that lie on drone `d` (R684). -/
def unitsOn (code size d : Nat) : Nat := if code = 0 then (size + 7 - d) / 2 else if d = 5 + code then size else 0

/-- One byte of an object on the drones. -/
def State.flashByte (s : State) (code id off : Nat) : Byte :=
  let h := unitHome code (off / 4096)
  match s.fobj h.1 id with
  | some o => o.data.byte (4096 * h.2 + off % 4096)
  | none => 0

/-- Bytes of a flash object from an offset (R306, R308, R348): what a drone holds of it, or else the flash copy that the
runtime keeps of an object. -/
def State.flashBytes (s : State) (obj off n : Nat) : List Byte :=
  match s.flashCode obj with
  | some code => (List.range n).map (fun i => s.flashByte code obj (off + i))
  | none =>
    match SMap.get (fun _ => none) s.objs obj with
    | some o => o.data.bytes off n
    | none => List.replicate n 0

/-- A unit that reads `UNCORRECTABLE` (R688, R699, R702, R704). -/
def State.unitBad (s : State) (code id u : Nat) : Bool :=
  let h := unitHome code u
  match s.fobj h.1 id with
  | some o => (match SMap.get (fun _ => none) o.units h.2 with
    | some f => f.bad || f.poison
    | none => false)
  | none => false

end Sys2Proof.Machine
end

