-- ==== Sys2Proof/Machine/Objects.lean ====
section
/-! DEFINITION. Objects of the runtime: flag words, placement, quotas, eviction, parking and loss (R234 to R243, R577). -/
namespace Sys2Proof.Machine

/-! ### Flag words (R234 to R236) -/

/-- Flags of an object. -/
def oResident (f : Nat) : Bool := bit f 0
/-- `LOCAL`. -/
def oLocal (f : Nat) : Bool := bit f 1
/-- `INTERLEAVED`. -/
def oInter (f : Nat) : Bool := bit f 2
/-- `STREAMED`. -/
def oStreamed (f : Nat) : Bool := bit f 3
/-- `PARKABLE`. -/
def oParkable (f : Nat) : Bool := bit f 4
/-- `FLASH_BACKED`. -/
def oFlash (f : Nat) : Bool := bit f 5
/-- `SECURE`. -/
def oSecure (f : Nat) : Bool := bit f 6
/-- chanter_mask. -/
def oMask (f : Nat) : Nat := bits f 11 8

/-- The flag word matches a row of R235. -/
def flagsOk (f : Nat) : Bool :=
  decide (f / 2 ^ 12 = 0) && !bit f 7 && decide ((oMask f ≠ 0) = (oLocal f = true)) && !(oParkable f && oFlash f) &&
  (if oResident f then !oLocal f && !oInter f && !oStreamed f && !oParkable f && !oFlash f
   else if oLocal f then !oInter f && (!oSecure f || oParkable f)
   else if oInter f then !oSecure f
   else oFlash f && !oParkable f)

/-- The size and start rules of R236; `a` is the address when the object has one. -/
def sizeOk (f size : Nat) (a : Option Nat) : Bool :=
  decide (size ≠ 0) &&
  (!(oStreamed f || oFlash f) ||
    (decide (size % 4096 = 0) &&
      (match a with | some x => !(oLocal f || oInter f) || decide (x % 4096 = 0) | none => true)))

/-! ### Where an object lies -/

/-- An object id's entry. -/
def State.obj (s : State) (id : Nat) : Option Obj := SMap.get (fun _ => none) s.objs id

/-- Replace an object. -/
def State.setObj (s : State) (id : Nat) (o : Option Obj) : State :=
  { s with objs := SMap.set (fun _ => none) s.objs id o }

/-- Chanter-local offset of an address in a chanter's range or in the own-chanter window (R227, R237). -/
def localOff (a : Nat) : Nat := if ownBase ≤ a then a - ownBase else a % chanterBytes

/-- The chanters of a mask. -/
def chantersOf (mask : Nat) : List Nat := (List.range 4).filter (fun c => mask.testBit c)

/-- The mask of a list of chanters. -/
def chanterMask (cs : List Nat) : Nat := (chantersOf 15).foldl (fun a c => if cs.contains c then a + 2 ^ c else a) 0

/-- A flag word with another chanter mask. -/
def withMask (f m : Nat) : Nat := f % 2 ^ 8 + 2 ^ 8 * m

/-- Where an object at an address lies, as pieces (first address of a chanter's range or of bellows SRAM, length): a `LOCAL` object
has one per chanter of its mask, an interleaved one a piece per granule (R228, R237). -/
def State.pieces (s : State) (f size a : Nat) : List (Nat × Nat) :=
  if oLocal f then (chantersOf (oMask f)).map (fun c => (c * chanterBytes + localOff a, size))
  else if oInter f then
    (List.range (ceilDiv size 4096)).map (fun i =>
      let g := (a - ilvBase) / 4096 + i
      (g % 4 * chanterBytes + (144 - s.ilvGib) * 2 ^ 30 + g / 4 * 4096, min 4096 (size - 4096 * i)))
  else [(a, size)]

/-- The physical byte of an address of a piece (R225). -/
def homePhys (a : Nat) : Nat := if a < 4 * chanterBytes then dramPhys (a / chanterBytes) (a % chanterBytes) else a

/-- The physical bytes of a piece. -/
def piecePhys (p : Nat × Nat) : List Nat := (List.range p.2).map (fun i => homePhys (p.1 + i))

/-- Two lists of pieces share a byte. -/
def piecesMeet (p q : List (Nat × Nat)) : Bool :=
  p.any (fun x => q.any (fun y => decide (x.1 < y.1 + y.2) && decide (y.1 < x.1 + x.2)))

/-- The address suits the object's home (R234, R235): a range of every chanter of the mask below the interleave part, the
interleave window, or banks of the home bellows that its partition may use, secure ones for `SECURE` (R238). -/
def State.homeOk (s : State) (f size part a : Nat) : Bool :=
  !(s.pieces f size a).any (fun p => s.withheld.any (fun g => decide (p.1 < g + 4096) && decide (g < p.1 + p.2))) &&
  (if oLocal f then
    (decide (ownBase ≤ a ∧ a < ownBase + chanterBytes) ||
      (decide (a < 4 * chanterBytes) && (oMask f).testBit (a / chanterBytes))) &&
    decide (localOff a + size ≤ (144 - s.ilvGib) * 2 ^ 30)
  else if oInter f then
    decide (ilvBase ≤ a) && decide (a + size ≤ ilvBase + 4 * s.ilvGib * 2 ^ 30) &&
      (List.range 4).all (fun c => s.online c)
  else
    let die := 4 + b2n (s.rbit (bank (Blk.part.at 4 4 0x120) part) 29)
    let off := a - bellowsSram die 0
    decide (bellowsSram die 0 ≤ a) && decide (off + size ≤ 64 * 2 ^ 21) &&
      (List.range (ceilDiv size (2 ^ 21) + 1)).all (fun i =>
        let b := off / 2 ^ 21 + i
        if off + size ≤ b * 2 ^ 21 then true
        else if oSecure f then decide (s.bankState (.bellows die) b = 3) && !s.rbit ((MemRef.bellows die).own b) 31
        else decide (s.bellowsBank die b = (0, 2)) || decide (s.bellowsBank die b = (0, 0x40 + part))))

/-- No byte at the address belongs to another object. -/
def State.spaceFree (s : State) (f size a : Nat) : Bool :=
  s.objs.all (fun e => match e.2 with
    | some o => (match o.addr with
      | some b => !piecesMeet (s.pieces f size a) (s.pieces o.flags o.size b)
      | none => true)
    | none => true)

/-! ### Quotas (R577) -/

/-- Bytes of an object placed on a chanter. -/
def Obj.dramOn (o : Obj) (c : Nat) : Nat :=
  match o.addr with
  | none => 0
  | some _ => if oLocal o.flags then (if (oMask o.flags).testBit c then o.size else 0)
    else if oInter o.flags then ceilDiv o.size 4 else 0

/-- Bytes a partition has placed in a chanter's DRAM. -/
def State.dramUsed (s : State) (part c : Nat) : Nat :=
  (s.objs.map (fun e => match e.2 with | some o => if o.part = part then o.dramOn c else 0 | none => 0)).sum

/-- Bytes of a partition's resident objects. -/
def State.residentUsed (s : State) (part : Nat) : Nat :=
  (s.objs.map (fun e => match e.2 with
    | some o => if o.part = part ∧ oResident o.flags then o.size else 0
    | none => 0)).sum

/-- Bytes of a partition's objects in flash: each of the two drones holds half of the stripes. -/
def State.flashUsed (s : State) (part : Nat) : Nat :=
  (s.objs.map (fun e => match e.2 with
    | some o => if o.part = part ∧ (oFlash o.flags ∨ o.parked) then o.size else 0
    | none => 0)).sum

/-- The quota of a partition on a die; none for no limit. -/
def State.quota (s : State) (die part : Nat) : Option Nat :=
  let q := (s.reg (bank (Blk.part.at die die 0x128) part)).toNat
  if q = 2 ^ 32 - 1 then none else some q

/-- `n` units fit a quota. -/
def quotaFits (q : Option Nat) (n : Nat) : Bool := match q with | none => true | some m => decide (n ≤ m)

/-- Adding an object keeps every quota it counts toward (R577). -/
def State.quotaOk (s : State) (f size part : Nat) : Bool :=
  let o : Obj := { size := size, flags := f, part := part, addr := some 0 }
  (List.range 4).all (fun c => decide (o.dramOn c = 0) ||
    quotaFits (s.quota c part) (ceilDiv (s.dramUsed part c + o.dramOn c) (2 ^ 30))) &&
  (!oResident f ||
    (let die := 4 + b2n (s.rbit (bank (Blk.part.at 4 4 0x120) part) 29)
     let owned := (List.range 64).countP (fun b => decide (s.bankOwner (.bellows die) b = 0x40 + part))
     quotaFits (s.quota die part) (owned + ceilDiv (s.residentUsed part + size) (2 ^ 21)))) &&
  (!(oFlash f && !oLocal f && !oInter f) ||
    (quotaFits (s.quota 6 part) (ceilDiv (ceilDiv (s.flashUsed part + size) 2) (2 ^ 30)) &&
     quotaFits (s.quota 7 part) (ceilDiv (ceilDiv (s.flashUsed part + size) 2) (2 ^ 30))))

/-! ### Eviction (R240 to R242) -/

/-- A model with no copy anywhere. -/
def Model.blank (_ : Nat) : Model := {}
/-- A model. -/
def State.model (s : State) (m : Nat) : Model := SMap.get Model.blank s.models m
/-- State of a model on a chanter (R249): 0 ABSENT, 1 LOADING, 2 READY, 3 UNLOADING. -/
def State.modelSt (s : State) (m c : Nat) : Nat := SMap.get (fun _ => 0) (s.model m).st c
/-- Set the state of a model on a chanter. -/
def State.setModelSt (s : State) (m c v : Nat) : State :=
  { s with models := SMap.upd Model.blank s.models m (fun x => { x with st := SMap.set (fun _ => 0) x.st c v }) }
/-- Set the state of a model on the chanters of a list. -/
def State.setModelOn (s : State) (m v : Nat) (cs : List Nat) : State := cs.foldl (fun t c => t.setModelSt m c v) s
/-- The chanters on which a model is in a state. -/
def State.modelOn (s : State) (m v : Nat) : List Nat := (List.range 4).filter (fun c => decide (s.modelSt m c = v))

/-- Take chanters out of the masks of a model's copies; a copy left with none is freed (R249, R251). -/
def State.freeCopies (s : State) (m : Nat) (cs : List Nat) : State :=
  let left (o : Obj) : Nat := chanterMask ((chantersOf (oMask o.flags)).filter (fun c => !cs.contains c))
  let s1 := (s.model m).copies.foldl (fun (t : State) id => match t.obj id with
    | none => t
    | some o => t.setObj id (if left o = 0 then none else some { o with flags := withMask o.flags (left o) })) s
  { s1 with models := SMap.upd Model.blank s1.models m (fun x => { x with
      copies := x.copies.filter (fun id => (s1.obj id).isSome) }) }

/-- The model whose copies in DRAM an object is. -/
def State.modelOf (s : State) (id : Nat) : Option Nat := (List.find? (fun (e : Nat × Model) => e.2.copies.contains id) s.models).map (fun e => e.1)

/-- A step or an accepted plan names the object (R240). -/
def State.isBound (s : State) (id : Nat) : Bool :=
  s.steps.any (fun e => !e.retired && e.objs.contains id) || s.breath.plans.any (fun p => p.uses.any (fun u => u.objs.contains id))

/-- The contents of an object in DRAM or SRAM, from its first copy. -/
def State.contents (s : State) (o : Obj) : Memory :=
  match o.addr with
  | none => o.data
  | some a =>
    let ps := s.pieces o.flags o.size a
    let ps' := if oLocal o.flags then ps.take 1 else ps
    (ps'.foldl (fun (acc : Nat × Memory) p =>
      (acc.1 + p.2, Memory.setBytes acc.2 acc.1 (s.readPhys (piecePhys p)))) (0, [])).2

/-- The physical bytes of an object's first copy, in order. -/
def State.objPhys (s : State) (o : Obj) : List Nat :=
  match o.addr with
  | none => []
  | some a =>
    let ps := s.pieces o.flags o.size a
    (if oLocal o.flags then ps.take 1 else ps).flatMap piecePhys

/-- Words of an object that a transfer reads as uncorrectable, by byte offset (R212). -/
def State.badWords (s : State) (o : Obj) : List Nat :=
  if s.flip = [] then o.bad
  else o.bad ++ (s.objPhys o).zipIdx.filterMap (fun q => if q.2 % 8 = 0 ∧ s.badByte q.1 = true then some q.2 else none)

/-- Write an object: the same bytes to every copy (R237), words known to be bad as poison (R211). -/
def State.fillObj (s : State) (f size a : Nat) (data : Memory) (bad : List Nat) : State :=
  ((s.pieces f size a).foldl (fun (acc : Nat × State) p =>
    let t := acc.2.writePhys (piecePhys p) (data.bytes acc.1 p.2)
    (acc.1 + (if oLocal f then 0 else p.2),
     { t with flip := (bad.filter (fun w => decide (acc.1 ≤ w ∧ w < acc.1 + p.2))).foldl (fun m w =>
         SMap.set (fun _ => 0) m (homePhys (p.1 + (w - acc.1)) / 8) poisonMask) t.flip })) (0, s)).2

/-- The copies of an object hold the same bytes (R237). -/
def State.copiesEqual (s : State) (o : Obj) : Bool :=
  match o.addr with
  | none => true
  | some a =>
    !oLocal o.flags || (s.pieces o.flags o.size a).all (fun p =>
      decide (s.readPhys (piecePhys p) = (s.contents o).bytes 0 o.size))

/-- Whether an object may be dropped (R241 item 1). A copy that a swap is still writing is none yet. -/
def State.droppable (s : State) (part : Nat) (id : Nat) (o : Obj) : Bool :=
  decide (o.part = part) && oFlash o.flags && o.addr.isSome && !s.isBound id && !s.swaps.any (fun w => decide (w.copy = id))

/-- An object is a session's DRAM image (R534). -/
def State.isSesImage (s : State) (id : Nat) : Bool := s.sess.any (fun e => decide (e.2.warm = id))

/-- Whether an object may be parked (R241 item 2): its image can be wrapped where it must be (R559, R789), and its copies agree (R237). -/
def State.parkable (s : State) (part : Nat) (id : Nat) (o : Obj) : Bool :=
  decide (o.part = part) && oParkable o.flags && o.addr.isSome && (oLocal o.flags || oInter o.flags) && !s.isBound id &&
    (if s.isSesImage id then !s.partSecure o.part || s.canWrap (s.partKey o.part)
     else s.copiesEqual o && (!oSecure o.flags || s.canWrap 0))

/-- The least recently bound object among those that satisfy `p`, ties by lower id. -/
def State.oldestObj (s : State) (p : Nat → Obj → Bool) : Option Nat :=
  (s.objs.foldl (fun (best : Option (Nat × Nat)) e =>
    match e.2 with
    | none => best
    | some o =>
      if p e.1 o then
        (match best with
         | none => some (o.lastBound, e.1)
         | some b => if o.lastBound < b.1 then some (o.lastBound, e.1) else best)
      else best) none).map (fun b => b.2)

/-- The sessions of an image that has left DRAM: a `WARM` one is `COLD` now, a `DURABLE` one keeps its flash copy (R535). -/
def State.sesEvicted (s : State) (id : Nat) : State :=
  { s with sess := s.sess.map (fun (e : Nat × Sess) =>
      if e.2.warm = id then (e.1, { e.2 with warm := 0, cold := id, dest := if e.2.dest = 0 then 1 else e.2.dest }) else e) }

/-- Drop a copy (R241). That of a model goes as a whole, and the model is `UNLOADING` where it was `READY` (R249). -/
def State.dropObj (s : State) (id : Nat) (o : Obj) : State :=
  match s.modelOf id with
  | some m =>
    let cs := chantersOf (oMask o.flags)
    let s1 := (s.setObj id none).setModelOn m 3 (cs.filter (fun c => decide (s.modelSt m c = 2)))
    { s1 with models := SMap.upd Model.blank s1.models m (fun x => { x with copies := x.copies.erase id }) }
  | none => (s.setObj id (some { o with addr := none })).sesEvicted id

/-- Seal the contents of a `SECURE` object under slot 0 on their way to flash (R238, R788). What the additional data are is not
stated: none here (log entry 201). -/
def State.sealObj (s : State) (bs : List Byte) : List Byte × Nat × State :=
  let (ser, s1) := s.takeSerial 0
  let key := match s.keySlot 0 with | some k => k.key | none => 0
  ((Config.gcmSeal key ser [] (byteNums bs)).map (fun n => BitVec.ofNat 8 n), ser, s1.wrapCount bs.length)

/-- Park an object (R241, R242). -/
def State.parkObj (s : State) (id : Nat) (o : Obj) : State :=
  let put (t : State) (x : Obj) : State := (t.setObj id (some { x with addr := none, parked := true })).sesEvicted id
  if s.isSesImage id then
    (if s.partSecure o.part then
      let (img, s1) := s.wrapImage (s.partKey o.part) (o.data.bytes 0 o.size)
      put s1 { o with data := Memory.setBytes [] 0 img, size := img.length }
    else put s o)
  else
    let sn := s.noteWords (s.objPhys o)
    if oSecure o.flags then
      let (img, ser, s1) := sn.sealObj ((s.contents o).bytes 0 o.size)
      put s1 { o with data := Memory.setBytes [] 0 img, sealLen := img.length, serial := some ser, bad := s.badWords o }
    else put sn { o with data := s.contents o, bad := s.badWords o }

/-- Drop or park one object: droppable copies first (R241). -/
def State.evictOne (s : State) (part : Nat) : Option State :=
  match s.oldestObj (s.droppable part) with
  | some id => (s.obj id).map (fun o => s.dropObj id o)
  | none =>
    match s.oldestObj (s.parkable part) with
    | none => none
    | some id => (s.obj id).map (fun o => s.parkObj id o)

/-- Evict until the placement fits, or nothing more can go; what went stays where it went (R241). -/
def State.makeRoom (s : State) (f size part a : Nat) : Nat → State × Bool
  | 0 => (s, s.spaceFree f size a && s.quotaOk f size part)
  | n + 1 =>
    if s.spaceFree f size a && s.quotaOk f size part then (s, true)
    else match s.evictOne part with
      | none => (s, false)
      | some s1 => State.makeRoom s1 f size part a n

/-! ### Allocation (R234 to R239) -/

/-- The outcome of an allocation: a status of R239 and the state. -/
def State.alloc (s : State) (f size part fn : Nat) (pl : Place) : Nat × State :=
  let inFlash := oFlash f && !oLocal f && !oInter f
  let put (t : State) (a : Option Nat) : State :=
    t.setObj pl.id (some { size := size, flags := f, part := part, fn := fn, addr := a, lastBound := t.breath.number })
  if flagsOk f = false then (1, s)
  else if sizeOk f size (if inFlash then none else pl.addr) = false then (2, s)
  else if oLocal f && (List.range 4).any (fun c => (oMask f).testBit c && !s.online c) then (5, s)
  else if (s.obj pl.id).isSome ∨ pl.id = 0 then (3, s)
  else if inFlash then (if s.quotaOk f size part then (0, put s none) else (4, s))
  else match pl.addr with
    | none => (3, s)
    | some a =>
      if s.homeOk f size part a = false then (3, s)
      else
        let dram := oLocal f || oInter f
        let (s1, ok) := s.makeRoom f size part a (if dram then s.objs.length + 1 else 0)
        if ok then (0, put s1 (some a))
        else if s1.quotaOk f size part = false then (4, s1)
        else (3, s1)

/-! ### Staging (R242, R243) -/

/-- The bytes of an object in flash: those of a parked one, unsealed where they are wrapped, or its flash copy. None where a key is
missing, a tag fails or a unit is uncorrectable (R699, R789). -/
def State.stagedBytes (s : State) (id : Nat) (o : Obj) : Option (List Byte) :=
  if o.parked then
    (match o.serial with
     | none => some (o.data.bytes 0 o.size)
     | some ser => match s.keySlot 0 with
       | none => none
       | some k => (Config.gcmOpen k.key ser [] (byteNums (o.data.bytes 0 o.sealLen))).map
           (fun bs => bs.map (fun n => BitVec.ofNat 8 n)))
  else match s.flashCode id with
    | none => some (s.flashBytes id 0 o.size)
    | some code =>
      if (List.range (ceilDiv o.size 4096)).any (fun u => s.unitBad code id u) then none else some (s.flashBytes id 0 o.size)

/-- Count what staging a parked object asks of the security unit: segments unwrapped, or a failed tag (R789, R791). -/
def State.stageCount (s : State) (id : Nat) (o : Obj) : State :=
  if o.parked = false ∨ o.serial = none ∨ (s.keySlot 0).isNone then s
  else if (s.stagedBytes id o).isSome then s.wrapCount o.size else s.tagFailed

/-- Bring an object of DRAM back from flash, at the address that the runtime gives it: a parked one is revived (R242), and one whose
copy was dropped or lost is staged again from its flash copy (R241, R243). Its mask keeps the chanters that are online; where none
is, the runtime takes the chanter of the address (log entry 202). A session's image is revived with its session. -/
def State.stageObj (s : State) (pl : Place) : State :=
  match s.obj pl.id, pl.addr with
  | some o, some a =>
    let on := (chantersOf (oMask o.flags)).filter (fun c => s.online c)
    let f := if oLocal o.flags then withMask o.flags (chanterMask (if on = [] then [a / chanterBytes] else on)) else o.flags
    if o.addr.isSome ∨ o.lost ∨ !(oLocal f || oInter f) ∨ !(o.parked || oFlash f) ∨ s.sess.any (fun e => decide (e.2.cold = pl.id)) ∨
        sizeOk f o.size (some a) = false ∨ (chantersOf (oMask f)).any (fun c => !s.online c) ∨ s.homeOk f o.size o.part a = false then s
    else match s.stagedBytes pl.id o with
      | none => s.stageCount pl.id o
      | some bs =>
        let (s1, ok) := (s.stageCount pl.id o).makeRoom f o.size o.part a (s.objs.length + 1)
        if ok then
          (s1.fillObj f o.size a (Memory.setBytes [] 0 bs) o.bad).setObj pl.id (some { o with
            flags := f, addr := some a, parked := false, serial := none, sealLen := 0, bad := []
            data := if oFlash f then o.data else [] })
        else s1
  | _, _ => s

/-- OBJ_ALLOC (R235, R239, R241, R669). -/
def execObjAlloc (c : HCmd) (place : Place) (s : State) : Res :=
  .next (s.hostRun c 24 true (fun s =>
    let (st, s1) := s.alloc (c.fld 8 4) (c.fld 0 8) (s.fnPart c.fn) c.fn place
    if st = 0 then
      s1.answerBlock c (c.fld 16 8)
        (leBytes 8 place.id ++ leBytes 8 (match s1.obj place.id with | some o => o.addr.getD 0 | none => 0)) place.id
    else s1.answer c st 0 0))

/-- OBJ_FREE: the object and its copies go; a bound object is not dropped (R240, R669). The status for an id that names
no object, or a bound one, is not stated: a free value. -/
def execObjFree (c : HCmd) (s : State) : Res :=
  .next (s.hostRun c 8 true (fun s =>
    let id := c.fld 0 8
    if (s.obj id).isSome ∧ s.isBound id = false then (s.setObj id none).answer c 0 0 0
    else let (v, s1) := s.free 8; s1.answer c v 0 0))

/-- OBJ_QUERY (R669). An object whose copies differ is reported as damaged, with a status that is not stated (R237; log entry 202). -/
def execObjQuery (c : HCmd) (s : State) : Res :=
  .next (s.hostRun c 16 true (fun s =>
    let id := c.fld 0 8
    match s.obj id with
    | some o =>
      if s.copiesEqual o then
        s.answerBlock c (c.fld 8 8) (leBytes 8 id ++ leBytes 8 (o.addr.getD 0) ++ leBytes 8 o.size ++ leBytes 8 o.flags) id
      else (let (v, s1) := s.free 8; s1.answer c v 0 0)
    | none => let (v, s1) := s.free 8; s1.answer c v 0 0))

/-! ### Loss with a chanter (R243) -/

/-- One object when chanter `c` goes offline. -/
def State.loseOn (s : State) (c id : Nat) (o : Obj) : State :=
  if o.addr = none then s
  else if oInter o.flags ∨ (oLocal o.flags ∧ oMask o.flags = 2 ^ c) then
    if oFlash o.flags then s.setObj id (some { o with addr := none })
    else (s.setObj id (some { o with addr := none, lost := true })).event o.fn 0x05 id
  else if oLocal o.flags ∧ (oMask o.flags).testBit c then
    s.setObj id (some { o with flags := o.flags - 2 ^ (8 + c) })
  else s

/-- Every object when chanter `c` goes offline. -/
def State.loseObjects (s : State) (c : Nat) : State :=
  s.objs.foldl (fun t e => match e.2 with | some o => t.loseOn c e.1 o | none => t) s

end Sys2Proof.Machine
end

