-- ==== Sys2Proof/Machine/Serpent.lean ====
section
/-! DEFINITION. The Serpent: gathers, pooling, updates, the row cache, the DRAM pool and migrations (R300 to R340). -/
namespace Sys2Proof.Machine

/-- A register of a Serpent. -/
def serpReg (die off : Nat) : Nat := Blk.serp.at die die off

/-- Add to a counter of a Serpent. -/
def State.serpCnt (s : State) (die off n : Nat) : State := if n = 0 then s else s.cntAdd .serp die die off n

/-! ### Version descriptors (R300 to R305) -/

/-- Columns of a version. -/
def VSlot.cols (v : VSlot) : Nat := dfld v.desc 8 2
/-- Rows of a version. -/
def VSlot.nRows (v : VSlot) : Nat := dfld v.desc 16 8 % 2 ^ 34 + 1
/-- The version is `TIERED`. -/
def VSlot.tiered (v : VSlot) : Bool := decide (dfld v.desc 6 1 = 1)
/-- The version is open to updates. -/
def VSlot.isOpen (v : VSlot) : Bool := bit (dfld v.desc 7 1) 0
/-- Partition of a version. -/
def VSlot.tablePart (v : VSlot) : Nat := dfld v.desc 10 1 % 64
/-- Base of a quarter: row 0, or the quarter header. -/
def VSlot.qBase (v : VSlot) (q : Nat) : Nat := dfld v.desc (24 + 8 * q) 8
/-- Bytes of a row quarter (R301). -/
def VSlot.qBytes (v : VSlot) : Nat := v.cols / 2

/-- A table version descriptor passes R300, R304, R305 and the alignment of R301. -/
def tableDescOk (id x : Nat) : Bool :=
  let c := dfld x 8 2
  let fl := dfld x 7 1
  decide (dfld x 4 2 = id) && decide (dfld x 6 1 ≤ 1) && decide (fl < 4) && decide (c % 128 = 0) && decide (128 ≤ c) &&
  decide (c ≤ 4096) && decide (dfld x 10 1 < 64) && decide (dfld x 11 5 = 0) && decide (dfld x 16 8 < 2 ^ 34) &&
  decide (dfld x 56 8 = 0) && (List.range 4).all (fun q => decide (dfld x (24 + 8 * q) 8 % 64 = 0)) &&
  !(bit fl 0 && bit fl 1) && !(bit fl 0 && decide (dfld x 6 1 = 1))

/-- Publish a table version on one Serpent (R328, R335). -/
def State.publishTable (s : State) (die id lo : Nat) : State :=
  (s.noteVer 0 die 64).publish 0 die id lo ((s.readVerDesc 0 die 64).bind (fun x => if tableDescOk id x then some x else none))

/-! ### Cache regions (R320 to R322, R339) -/

/-- A region word in force. -/
def Serpent.cregAt (x : Serpent) (i : Nat) : Word := SMap.get (fun _ => 0) x.creg i

/-- The enabled region of a table. -/
def Serpent.region (x : Serpent) (table : Nat) : Option Nat :=
  (List.range 8).find? (fun n => (x.cregAt (2 * n)).getLsbD 31 && decide (fieldW (x.cregAt (2 * n)) 25 16 = table))

/-- Sets of a region for rows quarters of `n` bytes (R320). -/
def Serpent.sets (x : Serpent) (region n : Nat) : Nat := fieldW (x.cregAt (2 * region + 1)) 9 0 * 65536 / n / 16

/-- A cached row. -/
def Serpent.cached (x : Serpent) (v : VSlot) (q row : Nat) : Option CacheRow :=
  x.cache.find? (fun e => decide (e.table = v.id ∧ e.version = v.version ∧ e.quarter = q ∧ e.row = row))

/-- Two regions of written words, both enabled, meet, or one passes 512 units. -/
def cregBad (w : Nat → Word) : Bool :=
  (List.range 8).any (fun i => (w (2 * i)).getLsbD 31 &&
    (decide (512 < fieldW (w (2 * i)) 8 0 + fieldW (w (2 * i + 1)) 9 0) ||
     (List.range 8).any (fun j => decide (j ≠ i) && (w (2 * j)).getLsbD 31 &&
       meets (fieldW (w (2 * i)) 8 0) (fieldW (w (2 * i + 1)) 9 0) (fieldW (w (2 * j)) 8 0) (fieldW (w (2 * j + 1)) 9 0))))

/-- A write of a region word: it takes effect at the next edge (R339). -/
def State.writeCreg (s : State) (who : Requester) (die i : Nat) (v : Word) : State :=
  let a := serpReg die (0x140 + 4 * i)
  let s1 := s.writeAt who .serp die die (0x140 + 4 * i) v
  if cregBad (fun j => s1.reg (serpReg die (0x140 + 4 * j))) then s.refuseWrite who .serp die die (0x140 + 4 * i) v
  else if s.frozen a then s1
  else
    let x := s1.serp die
    s1.setSerp die { x with dirty := if x.dirty.contains (i / 2) then x.dirty else (i / 2) :: x.dirty }

/-- The written regions take effect at an edge, invalidated (R339). -/
def State.cregEdge (s : State) (die : Nat) : State :=
  let x := s.serp die
  if x.dirty = [] then s
  else
    let creg := (x.dirty.flatMap (fun n => [2 * n, 2 * n + 1])).foldl (fun m i =>
      SMap.set (fun _ => 0) m i (s.reg (serpReg die (0x140 + 4 * i)))) x.creg
    s.setSerp die { x with
      creg := creg, dirty := [], cache := x.cache.filter (fun e => !x.dirty.contains e.region)
      tags := x.tags.filter (fun t => match t.dest with
        | .cache r _ => !x.dirty.contains r
        | .pool _ _ => true) }

/-- Halve every use count of a Serpent (R321). -/
def State.decayCounts (s : State) (die : Nat) : State :=
  let x := s.serp die
  s.setSerp die { x with
    cache := x.cache.map (fun e => { e with use := e.use / 2 }), pool := x.pool.map (fun e => (e.1, (e.2.1 / 2, e.2.2))) }

/-- Count one interactive use of a cached row. -/
def Serpent.useRow (x : Serpent) (e : CacheRow) : Serpent :=
  { x with cache := x.cache.map (fun (c : CacheRow) => if c = e then { c with use := min 255 (c.use + 1) } else c) }

/-- The entry with the lowest use count, the earliest filled among equals: counts and orders by place. -/
def victim {α : Type} (use : α → Nat × Nat) : List α → Option α
  | [] => none
  | e :: es => match victim use es with
    | none => some e
    | some f => if (use f).1 < (use e).1 ∨ ((use f).1 = (use e).1 ∧ (use f).2 < (use e).2) then some f else some e

/-- A row already migrates to a place of this kind. -/
def Serpent.migrating (x : Serpent) (v : VSlot) (q row : Nat) (toPool : Bool) : Bool :=
  x.tags.any (fun t => decide (t.table = v.id ∧ t.version = v.version ∧ t.quarter = q ∧ t.row = row) &&
    (match t.dest with | .cache _ _ => !toPool | .pool _ _ => toPool))

/-- The tag of a migration that starts now. -/
def newTag (v : VSlot) (q row part : Nat) (dest : Dest) (src : Option Nat) (data : List Byte) : Tag :=
  { table := v.id, version := v.version, quarter := q, row := row, dest := dest, data := data, part := part, src := src }

/-- Consider a row for promotion into its cache set after an interactive miss in a region (R322, R324). -/
def State.promote (s : State) (die : Nat) (v : VSlot) (part q row region : Nat) (src : Option Nat) (data : List Byte) : State :=
  let x := s.serp die
  let sets := x.sets region v.qBytes
  if x.migrating v q row false then s
  else if sets = 0 ∨ 64 ≤ x.tags.length then s.serpCnt die 0x048 1
  else
    let set := rowHash row % sets
    let ways := x.cache.filter (fun e => decide (e.region = region ∧ e.set = set))
    let busy := x.tags.countP (fun t => decide (t.dest = .cache region set))
    let tag := newTag v q row part (.cache region set) src data
    if ways.length + busy < 16 then s.setSerp die { x with tags := x.tags ++ [tag] }
    else match victim (fun (e : CacheRow) => (e.use, e.order)) ways with
      | none => s.serpCnt die 0x048 1
      | some w =>
        if w.use ≤ 1 then s.setSerp die { x with cache := x.cache.erase w, tags := x.tags ++ [tag] }
        else s.serpCnt die 0x048 1

/-! ### Tiered rows (R306 to R308, R323) -/

/-- A quarter header (R306). -/
structure QHead where
  obj : Nat
  map : Nat
  log2 : Nat
  slots : Nat
  pool : Nat
  deriving DecidableEq, Repr

/-- Read the quarter header of a tiered version. -/
def State.quarterHead (s : State) (die part : Nat) (v : VSlot) (q : Nat) : Except Nat QHead :=
  match s.ureadLe die part 3 4 64 (v.qBase q) 64 with
  | .error c => .error c
  | .ok h => .ok { obj := dfld h 0 8, map := dfld h 8 8, log2 := dfld h 16 1, slots := dfld h 20 4, pool := dfld h 24 8 }

/-- The bucket of a row: its device address. -/
def QHead.bucket (h : QHead) (row : Nat) : Nat := h.map + 64 * (rowHash row % 2 ^ h.log2)

/-- The entries of a bucket: (device address, entry). -/
def State.bucketOf (s : State) (die part : Nat) (h : QHead) (row : Nat) : Except Nat (List (Nat × Nat)) :=
  match s.ureadLe die part 3 4 64 (h.bucket row) 64 with
  | .error c => .error c
  | .ok b => .ok ((List.range 8).map (fun i => (h.bucket row + 8 * i, dfld b (8 * i) 8)))

/-- The valid entry of a row in a bucket. -/
def bucketFind (es : List (Nat × Nat)) (row : Nat) : Option (Nat × Nat) :=
  es.find? (fun e => bit e.2 63 && decide (bits e.2 61 28 = row))

/-- Pool slots in use: those that a valid row-map entry names, and those that a migration is filling. -/
def State.slotUsed (s : State) (die part : Nat) (h : QHead) (slot : Nat) : Bool :=
  (match s.xlat (.unit die) (some part) false h.map (64 * 2 ^ h.log2) with
   | none => true
   | some ps =>
     let p0 := ps.headD 0
     s.mem.any (fun e => decide (p0 ≤ e.1) && decide (e.1 < p0 + 64 * 2 ^ h.log2) && decide (e.1 % 8 = 7) && e.2.getLsbD 7 &&
       decide (bits (s.mem.le (e.1 / 8 * 8) 8) 27 0 = slot))) ||
  (s.serp die).tags.any (fun t => match t.dest with | .pool e k => decide (k = slot) && meets e 8 h.map (64 * 2 ^ h.log2) | .cache _ _ => false)

/-- The lowest free slot among the first `n`. -/
def State.freePool (s : State) (die part : Nat) (h : QHead) : Option Nat :=
  (List.range h.slots).find? (fun k => !s.slotUsed die part h k)

/-- Write a row-map entry. -/
def State.setEntry (s : State) (die part a e : Nat) : State :=
  match s.uwrite die part 3 4 8 a (leBytes 8 e) with
  | .ok t => t
  | .error _ => s

/-- Consider a row read from flash for promotion into the DRAM pool (R323, R324). -/
def State.promotePool (s : State) (die : Nat) (v : VSlot) (part q row : Nat) (h : QHead) (data : List Byte) : State :=
  let x := s.serp die
  if x.migrating v q row true ∨ 64 ≤ x.tags.length then s
  else match s.bucketOf die part h row with
    | .error _ => s
    | .ok es =>
      let busy (a : Nat) : Bool := x.tags.any (fun t => match t.dest with | .pool e _ => decide (e = a) | .cache _ _ => false)
      let start (t : State) (a slot : Nat) : State :=
        t.setSerp die { t.serp die with tags := (t.serp die).tags ++ [newTag v q row part (.pool a slot) none data] }
      match es.find? (fun e => !bit e.2 63 && !busy e.1), s.freePool die part h with
      | some e, some k => start s e.1 k
      | some _, none => s
      | none, _ =>
        match victim (fun (e : Nat × Nat) => SMap.get (fun _ => (0, 0)) x.pool e.1) (es.filter (fun e => bit e.2 63)) with
        | none => s
        | some w =>
          if (SMap.get (fun _ => (0, 0)) x.pool w.1).1 ≤ 1 then start (s.setEntry die part w.1 0) w.1 (bits w.2 27 0) else s

/-! ### A quarter on a new host (R331) -/

/-- The flash object, and the place in it, that a version's moved quarter is served from (R331). The spec gives a staged quarter, or
the empty row map and pool of a moved tiered one, no place on the new host: the model serves the rows from the flash object, a
`DIRECT` one as staged at the edge that moves it, a `TIERED` one with a row map in which no entry becomes valid (DESIGN CHOICE, log
entry 191). -/
def VSlot.moved (v : VSlot) (q : Nat) : Option (Nat × Nat) := (v.rehost.find? (fun e => decide (e.1 = q))).map (fun e => e.2)

/-- The `FLASH_BACKED` object whose copy on chanter `c` holds a chanter-local offset, and the place in it. -/
def State.flashObjAt (s : State) (c off : Nat) : Option (Nat × Nat) :=
  s.objs.findSome? (fun e => match e.2 with
    | some o => (match o.addr with
      | some b =>
        if oFlash o.flags && oLocal o.flags && (oMask o.flags).testBit c && decide (localOff b ≤ off) && decide (off < localOff b + o.size)
        then some (e.1, off - localOff b) else none
      | none => none)
    | none => none)

/-- A device address lies in the DRAM of chanter `c`, as that chanter sees it. -/
def onChanter (c a : Nat) : Bool := decide (a / chanterBytes = c) || (decide (ownBase ≤ a) && decide (a < ownBase + chanterBytes))

/-- Where a quarter of a table version that chanter `c` hosts is found in flash: the object of its quarter header, or the object
that is its DRAM copy (R235, R306, R331). -/
def State.quarterFlash (s : State) (c : Nat) (v : VSlot) (q : Nat) : Option (Nat × Nat) :=
  let a := v.qBase q
  if onChanter c a = false then none
  else if v.tiered then
    let ps := (List.range 8).map (fun i => dramPhys c (localOff a + i))
    if s.anyBad ps then none else some (leOf (s.readPhys ps), 0)
  else if bit (dfld v.desc 7 1) 1 then s.flashObjAt c (localOff a) else none

/-- Note, before chanter `c` goes offline, where the quarters it hosts are found in flash (R331). -/
def State.rehostTables (s : State) (c : Nat) : State :=
  let qs := (List.range 4).filter (fun q => decide (s.hostOf .serp c q = c))
  let slot (v : VSlot) : VSlot := { v with rehost := v.rehost ++ qs.filterMap (fun q => (s.quarterFlash c v q).map (fun e => (q, e))) }
  (List.range 4).foldl (fun (t : State) d => t.setDir 0 d { t.dir 0 d with slots := (t.dir 0 d).slots.map slot }) s

/-! ### Looking up a row quarter -/

/-- What a lookup meets. -/
inductive RowRes where
  | row (data : List Byte) (s : State)
  /-- The row must come from flash (R308). -/
  | flash
  | fail (code : Nat)
  deriving Repr

/-- Count an interactive use of a pool entry (R321). -/
def State.poolUse (s : State) (die a : Nat) : State :=
  let x := s.serp die
  s.setSerp die { x with pool := SMap.upd (fun _ => (0, 0)) x.pool a (fun c => (min 255 (c.1 + 1), c.2)) }

/-- Use the row a source copy holds: counted as a miss of an enabled region, and considered for promotion (R322). -/
def State.sourceRow (s : State) (die part : Nat) (v : VSlot) (bulk : Bool) (q row : Nat) (src : Option Nat) (data : List Byte) : RowRes :=
  match (s.serp die).region v.id with
  | none => .row data s
  | some r =>
    let s1 := s.serpCnt die 0x040 1
    .row data (if bulk then s1 else s1.promote die v part q row r src data)

/-- What looking up a row of a tiered quarter reads besides the row: its header and its bucket. -/
def VSlot.mapReads (v : VSlot) (q : Nat) (h : QHead) (row : Nat) : List (Nat × Nat) := [(v.qBase q, 64), (h.bucket row, 64)]

/-- A row that flash holds: as it was delivered for this index, or to be read (R308). -/
def rowGot (got : List ((Nat × Nat) × List Byte)) (q row : Nat) (k : List Byte → RowRes) : RowRes :=
  match got.find? (fun g => decide (g.1 = (q, row))) with
  | none => .flash
  | some g => k g.2

/-- Look up row quarter `q` of a row for a step of `part`: the cache, then DRAM, then flash; `got` are rows that flash has
delivered for the index (R308, R320 to R324). -/
def State.lookup (s : State) (die part : Nat) (v : VSlot) (bulk : Bool) (got : List ((Nat × Nat) × List Byte)) (q row : Nat) : RowRes :=
  let x := s.serp die
  let pooled : Option Nat := if v.tiered = false ∨ (v.moved q).isSome then none
    else match s.quarterHead die part v q with
      | .error _ => none
      | .ok h => match s.bucketOf die part h row with
        | .error _ => none
        | .ok es => (bucketFind es row).map (fun e => e.1)
  let mark (t : State) : State := match pooled with
    | some a => if bulk then t else t.poolUse die a
    | none => t
  match x.cached v q row with
  | some e => .row e.data (mark ((if bulk then s else s.setSerp die (x.useRow e)).serpCnt die 0x038 1))
  | none =>
    match v.moved q with
    | some (obj, at') =>
      if v.tiered then rowGot got q row (fun d => s.sourceRow die part v bulk q row none d)
      else s.sourceRow die part v bulk q row none (s.flashBytes obj (at' + row * v.qBytes) v.qBytes)
    | none =>
      if v.tiered = false then
        let a := v.qBase q + row * v.qBytes
        match s.uread die part 3 4 1 a v.qBytes with
        | .error c => .fail c
        | .ok d => (s.noteIns die part [(a, v.qBytes)]).sourceRow die part v bulk q row (some a) d
      else match s.quarterHead die part v q with
        | .error c => .fail c
        | .ok h =>
          match s.bucketOf die part h row with
          | .error c => .fail c
          | .ok es =>
            match bucketFind es row with
            | some e =>
              let a := h.pool + bits e.2 27 0 * v.qBytes
              (match s.uread die part 3 4 1 a v.qBytes with
               | .error c => .fail c
               | .ok d => ((mark s).noteIns die part ((a, v.qBytes) :: v.mapReads q h row)).sourceRow die part v bulk q row (some a) d)
            | none =>
              rowGot got q row (fun d =>
                let s1 := s.noteIns die part (v.mapReads q h row)
                (if bulk then s1 else s1.promotePool die v part q row h d).sourceRow die part v bulk q row none d)

/-! ### Descriptors (R309, R310) -/

/-- A Serpent descriptor read with its offsets and indices. -/
structure SDesc where
  v : Nat
  off : List Nat
  idx : List Nat
  deriving DecidableEq, Repr

/-- The op of a descriptor. -/
def SDesc.op (d : SDesc) : Nat := dfld d.v 0 1
/-- The flags of a descriptor. -/
def SDesc.flags (d : SDesc) : Nat := dfld d.v 1 1
/-- Bulk traffic class. -/
def SDesc.bulk (d : SDesc) : Bool := bit d.flags 0
/-- Bags. -/
def SDesc.bags (d : SDesc) : Nat := dfld d.v 4 4
/-- Bytes of an output element. -/
def SDesc.size (d : SDesc) : Nat := if bit d.flags 2 then 4 else 2
/-- Updates carry FP16 rows for op 4 and FP32 deltas for op 5. -/
def SDesc.updSize (d : SDesc) : Nat := if d.op = 4 then 2 else 4

/-- Little-endian numbers of `w` bytes. -/
def numsOf (bs : List Byte) (w n : Nat) : List Nat := (List.range n).map (fun i => leOf ((bs.drop (w * i)).take w))

/-- The checks of R310 on the descriptor alone. -/
def serpFieldsOk (v : Nat) : Bool :=
  let op := dfld v 0 1
  let fl := dfld v 1 1
  decide (op ≤ 5) && decide (fl < 32) && decide (dfld v 2 2 < 1024) && decide (1 ≤ dfld v 4 4) && decide (dfld v 4 4 ≤ 2 ^ 20) &&
  decide (dfld v 48 16 = 0) && !((decide (op = 1) || decide (op = 2)) && bit fl 0) && !(decide (op = 3) && !bit fl 0)

/-- The checks of R310 on the offsets. -/
def serpOffsOk (op : Nat) (off : List Nat) : Bool :=
  decide (off.headD 0 = 0) &&
  (List.zip off (off.drop 1)).all (fun p => decide (p.1 ≤ p.2) &&
    (decide (op = 0 ∨ 4 ≤ op) || decide (p.2 - p.1 ≤ 4096)) && (decide (op ≠ 0) || decide (p.2 = p.1 + 1)))

/-- Read a descriptor's offsets and indices, and check it (R310): a code of R332, or the descriptor. -/
def State.serpDesc (s : State) (die part v : Nat) : Except Nat SDesc :=
  if serpFieldsOk v = false then .error 1
  else
    let n := dfld v 4 4
    match s.uread die part 3 4 4 (dfld v 16 8) (4 * (n + 1)) with
    | .error c => .error c
    | .ok ob =>
      let off := numsOf ob 4 (n + 1)
      if serpOffsOk (dfld v 0 1) off = false then .error 1
      else
        let m := off.getLastD 0
        match s.uread die part 3 4 8 (dfld v 8 8) (8 * m) with
        | .error c => .error c
        | .ok ib => .ok { v := v, off := off, idx := numsOf ib 8 m }

/-- The quarters a Serpent hosts (R302). -/
def State.hosted (s : State) (die : Nat) : List Nat := (List.range 4).filter (fun q => decide (s.hostOf .serp die q = die))

/-! ### Pooling (R313 to R315) -/

/-- Element `e` of a row quarter as an exact value. -/
def rowElem (data : List Byte) (e : Nat) : FVal := fFP16.decode (leOf ((data.drop (2 * e)).take 2))

/-- Pool one element over the rows of a bag, with their weights (R313). -/
def poolElem (op : Nat) (rows : List (FVal × Option Word)) : Word :=
  let x (r : FVal × Option Word) : FVal := match r.2 with
    | some w => (fp32 w).mul r.1
    | none => r.1
  if op = 3 then
    match rows with
    | [] => 0xFF800000
    | r :: rs => rs.foldl (fun acc y => BitVec.ofNat 32 (fMaxMin fFP32 true acc.toNat (toFp32 false (x y)).toNat)) (toFp32 false (x r))
  else
    let sum := rows.foldl (fun acc y => toFp32 false ((fp32 acc).add (x y))) (0 : Word)
    if op = 1 then sum
    else if rows = [] then 0
    else match fp32 sum with
      | .fin neg m e =>
        let n := rows.length
        let k := Nat.log2 n + 64
        if m = 0 then BitVec.ofNat 32 (fFP32.signBit neg)
        else toFp32 false (.fin neg (2 * (m * 2 ^ k / n) + b2n (decide (m * 2 ^ k % n ≠ 0))) (e - k - 1))
      | y => toFp32 false y

/-- An empty maximum stored as FP16, and the conversion of R314. -/
def poolOut (d : SDesc) (op : Nat) (empty : Bool) (x : Word) : List Byte :=
  if bit d.flags 2 then leBytes 4 x.toNat
  else if op = 3 ∧ empty then leBytes 2 (if bit d.flags 3 then 0xFC00 else 0xFBFF)
  else leBytes 2 (fFP16.round (bit d.flags 3) none (fp32 x))

/-- The positions of a bag. -/
def SDesc.bag (d : SDesc) (b : Nat) : List Nat :=
  let lo := d.off.getD b 0
  (List.range (d.off.getD (b + 1) 0 - lo)).map (fun i => lo + i)

/-- The output bytes of a bag's columns of one quarter; none where a gather leaves its row unwritten (R313 to R315).
`row j` is the row quarter at position `j`, none where it is out of range. -/
def SDesc.bagOut (d : SDesc) (cols b : Nat) (row : Nat → Option (List Byte)) (w : Nat → Option Word) : Option (List Byte) :=
  let rs := (d.bag b).filterMap (fun j => (row j).map (fun data => (data, w j)))
  if d.op = 0 then
    match rs with
    | [] => none
    | r :: _ => some ((List.range (cols / 4)).flatMap (fun e =>
        if bit d.flags 2 then leBytes 4 (widen 5 (leOf ((r.1.drop (2 * e)).take 2))).toNat else (r.1.drop (2 * e)).take 2))
  else
    some ((List.range (cols / 4)).flatMap (fun e =>
      poolOut d d.op (decide (rs = [])) (poolElem d.op (rs.map (fun r => (rowElem r.1 e, r.2))))))

/-- Write a list of pieces for a unit, or a code. -/
def State.uwrites (s : State) (slot die part cr cu align : Nat) : List (Nat × List Byte) → Except Nat State
  | [] => .ok s
  | w :: ws =>
    match s.uout slot die part cr cu align w.1 w.2 with
    | .error c => .error c
    | .ok t => State.uwrites t slot die part cr cu align ws

/-- Write the outputs and, where quarter 0 is hosted, the status of ops 0 to 3 (R310, R312). -/
def State.serpOutput (s : State) (die part : Nat) (d : SDesc) (v : VSlot) (qs : List Nat) (rows : List (List Byte)) (ws : List Word) : Except Nat State :=
  let ok (j : Nat) : Bool := decide (d.idx.getD j 0 < v.nRows)
  let w (j : Nat) : Option Word := if bit d.flags 1 ∧ d.op ≠ 0 then some (ws.getD j 0) else none
  let outs := (List.range d.bags).flatMap (fun b => (List.range qs.length).filterMap (fun i =>
    (d.bagOut v.cols b (fun j => if ok j then some (rows.getD (j * qs.length + i) []) else none) w).map (fun bs =>
      (dfld d.v 32 8 + (b * v.cols + qs.getD i 0 * (v.cols / 4)) * d.size, bs))))
  match s.uwrites 8 die part 3 4 d.size outs with
  | .error c => .error c
  | .ok t =>
    if qs.contains 0 = false then .ok t
    else t.uwrites 8 die part 3 4 8 ((List.range d.bags).map (fun b =>
      let valid := (d.bag b).countP ok
      (dfld d.v 40 8 + 8 * b, leBytes 2 valid ++ leBytes 2 ((d.bag b).length - valid) ++ leBytes 4 0)))

/-! ### Updates (R316 to R319, R324, R325) -/

/-- A row quarter after an update: overwritten, or with its deltas added (R316). -/
def applyUpd (add : Bool) (row data : List Byte) : List Byte :=
  if add = false then data
  else (List.range (row.length / 2)).flatMap (fun e =>
    leBytes 2 (fFP16.round false none ((rowElem row e).add (fp32 (BitVec.ofNat 32 (leOf ((data.drop (4 * e)).take 4)))))))

/-- Buffered updates in use. -/
def Serpent.buffered (x : Serpent) : Nat := (x.tags.map (fun t => t.upd.length)).sum

/-- A tag of a row. -/
def tagsRow (v : VSlot) (q row : Nat) (t : Tag) : Bool :=
  decide (t.table = v.id ∧ t.version = v.version ∧ t.quarter = q ∧ t.row = row)

/-- Apply one update to one quarter: the row storage, every cached copy, and the buffer of a migration; `none` where the buffer
is full (R319, R324, R325). -/
def State.updateRow (s : State) (die part : Nat) (v : VSlot) (add : Bool) (q row : Nat) (data : List Byte) : Except Nat (Option State) :=
  let x := s.serp die
  let n := x.tags.countP (tagsRow v q row)
  if n ≠ 0 ∧ 256 < x.buffered + n then .ok none
  else
    let a := v.qBase q + row * v.qBytes
    match (if add then s.uread die part 3 4 1 a v.qBytes else .ok []) with
    | .error c => .error c
    | .ok old =>
      let new := applyUpd add old data
      match (if add then s.noteIns die part [(a, v.qBytes)] else s).uout 8 die part 3 4 1 a new with
      | .error c => .error c
      | .ok t =>
        let y := t.serp die
        .ok (some (t.setSerp die { y with
          cache := y.cache.map (fun (e : CacheRow) =>
            if e.table = v.id ∧ e.version = v.version ∧ e.quarter = q ∧ e.row = row then { e with data := new } else e)
          tags := y.tags.map (fun (g : Tag) => if tagsRow v q row g then { g with upd := g.upd ++ [(add, data)] } else g) }))

/-- Apply one update to every hosted quarter. -/
def State.updateQuarters (s : State) (die part : Nat) (d : SDesc) (v : VSlot) (j row : Nat) : List Nat → Except Nat (Option State)
  | [] => .ok (some s)
  | q :: qs =>
    let n := v.cols / 4 * d.updSize
    match s.uread die part 3 4 d.updSize (dfld d.v 24 8 + j * v.cols * d.updSize + q * n) n with
    | .error c => .error c
    | .ok data =>
      match s.updateRow die part v (decide (d.op = 5)) q row data with
      | .error c => .error c
      | .ok none => .ok none
      | .ok (some t) => State.updateQuarters t die part d v j row qs

/-! ### Running a descriptor -/

/-- Keep the job in progress. -/
def State.setSJob (s : State) (die : Nat) (j : Option SJob) : State :=
  (s.setSerp die { s.serp die with job := j }).unitBusy .serp die 0x118 j.isSome

/-- What one pass over the indices ends in. -/
inductive SRes where
  | done (s : State) (j : SJob)
  | wait (s : State) (j : SJob)
  | fail (s : State) (code : Nat)
  deriving Repr

/-- Resolve the hosted quarters of one index. -/
def State.lookupQuarters (s : State) (die part : Nat) (d : SDesc) (v : VSlot) (j : SJob) (row : Nat) : List Nat → SRes
  | [] => .done s j
  | q :: qs =>
    match s.lookup die part v d.bulk j.fetched q row with
    | .fail c => .fail s c
    | .flash => .wait s { j with need := some (q, row) }
    | .row data t => State.lookupQuarters t die part d v { j with rows := j.rows ++ [data] } row qs

/-- Go over the indices from the job's position (R311, R316). -/
def State.serpWalk (s : State) (die part : Nat) (d : SDesc) (v : VSlot) (qs : List Nat) : Nat → SJob → SRes
  | 0, j => .done s j
  | n + 1, j =>
    if d.idx.length ≤ j.pos then .done s j
    else
      let row := d.idx.getD j.pos 0
      if v.nRows ≤ row then
        State.serpWalk (s.serpCnt die 0x060 1) die part d v qs n
          { j with pos := j.pos + 1, rows := j.rows ++ qs.map (fun _ => []) }
      else if 4 ≤ d.op then
        match s.updateQuarters die part d v j.pos row qs with
        | .error c => .fail s c
        | .ok none => .wait s { j with held := true }
        | .ok (some t) => State.serpWalk (t.serpCnt die 0x050 1) die part d v qs n { j with pos := j.pos + 1, held := false }
      else
        let left := qs.drop (j.rows.length - j.pos * qs.length)
        match s.lookupQuarters die part d v { j with need := none } row left with
        | .fail t c => .fail t c
        | .wait t j' => .wait t j'
        | .done t j' => State.serpWalk (t.serpCnt die 0x030 1) die part d v qs n { j' with pos := j'.pos + 1, fetched := [] }

/-- The version that a step bound, lost or not (R329, R332). -/
def State.boundAny (s : State) (kind die id uid : Nat) : Option VSlot :=
  (s.dir kind die).slots.find? (fun w => decide (w.id = id) && w.bound.any (fun b => decide (b.1 = uid)))

/-- Leave the outputs of one descriptor undefined: its rows in the hosted quarters, where the step bound a version that tells its
columns, and its status (R309, R312, R332). -/
def State.serpUndefine (s : State) (die : Nat) (r : URun) (w : Nat) : State :=
  let qs := s.hosted die
  let d : SDesc := ⟨w, [], []⟩
  let rows (t : State) : State := match s.boundAny 0 die (dfld w 2 2 % 1024) r.uid with
    | none => t
    | some e => (List.range d.bags).foldl (fun u b => qs.foldl (fun u' q =>
        u'.undefineOut die r.part (dfld w 32 8 + (b * e.cols + q * (e.cols / 4)) * d.size) (e.cols / 4 * d.size)) u) t
  let s1 := if 4 ≤ d.op then s else rows s
  if qs.contains 0 then s1.undefineOut die r.part (dfld w 40 8) (if 4 ≤ d.op then 8 else 8 * d.bags) else s1

/-- Fail a descriptor: the outputs of it and of those after it are undefined (R332). One that is refused with 0x01 changes no
output of its own (R310). -/
def State.serpFail (s : State) (die : Nat) (r : URun) (v err : Nat) : State :=
  let code := errCode err
  let s1 := (s.listDescs die r.part r.list 12 4096 (r.idx + b2n (decide (code = 1)))).foldl (fun t w => t.serpUndefine die r w)
    (s.noteErr die r.part err)
  ((s1.setSJob die none).unitError .serp die 0x118 code 9 (dfld v 2 2 % 1024)).runFail die 8 3 code

/-- An access of R318 by a step: refused where a step before it in dispatch order conflicts; recorded otherwise. -/
def State.crossStep (s : State) (die table version uid : Nat) (upd : Bool) : Bool :=
  (s.serp die).seen.any (fun e => decide (e.1 = table ∧ e.2.1 = version ∧ e.2.2.1 < s.stepOrder uid) && (upd || e.2.2.2))

/-- Record an access of this breath (R318). -/
def State.recordAccess (s : State) (die table version uid : Nat) (upd : Bool) : State :=
  let x := s.serp die
  let e := (table, version, s.stepOrder uid, upd)
  if x.seen.contains e then s else s.setSerp die { x with seen := e :: x.seen }

/-- Complete a descriptor whose indices are done. The spec states no layout for the status of ops 4 and 5: a free value. -/
def State.serpFinish (s : State) (die : Nat) (r : URun) (d : SDesc) (v : VSlot) (qs : List Nat) (j : SJob) : State :=
  let close (t : State) : State := (t.setSJob die none).runNext die 8 (bit d.flags 4)
  if 4 ≤ d.op then
    let (w, s1) := s.free 64
    if qs.contains 0 = false then close s
    else match s1.uout 8 die r.part 3 4 8 (dfld d.v 40 8) (leBytes 8 w) with
      | .error c => s.serpFail die r d.v c
      | .ok t => close t
  else
    let ws := if bit d.flags 1 ∧ d.op ≠ 0 then s.uread die r.part 3 4 4 (dfld d.v 24 8) (4 * d.idx.length) else .ok []
    match ws with
    | .error c => s.serpFail die r d.v c
    | .ok wb =>
      match (s.noteIns die r.part [(dfld d.v 24 8, wb.length)]).serpOutput die r.part d v qs j.rows ((numsOf wb 4 (wb.length / 4)).map (fun x => BitVec.ofNat 32 x)) with
      | .error c => s.serpFail die r d.v c
      | .ok t => close t

/-- Run the descriptor `v` from a job's position. -/
def State.serpGo (s : State) (die : Nat) (r : URun) (x : Nat) (j : SJob) : State :=
  match s.serpDesc die r.part x with
  | .error c => s.serpFail die r x c
  | .ok d =>
    match s.boundVer 0 die (dfld x 2 2) r.uid with
    | none => s.serpFail die r x 2
    | some v =>
      let upd := decide (4 ≤ d.op)
      if v.tablePart ≠ r.part then s.serpFail die r x 6
      else if upd && !v.isOpen then s.serpFail die r x 1
      else if s.crossStep die v.id v.version r.uid upd then s.serpFail die r x 7
      else
        let qs := s.hosted die
        let s0 := if j = {} then
            s.noteIns die r.part [(r.list + 64 * r.idx, 64), (dfld x 16 8, 4 * (d.bags + 1)), (dfld x 8 8, 8 * d.idx.length)]
          else s
        match ((if upd then s0.stepUpdates r.uid else s0).recordAccess die v.id v.version r.uid upd).serpWalk die r.part d v qs (d.idx.length + 1) j with
        | .fail t c => t.serpFail die r x c
        | .wait t j' => t.setSJob die (some j')
        | .done t j' => t.serpFinish die r d v qs j'

/-- Serve the next descriptor of the Serpent's list where it is of op `op`, or go on with it; a reserved op fails here. -/
def State.serpServe (s : State) (die op : Nat) : State :=
  match s.runOf die 8 with
  | none => s
  | some r =>
    if r.ended then s
    else match s.nextDesc die 3 4 r with
      | .error c => s.serpFail die r 0 c
      | .ok v =>
        let o := dfld v 0 1
        if o ≤ 5 ∧ o ≠ op then s
        else match (s.serp die).job with
          | some j => if j.need.isSome then s else s.serpGo die r v j
          | none => if r.hold then s else s.serpGo die r v {}

/-- A row quarter arrives from flash (R308): it is kept for the descriptor in progress, which goes on. -/
def State.serpFlash (s : State) (die : Nat) (uncorrectable : Bool) : State :=
  match s.runOf die 8, (s.serp die).job with
  | some r, some j =>
    (match j.need, s.nextDesc die 3 4 r with
     | some (q, row), .ok x =>
       let s1 := s.serpCnt die 0x068 1
       if uncorrectable then s1.serpFail die r x 5
       else match s.boundVer 0 die (dfld x 2 2) r.uid with
         | none => s1.serpFail die r x 2
         | some v =>
           let go (obj : Nat) : State := s1.serpGo die r x { j with
               need := none, fetched := ((q, row), s.flashBytes obj (row * v.qBytes) v.qBytes) :: j.fetched }
           match v.moved q with
           | some (obj, _) => go obj
           | none =>
             match s.quarterHead die r.part v q with
             | .error c => s1.serpFail die r x c
             | .ok h => go h.obj
     | _, _ => s)
  | _, _ => s

/-- The pool base of the version a tag belongs to. -/
def State.boundPool (s : State) (die : Nat) (t : Tag) : Option Nat :=
  match (s.dir 0 die).slots.find? (fun v => decide (v.id = t.table ∧ v.version = t.version)) with
  | none => none
  | some v => match s.quarterHead die t.part v t.quarter with
    | .error _ => none
    | .ok h => some h.pool

/-- A migration commits, or is abandoned where its source has become uncorrectable (R324, R326). -/
def State.migCommit (s : State) (die n : Nat) : State :=
  let x := s.serp die
  match x.tags[n]? with
  | none => s
  | some t =>
    let x1 := { x with tags := x.tags.eraseIdx n }
    let bad := match t.src with
      | none => false
      | some a => match s.readDev (.unit die) (some t.part) a t.data.length with
        | .error .uncorrectable => true
        | _ => false
    let s := match t.src with
      | none => s
      | some a => s.noteDev (.unit die) (some t.part) false a t.data.length
    if bad then s.setSerp die x1
    else
      let data := t.upd.foldl (fun d u => applyUpd u.1 d u.2) t.data
      let x2 := { x1 with order := x1.order + 1 }
      match t.dest with
      | .cache r k =>
        let row : CacheRow :=
          ⟨r, k, t.table, t.version, t.quarter, t.row, data, 1, x2.order⟩
        (s.setSerp die { x2 with cache := x2.cache ++ [row] }).serpCnt die 0x058 1
      | .pool e k =>
        match s.boundPool die t with
        | none => s.setSerp die x1
        | some base =>
          (match s.uwrite die t.part 3 4 1 (base + k * t.data.length) data with
           | .error _ => s.setSerp die x1
           | .ok u => (((u.setEntry die t.part e (2 ^ 63 + t.row * 2 ^ 28 + k)).setSerp die
               { x2 with pool := SMap.put x2.pool e (1, x2.order) })).serpCnt die 0x058 1)

/-! ### The commands -/

/-- SERP_GATHER (R315). -/
def execSerpGather (die : Nat) (s : State) : Res := .next (if isChanter die then s.serpServe die 0 else s)
/-- SERP_POOL_SUM (R313, R314). -/
def execSerpPoolSum (die : Nat) (s : State) : Res := .next (if isChanter die then s.serpServe die 1 else s)
/-- SERP_POOL_MEAN (R313, R314). -/
def execSerpPoolMean (die : Nat) (s : State) : Res := .next (if isChanter die then s.serpServe die 2 else s)
/-- SERP_POOL_MAX (R313, R314). -/
def execSerpPoolMax (die : Nat) (s : State) : Res := .next (if isChanter die then s.serpServe die 3 else s)
/-- SERP_UPDATE_OVERWRITE (R316). -/
def execSerpUpdateOverwrite (die : Nat) (s : State) : Res := .next (if isChanter die then s.serpServe die 4 else s)
/-- SERP_UPDATE_SCATTER_ADD (R316). -/
def execSerpUpdateScatterAdd (die : Nat) (s : State) : Res := .next (if isChanter die then s.serpServe die 5 else s)
/-- SERP_FLASH_ROW_READ (R308, R323). -/
def execSerpFlashRowRead (die : Nat) (uncorrectable : Bool) (s : State) : Res :=
  .next (if isChanter die then s.serpFlash die uncorrectable else s)
/-- MIGRATION_COMMIT of the `n`-th tag (R324, R326). -/
def execMigrationCommit (die n : Nat) (s : State) : Res := .next (if isChanter die then s.migCommit die n else s)
/-- MIGRATION_UPDATE_RELEASE: the update held for a full buffer proceeds (R325). -/
def execMigrationUpdateRelease (die : Nat) (s : State) : Res :=
  .next (match s.runOf die 8, (s.serp die).job with
    | some r, some j =>
      if j.held then (match s.nextDesc die 3 4 r with
        | .ok v => s.serpGo die r v j
        | .error _ => s)
      else s
    | _, _ => s)
/-- SERP_VER_PUBLISH (R328, R335). -/
def execSerpVerPublish (who : Requester) (die : Nat) (value : Word) (s : State) : Res :=
  .next (s.gate who (Blk.serp.at die die 0x108) (fun s =>
    (if isChanter die then
      (s.writeAt who .serp die die 0x108 value).publishTable die (fieldW value 25 16) (fieldW value 15 0)
    else s)))
/-- SERP_RETIRE_POP (R337). -/
def execSerpRetirePop (die : Nat) (s : State) : Res := .next (if isChanter die then s.retirePop 0 die else s)
/-- SERP_CREG: a write of region word `i` (R339). -/
def execSerpCreg (who : Requester) (die i : Nat) (value : Word) (s : State) : Res :=
  .next (s.gate who (Blk.serp.at die die (0x140 + 4 * i)) (fun s =>
    (if isChanter die ∧ i < 16 then s.writeCreg who die i value else s)))

end Sys2Proof.Machine
end

