-- ==== Sys2Proof/Machine/Utf8.lean ====
section
/-! DEFINITION. UTF-8 of Unicode 15.1 with maximal subparts (R414, R428). -/
namespace Sys2Proof.Machine

/-- What stands at the front of a byte string. -/
inductive UDec where
  /-- A character of `n` bytes. -/
  | char (cp n : Nat)
  /-- An invalid maximal subpart of `n` bytes. -/
  | bad (n : Nat)
  /-- An incomplete character, or nothing. -/
  | more
  deriving DecidableEq, Repr

/-- Length of a sequence, range of its second byte and initial value, by the lead byte. -/
def utf8Lead (b : Nat) : Option (Nat × Nat × Nat × Nat) :=
  if 0xC2 ≤ b ∧ b ≤ 0xDF then some (2, 0x80, 0xBF, b % 32)
  else if b = 0xE0 then some (3, 0xA0, 0xBF, 0)
  else if b = 0xED then some (3, 0x80, 0x9F, 13)
  else if 0xE1 ≤ b ∧ b ≤ 0xEF then some (3, 0x80, 0xBF, b % 16)
  else if b = 0xF0 then some (4, 0x90, 0xBF, 0)
  else if 0xF1 ≤ b ∧ b ≤ 0xF3 then some (4, 0x80, 0xBF, b % 8)
  else if b = 0xF4 then some (4, 0x80, 0x8F, 4)
  else none

/-- The `n` bytes that remain of a sequence of which `i` have been read. -/
def utf8Tail : Nat → Nat → Nat → Nat → Nat → List Byte → UDec
  | 0, i, _, _, v, _ => .char v i
  | _ + 1, _, _, _, _, [] => .more
  | n + 1, i, lo, hi, v, b :: bs =>
    if lo ≤ b.toNat ∧ b.toNat ≤ hi then utf8Tail n (i + 1) 0x80 0xBF (v * 64 + b.toNat % 64) bs else .bad i

/-- Decode the front of a byte string. -/
def utf8One : List Byte → UDec
  | [] => .more
  | b :: bs =>
    if b.toNat < 0x80 then .char b.toNat 1
    else match utf8Lead b.toNat with
      | none => .bad 1
      | some (n, lo, hi, v) => utf8Tail (n - 1) 1 lo hi v bs

/-- The UTF-8 bytes of a code point. -/
def utf8Enc (c : Nat) : List Byte :=
  let b (x : Nat) : Byte := BitVec.ofNat 8 x
  let t (k : Nat) : Byte := b (0x80 + c / 2 ^ (6 * k) % 64)
  if c < 0x80 then [b c]
  else if c < 0x800 then [b (0xC0 + c / 64), t 0]
  else if c < 0x10000 then [b (0xE0 + c / 4096), t 1, t 0]
  else [b (0xF0 + c / 2 ^ 18), t 2, t 1, t 0]

/-- An item of decoded text. -/
inductive UItem where
  | ch (cp : Nat)
  | bad (bs : List Byte)
  deriving DecidableEq, Repr

/-- Decode bytes; what remains is an incomplete character (R409). The fuel is the number of bytes. -/
def utf8Go : Nat → List Byte → List UItem × List Byte
  | 0, bs => ([], bs)
  | fuel + 1, bs =>
    match utf8One bs with
    | .more => ([], bs)
    | .char c n => let r := utf8Go fuel (bs.drop n); (.ch c :: r.1, r.2)
    | .bad n => let r := utf8Go fuel (bs.drop n); (.bad (bs.take n) :: r.1, r.2)

/-- Decode a byte string. -/
def utf8All (bs : List Byte) : List UItem × List Byte := utf8Go bs.length bs

/-- The characters of a valid string, each as its bytes. -/
def utf8Chars (bs : List Byte) : List (List Byte) :=
  (utf8All bs).1.map (fun i => match i with
    | .ch c => utf8Enc c
    | .bad b => b)

/-- The string is valid UTF-8. -/
def utf8Valid (bs : List Byte) : Bool :=
  let r := utf8All bs
  decide (r.2 = []) && r.1.all (fun i => match i with
    | .ch _ => true
    | .bad _ => false)

end Sys2Proof.Machine
end

