-- ==== Sys2Proof/Machine/Mouthpiece.lean ====
section
/-! DEFINITION. The Mouthpiece: vocabularies, records and streams, pieces and their tokens (R405 to R426). -/
namespace Sys2Proof.Machine

/-- A vocabulary version as a text unit of a bellows uses it. -/
structure Vocab where
  die : Nat
  part : Nat
  /-- The version descriptor (R419). -/
  v : Nat
  deriving DecidableEq, Repr

/-- A field of the version descriptor. -/
def Vocab.f (e : Vocab) (off n : Nat) : Nat := dfld e.v off n
/-- "None" in a 32-bit id field. -/
def noTok : Nat := 0xFFFFFFFF
/-- Tokens of the vocabulary. -/
def Vocab.nTokens (e : Vocab) : Nat := e.f 8 4
/-- Id of the token for byte 0, if there are byte tokens. -/
def Vocab.byteBase (e : Vocab) : Option Nat := if e.f 12 4 = noTok then none else some (e.f 12 4)

/-- The device address of a bellows SRAM offset. -/
def bellowsAddr (die off : Nat) : Nat := sramBase + die * 2 ^ 32 + off

/-- Read bytes of a table. -/
def State.vbytes (s : State) (e : Vocab) (off n : Nat) : TextM (List Byte) :=
  s.tread e.die e.part 8 8 1 (bellowsAddr e.die off) n
/-- Read a number of a table. -/
def State.vread (s : State) (e : Vocab) (off n : Nat) : TextM Nat :=
  s.treadLe e.die e.part 8 8 1 (bellowsAddr e.die off) n

/-- A vocabulary version descriptor keeps R419. -/
def vocabDescOk (id x : Nat) : Bool :=
  let f := dfld x
  decide (f 4 1 = id) && decide (f 5 1 < 16) && decide (f 5 1 % 4 ≤ 1) && decide (f 5 1 / 4 ≤ 2) &&
  decide (8 ≤ f 6 1 ∧ f 6 1 ≤ 20) && (decide (f 5 1 % 4 = 1) || decide (8 ≤ f 7 1 ∧ f 7 1 ≤ 24)) &&
  decide (1 ≤ f 8 4 ∧ f 8 4 ≤ 524288) && decide (f 20 4 ≤ 1024) && decide (1 ≤ f 24 4 ∧ f 24 4 ≤ 65536) &&
  decide (f 28 4 = 0) && decide (f 92 36 = 0)

/-! ### Matching (R420 to R424) -/

/-- A token that a trie node carries, unless its string-table entry is special (R413). -/
def State.plainTok (s : State) (e : Vocab) (t : Nat) : TextM (Option Nat) :=
  if t = noTok then pure none
  else do
    let fl ← s.vread e (e.f 44 4 + 8 * t + 6) 1
    pure (if bit fl 0 then none else some t)

/-- The child offset for a byte among child entries of 8 bytes. -/
def childOf (b : Byte) (ch : List Byte) : Nat → Option Nat
  | 0 => none
  | n + 1 => if ch.head? = some b then some (leOf ((ch.drop 4).take 4)) else childOf b (ch.drop 8) n

/-- The token a byte string reaches from a node (R421). -/
def State.trieWalk (s : State) (e : Vocab) : Nat → Nat → List Byte → TextM (Option Nat)
  | 0, _, _ => pure none
  | fuel + 1, node, x => do
    let at0 := e.f 32 4 + node
    let h ← s.vread e at0 8
    let path ← s.vbytes e (at0 + 8) (bits h 55 48)
    if path.isPrefixOf x then
      match x.drop path.length with
      | [] => s.plainTok e (h % 2 ^ 32)
      | b :: rest =>
        let ch ← s.vbytes e (at0 + 8 + alignUp path.length 8) (8 * bits h 47 32)
        match childOf b ch (bits h 47 32) with
        | none => pure none
        | some o => State.trieWalk s e fuel o rest
    else pure none

/-- The token of a byte string (R424). -/
def State.exactTok (s : State) (e : Vocab) (x : List Byte) : TextM (Option Nat) := s.trieWalk e (x.length + 1) 0 x

/-- None of some ids is marked special in the string table (R413). -/
def State.allPlain (s : State) (e : Vocab) : List Nat → TextM Bool
  | [] => pure true
  | t :: ts => do
    match (← s.plainTok e t) with
    | some _ => State.allPlain s e ts
    | none => pure false

/-- The byte tokens of some bytes, where the vocabulary has them; a vocabulary that marks one of them special has none for those
bytes (R413; log entry 193). -/
def State.byteToks (s : State) (e : Vocab) (bs : List Byte) : TextM (Option (List Nat)) :=
  match e.byteBase with
  | none => pure none
  | some b => do
    let ids := bs.map (fun x => b + x.toNat)
    pure (if (← s.allPlain e ids) then some ids else none)

/-- The tokens that stand for a character without a token of its own (R413, R424). -/
def State.fallback (s : State) (e : Vocab) (ch : List Byte) : TextM (List Nat) := do
  match (← s.byteToks e ch) with
  | some ids => pure ids
  | none =>
    match (← s.plainTok e (e.f 16 4)) with
    | some u => pure [u]
    | none => throw 7

/-- Probe the merge table for a pair: rank and result (R423). -/
def State.mergeProbe (s : State) (e : Vocab) (a b : Nat) : Nat → Nat → TextM (Option (Nat × Nat))
  | 0, _ => pure none
  | n + 1, i => do
    let x ← s.vread e (e.f 40 4 + 16 * (i % 2 ^ e.f 7 1)) 16
    if dfld x 0 4 = noTok then pure none
    else if dfld x 0 4 = a ∧ dfld x 4 4 = b then pure (some (dfld x 8 4, dfld x 12 4))
    else State.mergeProbe s e a b n (i + 1)

/-- The merge entry of a pair; one whose result is marked special counts as none (R413; log entry 193). -/
def State.mergeOf (s : State) (e : Vocab) (a b : Nat) : TextM (Option (Nat × Nat)) := do
  match (← s.mergeProbe e a b (2 ^ e.f 7 1) (rowHash (a * 2 ^ 32 + b) % 2 ^ e.f 7 1)) with
  | none => pure none
  | some m => do
    match (← s.plainTok e m.2) with
    | some _ => pure (some m)
    | none => pure none

/-- The leftmost pair of least rank: its index, rank and result. -/
def State.bestMerge (s : State) (e : Vocab) : Nat → List Nat → Option (Nat × Nat × Nat) → TextM (Option (Nat × Nat × Nat))
  | i, a :: b :: t, best => do
    let m ← s.mergeOf e a b
    State.bestMerge s e (i + 1) (b :: t)
      (match m, best with
       | some (r, x), some (_, r', _) => if r < r' then some (i, r, x) else best
       | some (r, x), none => some (i, r, x)
       | none, _ => best)
  | _, _, best => pure best

/-- Merge until no pair is in the table (R424); each pass shortens the list. -/
def State.bpeLoop (s : State) (e : Vocab) : Nat → List Nat → TextM (List Nat)
  | 0, sym => pure sym
  | fuel + 1, sym => do
    match (← s.bestMerge e 0 sym none) with
    | none => pure sym
    | some (i, _, x) => State.bpeLoop s e fuel (sym.take i ++ x :: sym.drop (i + 2))

/-- The first symbols of a piece. -/
def State.symbols (s : State) (e : Vocab) : List (List Byte) → TextM (List Nat)
  | [] => pure []
  | ch :: t => do
    let x ← s.exactTok e ch
    let here ← (match x with
      | some k => pure [k]
      | none => s.fallback e ch)
    let rest ← State.symbols s e t
    pure (here ++ rest)

/-- The longest prefix of at most `n` characters that has a token: its token and its characters. -/
def State.longestTok (s : State) (e : Vocab) (chs : List (List Byte)) : Nat → TextM (Option (Nat × Nat))
  | 0 => pure none
  | n + 1 => do
    match (← s.exactTok e (chs.take (n + 1)).flatten) with
    | some k => pure (some (k, n + 1))
    | none => State.longestTok s e chs n

/-- Longest matching (R424). -/
def State.longestGo (s : State) (e : Vocab) : Nat → List (List Byte) → TextM (List Nat)
  | 0, _ => pure []
  | fuel + 1, chs =>
    match chs with
    | [] => pure []
    | ch :: t => do
      match (← s.longestTok e chs chs.length) with
      | some (k, n) => do let r ← State.longestGo s e fuel (chs.drop n); pure (k :: r)
      | none => do let h ← s.fallback e ch; let r ← State.longestGo s e fuel t; pure (h ++ r)

/-- The tokens of a piece (R424). -/
def State.matchPiece (s : State) (e : Vocab) (piece : List Byte) : TextM (List Nat) :=
  let chs := utf8Chars piece
  if e.f 5 1 % 4 = 1 then s.longestGo e chs.length chs
  else do let sym ← s.symbols e chs; s.bpeLoop e sym.length sym

/-! ### Text (R409 to R418) -/

/-- A stream in progress: its context, and what the descriptor has done. -/
structure Tok where
  pend : List Byte := []
  opens : List Nat := []
  piece : List Byte := []
  toks : List Nat := []
  /-- Tokens in the buffer before, and its capacity. -/
  n0 : Nat := 0
  cap : Nat := 0
  invalid : Nat := 0
  cuts : Nat := 0
  nbytes : Nat := 0
  refused : Nat := 0
  err : Nat := 0
  /-- What has been read. -/
  reads : List (Nat × Nat) := []
  deriving DecidableEq, Repr

/-- Fail, unless it has failed already. -/
def Tok.fail (t : Tok) (c : Nat) : Tok := if t.err = 0 then { t with err := c } else t

/-- Go on with what a computation gives, or fail with its code. -/
def Tok.on {α : Type} (t : Tok) (m : TextM α) (k : Tok → α → Tok) : Tok :=
  match m t.reads with
  | (.ok a, l) => k { t with reads := l } a
  | (.error c, l) => { t with reads := l }.fail c

/-- Append tokens; one that would pass the capacity fails the descriptor (R426). -/
def Tok.emit (t : Tok) (ids : List Nat) : Tok :=
  if t.err ≠ 0 then t
  else if t.cap < t.n0 + t.toks.length + ids.length then t.fail 5
  else { t with toks := t.toks ++ ids }

/-- The class of a character: that of the last entry at or below it (R417). -/
def State.classGo (s : State) (e : Vocab) (cp : Nat) : Nat → Nat → Nat → TextM Nat
  | 0, _, cls => pure cls
  | n + 1, i, cls => do
    let x ← s.vread e (e.f 52 4 + 8 * i) 8
    if x % 2 ^ 32 ≤ cp then State.classGo s e cp n (i + 1) (bits x 39 32 % 16) else pure cls

/-- The class of a character. -/
def State.classOf (s : State) (e : Vocab) (cp : Nat) : TextM Nat := s.classGo e cp (e.f 24 4) 0 0

/-- Match the unfinished piece. -/
def State.flushPiece (s : State) (e : Vocab) (t : Tok) : Tok :=
  if t.piece = [] ∨ t.err ≠ 0 then t
  else t.on (s.matchPiece e t.piece) (fun u ids => { u with piece := [] }.emit ids)

/-- The last character of a piece. -/
def lastChar (piece : List Byte) : Nat :=
  match ((utf8All piece).1).getLast? with
  | some (.ch c) => c
  | _ => 0

/-- Add a character of normalised text to the unfinished piece, or start a new piece (R417, R418). -/
def State.addChar (s : State) (e : Vocab) (t : Tok) (c : Nat) : Tok :=
  let bs := utf8Enc c
  if t.err ≠ 0 then t
  else if t.piece = [] then { t with piece := bs }
  else t.on (s.classOf e (lastChar t.piece)) (fun t l => t.on (s.classOf e c) (fun t r =>
    if bit (e.f (60 + 2 * l) 2) r then { s.flushPiece e t with piece := bs }
    else if 4096 < t.piece.length + bs.length then { s.flushPiece e t with piece := bs, cuts := t.cuts + 1 }
    else { t with piece := t.piece ++ bs }))

/-- Normalisation of the vocabulary: 0 none, 1 NFC, 2 NFKC. -/
def Vocab.norm (e : Vocab) : Nat := e.f 5 1 / 4 % 4

/-- Normalise the block at hand and pass its characters on (R416). -/
def State.closeBlock (s : State) (e : Vocab) (t : Tok) : Tok :=
  if t.opens = [] then t
  else (Config.normalise e.norm t.opens).foldl (fun u c => s.addChar e u c) { t with opens := [] }

/-- A character of the text, before normalisation: it joins the block at hand, of at most 61 characters, or starts a new one. The
blocks, and so the normalised text, depend on the segment's characters alone (R410, R416; log entry 9). -/
def State.pushChar (s : State) (e : Vocab) (t : Tok) (c : Nat) : Tok :=
  if e.norm = 0 then s.addChar e t c
  else if t.opens.length < 61 ∧ Config.joins e.norm t.opens c = true then { t with opens := t.opens ++ [c] }
  else { s.closeBlock e t with opens := [c] }

/-- End a text segment (R416, R417). -/
def State.endSegment (s : State) (e : Vocab) (t : Tok) : Tok := s.flushPiece e (s.closeBlock e t)

/-- An invalid maximal subpart under a mode of R415 (mode 0 has been resolved). -/
def State.badPart (s : State) (e : Vocab) (mode : Nat) (t : Tok) (bs : List Byte) : Tok :=
  let t1 := { t with invalid := t.invalid + (if t.err = 0 then 1 else 0) }
  if mode = 3 then t1.fail 6
  else if mode = 2 then s.pushChar e t1 0xFFFD
  else (s.endSegment e t1).on (s.byteToks e bs) (fun u ids? => match ids? with
    | none => u.fail 1
    | some ids => u.emit ids)

/-- The payload of a `TEXT` record (R409, R414). -/
def State.textRec (s : State) (e : Vocab) (mode : Nat) (t : Tok) (bs : List Byte) : Tok :=
  let r := utf8All (t.pend ++ bs)
  { r.1.foldl (fun u i => match i with
      | .ch c => s.pushChar e u c
      | .bad b => s.badPart e mode u b) { t with pend := [], nbytes := t.nbytes + bs.length } with pend := r.2 }

/-- End the text before a `SPECIAL` or `IDS` record or at the end of the stream (R411, R414). -/
def State.endText (s : State) (e : Vocab) (mode : Nat) (t : Tok) : Tok :=
  s.endSegment e (if t.pend = [] then t else s.badPart e mode { t with pend := [] } t.pend)

/-- Refuse a record (R411, R412). -/
def Tok.refuse (t : Tok) (c : Nat) : Tok := if t.err = 0 then { t.fail c with refused := t.refused + 1 } else t

/-- The ids of a payload. -/
def idsOf (bs : List Byte) : List Nat := (List.range (bs.length / 4)).map (fun i => leOf ((bs.drop (4 * i)).take 4))

/-- The special list of the vocabulary. -/
def State.specials (s : State) (e : Vocab) : TextM (List Nat) := do pure (idsOf (← s.vbytes e (e.f 56 4) (4 * e.f 20 4)))

/-- One record (R408, R411, R412). -/
def State.oneRec (s : State) (e : Vocab) (mode : Nat) (raw : Bool) (kind : Nat) (t : Tok) (bs : List Byte) : Tok :=
  if t.err ≠ 0 then t
  else if kind = 0 then (if bs = [] then t.fail 1 else s.textRec e mode t bs)
  else if kind = 1 then
    (if bs.length ≠ 4 then t.fail 1
     else t.on (s.specials e) (fun t l =>
       if l.contains (leOf bs) then (s.endText e mode t).emit [leOf bs] else (s.endText e mode t).refuse 4))
  else if kind = 2 then
    (if bs.length % 4 ≠ 0 ∨ bs = [] then t.fail 1
     else if raw = false then (s.endText e mode t).refuse 3
     else if (idsOf bs).all (fun i => decide (i < e.nTokens)) then (s.endText e mode t).emit (idsOf bs)
     else (s.endText e mode t).refuse 4)
  else t.fail 1

/-- The records of a buffer (R408, R409). -/
def State.runRecs (s : State) (e : Vocab) (mode : Nat) (raw : Bool) : Nat → List Byte → Tok → Tok
  | 0, _, t => t
  | fuel + 1, bs, t =>
    if bs = [] ∨ t.err ≠ 0 then t
    else
      let h := leOf (bs.take 8)
      let n := dfld h 4 4
      if bs.length < 8 + alignUp n 8 ∨ dfld h 1 3 ≠ 0 then t.fail 1
      else State.runRecs s e mode raw fuel (bs.drop (8 + alignUp n 8))
        (s.oneRec e mode raw (dfld h 0 1) t ((bs.drop 8).take n))

/-! ### The stream context: the unit's own layout (R410, R425; log entry 43) -/

/-- Read a stream context of 4,352 bytes. -/
def tokOfCtx (bs : List Byte) : Tok :=
  let v := leOf (bs.take 256)
  { pend := ((bs.drop 1).take (dfld v 0 1 % 4))
    opens := idsOf ((bs.drop 8).take (4 * min 61 (dfld v 6 1)))
    piece := (bs.drop 256).take (dfld v 4 2)
    n0 := dfld v 252 4 }

/-- Pad a list of bytes with zeros to a length. -/
def padTo (n : Nat) (bs : List Byte) : List Byte := bs.take n ++ List.replicate (n - bs.length) 0

/-- Write a stream context; byte 7 keeps the invalid mode and the vocabulary of the stream. -/
def Tok.ctx (t : Tok) (tag : Nat) : List Byte :=
  padTo 4 (BitVec.ofNat 8 t.pend.length :: t.pend) ++ leBytes 2 t.piece.length ++ leBytes 1 t.opens.length ++ leBytes 1 tag ++
    padTo 244 (t.opens.flatMap (fun c => leBytes 4 c)) ++ leBytes 4 (t.n0 + t.toks.length) ++ padTo 4096 t.piece

/-! ### Descriptors (R425, R426, R447) -/

/-- A Mouthpiece descriptor. -/
structure MDesc where
  v : Nat
  deriving DecidableEq, Repr

/-- A field. -/
def MDesc.f (d : MDesc) (off n : Nat) : Nat := dfld d.v off n
/-- Bit `n` of the flags. -/
def MDesc.flag (d : MDesc) (n : Nat) : Bool := bit (d.f 4 1) n

/-- The descriptor breaks no range of R425. -/
def MDesc.ok (d : MDesc) : Bool :=
  decide (d.f 4 1 < 16) && decide (d.f 5 1 ≤ 3) && decide (d.f 6 1 < 16) && decide (d.f 7 1 = 0) &&
  decide (8 ≤ d.f 16 4 ∧ d.f 16 4 ≤ 1048576 ∧ d.f 16 4 % 8 = 0) && decide (1 ≤ d.f 24 4 ∧ d.f 24 4 ≤ 1048576) &&
  decide (d.f 40 24 = 0)

/-- The mode of R415 with the default resolved, or none where it cannot be used. -/
def MDesc.mode (d : MDesc) (e : Vocab) : Option Nat :=
  match d.f 5 1, e.byteBase with
  | 0, some _ => some 1
  | 0, none => some 2
  | 1, none => none
  | m, _ => some m

/-- The function of the request a descriptor names may send raw ids (R412, R674). -/
def State.rawIds (s : State) (i : Nat) : Bool := bit (s.fpriv (s.req i).fn) 0

/-- The bytes of the records: from device memory, or as the host delivered them. -/
def State.recBytes (s : State) (die part : Nat) (d : MDesc) (host : Option (List Byte)) : TextM (List Byte) :=
  if d.f 8 8 % 8 ≠ 0 then throw 8
  else if d.flag 3 then
    (match host with
     | some bs => if bs.length = d.f 16 4 then pure bs else throw 8
     | none => throw 8)
  else s.tread die part 8 8 8 (d.f 8 8) (d.f 16 4)

/-- The stream as its context keeps it: a new stream with `first`, or where the context cannot be read (R425). -/
def State.stream (s : State) (die part : Nat) (d : MDesc) : Tok :=
  match d.flag 0, s.uread die part 8 8 64 (bellowsAddr die (d.f 28 4)) 4352 with
  | false, .ok ctx => { tokOfCtx ctx with cap := d.f 24 4 }
  | _, _ => { cap := d.f 24 4 }

/-- Tokenise one buffer: the stream after it. -/
def State.tokenise (s : State) (die part uid i : Nat) (d : MDesc) (host : Option (List Byte)) : Tok :=
  let t0 := s.stream die part d
  if d.ok = false then t0.fail 1
  else match s.boundVer 2 die (d.f 6 1) uid with
    | none => t0.fail 2
    | some vs =>
      let e : Vocab := ⟨die, part, vs.desc⟩
      match d.mode e with
      | none => t0.fail 1
      | some mode =>
        t0.on (s.tread die part 8 8 64 (bellowsAddr die (d.f 28 4)) 4352) (fun t ctx =>
          if d.flag 0 = false ∧ leOf ((ctx.drop 7).take 1) ≠ d.f 5 1 + 16 * d.f 6 1 then t.fail 1
          else t.on (s.recBytes die part d host) (fun t bs =>
            let t1 := s.runRecs e mode (s.rawIds i) bs.length bs t
            if d.flag 1 then s.endText e mode t1 else t1))

/-- Text is kept in the stream's context. -/
def Tok.isHeld (t : Tok) : Bool := !(t.pend.isEmpty && t.opens.isEmpty && t.piece.isEmpty)

/-- The status record of a descriptor that leaves the stream `t` (R426). -/
def Tok.status (t : Tok) (ended : Bool) : List Byte :=
  leBytes 4 t.toks.length ++ leBytes 4 (t.n0 + t.toks.length) ++ leBytes 2 (min 65535 t.invalid) ++ leBytes 1 (errCode t.err) ++
    leBytes 1 (b2n (ended && decide (t.err = 0)) + 2 * b2n t.isHeld) ++ leBytes 4 0

/-- Write tokens, context and status. -/
def State.tokWrite (s : State) (die part : Nat) (d : MDesc) (t : Tok) : Except Nat State := do
  let s1 ← s.uwrite die part 8 8 4 (bellowsAddr die (d.f 20 4 + 4 * t.n0)) (t.toks.flatMap (fun k => leBytes 4 k))
  let s2 ← s1.uwrite die part 8 8 64 (bellowsAddr die (d.f 28 4)) (t.ctx (d.f 5 1 + 16 * d.f 6 1))
  s2.uwrite die part 8 8 8 (d.f 32 8) (t.status (d.flag 1))

/-- A failed descriptor of a text unit: the error is recorded, the step carries `fault`, and the request of the descriptor
fails when the step retires (R447, R453). -/
def State.textFail (s : State) (b : Blk) (die part uid req src err : Nat) : State :=
  let code := errCode err
  let s1 := ((s.noteErr die part err).unitError b die 0x118 code 15 (req % 65536)).stepFlag uid
  match s1.reqNamed req with
  | none => s1
  | some i => if code = 0 then s1 else s1.reqOutcome i uid 5 src code

/-- Add to a counter where there is something to add. -/
def State.cntBy (s : State) (b : Blk) (die off n : Nat) : State := if n = 0 then s else s.cntAdd b die die off n

/-- The counters of a descriptor, and the event of an invalid subpart (R449, R454). -/
def State.mouthCount (s : State) (die : Nat) (t : Tok) : State :=
  let s1 := (((s.cntBy .mouth die 0x030 t.nbytes).cntBy .mouth die 0x040 t.invalid).cntBy .mouth die 0x048 t.cuts).cntBy .mouth die 0x050
    t.refused
  if t.invalid = 0 then s1 else s1.raise (Blk.mouth.at die die 0) 3

/-- A request that a text unit of a bellows serves (R487; the chapter's opening). -/
def State.textReq (s : State) (die req : Nat) : Option Nat :=
  match s.reqNamed req with
  | some i => if reqDie i = die then some i else none
  | none => none

/-- Fail a Mouthpiece descriptor: the context stays as it was, and the status tells of the stream that it keeps (R426, R447). -/
def State.mouthFail (s : State) (die : Nat) (r : URun) (d : MDesc) (t : Tok) (err : Nat) : State :=
  let kept := { s.stream die r.part d with invalid := t.invalid, err := err }
  (match s.uwrite die r.part 8 8 8 (d.f 32 8) (kept.status (d.flag 1)) with
   | .ok s2 => s2
   | .error _ => s).textFail .mouth die r.part r.uid (d.f 0 4) 6 err

/-- Serve one Mouthpiece descriptor. -/
def State.mouthDo (s : State) (die : Nat) (r : URun) (d : MDesc) (host : Option (List Byte)) : State :=
  match s.textReq die (d.f 0 4) with
  | none => s.mouthFail die r d {} 1
  | some i =>
    let t := s.tokenise die r.part r.uid i d host
    let s1 := (s.noteIns die r.part t.reads).mouthCount die t
    if t.err ≠ 0 then s1.mouthFail die r d t t.err
    else match s1.tokWrite die r.part d t with
      | .ok s2 => s2.cntBy .mouth die 0x038 t.toks.length
      | .error c => s1.mouthFail die r d t c

/-- Serve the next descriptor of size `n` of a bellows unit's list. -/
def State.textServe (s : State) (b : Blk) (die slot src n lastBit : Nat) (sel : Nat → Bool)
    (k : State → URun → Nat → State) : State :=
  match s.runOf die slot with
  | none => s
  | some r =>
    if r.ended ∨ r.hold ∨ s.rbit (b.at die die 0x008) 0 = false then s
    else match s.ureadLe die r.part 8 8 n (r.list + n * r.idx) n with
      | .error c =>
        let t := s.noteErr die r.part c
        (((t.unitError b die 0x118 (errCode c) 15 0).stepFault r.uid src (errCode c) 0)).runNext die slot true
      | .ok v => if sel v then (k (s.noteIns die r.part [(r.list + n * r.idx, n)]) r v).runNext die slot (bit v lastBit) else s

/-- MOUTH_TOKENISE: the next buffer of the list; `host` is what a read of host memory delivered (R425). -/
def execMouthTokenise (die : Nat) (host : Option (List Byte)) (s : State) : Res :=
  .next (if isBellows die then
    s.textServe .mouth die 0 6 64 34 (fun _ => true) (fun t r v => t.mouthDo die r ⟨v⟩ host) else s)

/-- MOUTH_VER_PUBLISH (R405, R407, R452). -/
def execMouthVerPublish (who : Requester) (die : Nat) (value : Word) (s : State) : Res :=
  let id := fieldW value 27 16
  .next (s.gate who (Blk.mouth.at die die 0x108) (fun s =>
    (if isBellows die then
      ((s.writeAt who .mouth die die 0x108 value).noteVer 2 die 128).publish 2 die id (fieldW value 15 0)
        ((s.readVerDesc 2 die 128).bind (fun x => if id < 16 ∧ vocabDescOk id x then some x else none))
    else s)))

/-- MOUTH_RETIRE_POP (R449). -/
def execMouthRetirePop (die : Nat) (s : State) : Res := .next (if isBellows die then s.retirePop 2 die else s)

end Sys2Proof.Machine
end

