-- ==== Sys2Proof/Machine/Bell.lean ====
section
/-! DEFINITION. The Bell: decoding tokens, stop strings, held text, chunks and the output ring (R427 to R436, R496). -/
namespace Sys2Proof.Machine

/-- A Bell context (R427); the state bytes are in the unit's own layout (log entry 43). -/
structure BellCtx where
  stops : List (List Byte) := []
  include? : Bool := false
  emitSpecial : Bool := false
  returnIds : Bool := false
  eos : List Nat := []
  ring : Nat := 0
  ringSize : Nat := 0
  seq : Nat := 0
  tag : Nat := 0
  /-- Pending bytes and held text. -/
  pend : List Byte := []
  held : List Byte := []
  /-- Kept tokens and the flags and end reason they came with (R435). -/
  kept : List Nat := []
  late : Bool := false
  fallback : Bool := false
  final : Bool := false
  endReason : Nat := 0
  head : Nat := 0
  deriving DecidableEq, Repr

/-- Read a context of 1,280 bytes with its 16 slots of stop strings. -/
def bellOf (bs : List Byte) : BellCtx :=
  let v := leOf (bs.take 256)
  { stops := (List.range (min 16 (dfld v 0 1))).map (fun i =>
      (bs.drop (1280 + 64 * i)).take (leOf ((bs.drop (256 + i)).take 1)))
    include? := bit (dfld v 1 1) 0, emitSpecial := bit (dfld v 1 1) 1, returnIds := bit (dfld v 1 1) 2
    eos := (idsOf ((bs.drop 4).take 32)).filter (fun i => decide (i ≠ noTok))
    ring := dfld v 36 8, ringSize := dfld v 44 4, seq := dfld v 48 4, tag := dfld v 52 2
    pend := (bs.drop 57).take (dfld v 56 1 % 4), held := (bs.drop 61).take (dfld v 60 1 % 64)
    kept := idsOf ((bs.drop 128).take (4 * min 16 (dfld v 124 1)))
    late := bit (dfld v 192 1) 0, fallback := bit (dfld v 192 1) 1, final := bit (dfld v 192 1) 2
    endReason := dfld v 193 1, head := dfld v 196 4 }

/-- The configuration keeps R427. -/
def bellOk (bs : List Byte) : Bool :=
  let v := leOf (bs.take 256)
  let c := bellOf bs
  decide (dfld v 0 1 ≤ 16) && decide (dfld v 1 1 < 8) && decide (dfld v 2 2 = 0) && decide (dfld v 36 8 % 64 = 0) &&
  decide (4096 ≤ dfld v 44 4 ∧ dfld v 44 4 ≤ 2 ^ 24 ∧ dfld v 44 4 % 64 = 0) && decide (dfld v 54 2 = 0) &&
  c.stops.all (fun x => decide (1 ≤ x.length ∧ x.length ≤ 64) && utf8Valid x) &&
  (List.range (dfld v 0 1)).all (fun i => decide (leOf ((bs.drop (256 + i)).take 1) ≤ 64)) &&
  ((bs.drop 272).take 1008).all (fun x => decide (x = 0))

/-- Bytes 48 to 51 and 56 to 255 of the context, that the Bell writes. -/
def BellCtx.state (c : BellCtx) : List Byte :=
  padTo 4 (leBytes 1 c.pend.length ++ c.pend) ++ padTo 64 (leBytes 1 c.held.length ++ c.held) ++
    leBytes 4 c.kept.length ++ padTo 64 (c.kept.flatMap (fun k => leBytes 4 k)) ++
    leBytes 1 (b2n c.late + 2 * b2n c.fallback + 4 * b2n c.final) ++ leBytes 1 c.endReason ++ leBytes 2 0 ++ leBytes 4 c.head ++
    List.replicate 56 0

/-! ### Decoding (R428 to R433) -/

/-- The text of a descriptor in progress. -/
structure BellRun where
  pend : List Byte
  held : List Byte
  out : List Byte := []
  ids : List Nat := []
  /-- Bytes released up to each token. -/
  marks : List Nat := []
  replaced : Nat := 0
  /-- Stop string, character and byte offsets (R430). -/
  stop : Option (Nat × Nat × Nat) := none
  /-- The request ends with this reason. -/
  reason : Nat := 0
  deriving DecidableEq, Repr

/-- The bytes a token contributes (R428). -/
def State.tokBytes (s : State) (e : Vocab) (c : BellCtx) (t : Nat) : TextM (List Byte) := do
  if e.nTokens ≤ t then throw 4
  else
    let x ← s.vread e (e.f 44 4 + 8 * t) 8
    if c.eos.contains t ∨ (bit x 48 ∧ c.emitSpecial = false) then pure []
    else s.vbytes e (e.f 48 4 + x % 2 ^ 32) (bits x 47 32)

/-- The characters of decoded text, an invalid subpart as U+FFFD, and how many were replaced. -/
def shown (items : List UItem) : List (List Byte) × Nat :=
  (items.map (fun i => match i with
    | .ch c => utf8Enc c
    | .bad _ => utf8Enc 0xFFFD),
   items.countP (fun i => match i with
    | .ch _ => false
    | .bad _ => true))

/-- The stop string that matches at the end of a text: the longest, then the lowest index (R429). -/
def stopAt (stops : List (List Byte)) (text : List Byte) : Option (Nat × Nat) :=
  (List.range stops.length).foldl (fun best i =>
    let x := stops.getD i []
    if x.isSuffixOf text then
      (match best with
       | some (_, n) => if n < x.length then some (i, x.length) else best
       | none => some (i, x.length))
    else best) none

/-- The first stop that ends with one of a token's characters: index, its length, characters and bytes of the token up to
its end, and the length of the text up to it (R429). -/
def firstStop (stops : List (List Byte)) : List (List Byte) → List Byte → Nat → Nat → Option (Nat × Nat × Nat × Nat × List Byte)
  | [], _, _, _ => none
  | ch :: t, text, k, nb =>
    let text' := text ++ ch
    match stopAt stops text' with
    | some (i, n) => some (i, n, k + 1, nb + ch.length, text')
    | none => firstStop stops t text' (k + 1) (nb + ch.length)

/-- The text to hold back: the longest suffix that is a proper prefix of a stop string and starts a character (R432). -/
def holdBack (stops : List (List Byte)) : List Byte → List Byte
  | [] => []
  | b :: bs =>
    let x := b :: bs
    if (b.toNat < 0x80 ∨ 0xC0 ≤ b.toNat) ∧ stops.any (fun p => x.isPrefixOf p && decide (x.length < p.length)) then x
    else holdBack stops bs

/-- Release everything at the end of a request (R433). -/
def BellRun.finish (r : BellRun) (reason : Nat) : BellRun :=
  { r with
    out := r.out ++ r.held ++ (if r.pend = [] then [] else utf8Enc 0xFFFD)
    held := [], pend := [], reason := reason
    replaced := r.replaced + b2n (decide (r.pend ≠ [])) }

/-- One token (R428 to R433). -/
def State.bellToken (s : State) (e : Vocab) (c : BellCtx) (r : BellRun) (t : Nat) : TextM BellRun := do
  let bs ← s.tokBytes e c t
  if r.reason ≠ 0 then pure r
  else
    let r1 := { r with ids := r.ids ++ [t] }
    if c.eos.contains t then pure (r1.finish 2)
    else
      let dec := utf8All (r.pend ++ bs)
      let (chs, bad) := shown dec.1
      let r2 := { r1 with pend := dec.2, replaced := r1.replaced + bad }
      match firstStop c.stops chs r.held 0 0 with
      | some (i, n, k, nb, text) =>
        pure { r2 with
          out := r2.out ++ (if c.include? then text else text.take (text.length - n))
          held := [], pend := [], stop := some (i, k, nb), reason := 1 }
      | none =>
        let text := r.held ++ chs.flatten
        let h := holdBack c.stops text
        pure { r2 with out := r2.out ++ text.take (text.length - h.length), held := h }

/-- The tokens of a descriptor in order. -/
def State.bellTokens (s : State) (e : Vocab) (c : BellCtx) : List Nat → BellRun → TextM BellRun
  | [], r => pure r
  | t :: ts, r => do
    let r1 ← s.bellToken e c r t
    State.bellTokens s e c ts { r1 with marks := r1.marks ++ [r1.out.length] }

/-- What a served descriptor adds to the log of a compared run (R484). -/
def RunLog.add (g : RunLog) (r : BellRun) : RunLog :=
  { g with
    toks := g.toks ++ List.zip r.ids (r.marks.map (fun n => g.text.length + n))
    text := g.text ++ r.out }

/-! ### Chunks (R434, R435) -/

/-- A Bell descriptor (R436). -/
structure BDesc where
  v : Nat
  deriving DecidableEq, Repr

/-- A field. -/
def BDesc.f (d : BDesc) (off n : Nat) : Nat := dfld d.v off n
/-- The tokens. -/
def BDesc.toks (d : BDesc) : List Nat := (List.range (min 4 (d.f 4 1))).map (fun i => d.f (16 + 4 * i) 4)
/-- `final`. -/
def BDesc.final (d : BDesc) : Bool := bit (d.f 5 1) 0

/-- The descriptor keeps R436. -/
def BDesc.ok (d : BDesc) : Bool :=
  decide (d.f 4 1 ≤ 4) && decide (d.f 5 1 < 16) && decide (d.f 7 1 < 16) && decide (d.f 12 4 = 0) && decide (d.f 8 4 % 64 = 0) &&
  (if d.final then decide (3 ≤ d.f 6 1 ∧ d.f 6 1 ≤ 5) else decide (d.f 6 1 = 0))

/-- The header of a chunk (R434). -/
def chunkHead (req seq textBytes nIds flags reason si co bo toks : Nat) : List Byte :=
  leBytes 4 req ++ leBytes 4 seq ++ leBytes 4 textBytes ++ leBytes 2 nIds ++ leBytes 1 flags ++ leBytes 1 reason ++
    leBytes 1 si ++ leBytes 1 0 ++ leBytes 2 co ++ leBytes 2 bo ++ leBytes 2 0 ++ leBytes 4 toks ++ leBytes 4 0

/-- The bytes of a chunk before its padding. -/
def BellRun.chunk (r : BellRun) (c : BellCtx) (req seq toks : Nat) : List Byte :=
  let (si, co, bo) := r.stop.getD (0, 0, 0)
  let ids := if c.returnIds then r.ids else []
  let flags := b2n (decide (r.reason ≠ 0)) + 2 * b2n r.stop.isSome + 4 * b2n c.late + 8 * b2n c.fallback +
    16 * b2n (decide (r.replaced ≠ 0))
  let h := chunkHead req seq r.out.length ids.length flags r.reason si co bo toks ++ r.out
  if ids = [] then h else padTo (alignUp h.length 8) h ++ ids.flatMap (fun k => leBytes 4 k)

/-- Whether a chunk is to be written (R434). -/
def BellRun.writesChunk (r : BellRun) (c : BellCtx) : Bool :=
  decide (r.out ≠ []) || (c.returnIds && decide (r.ids ≠ [])) || decide (r.reason ≠ 0)

/-- Ring bytes (R434). -/
def BellCtx.cap (c : BellCtx) : Nat := c.ringSize - 64
/-- Bytes of the pad chunk before a chunk of `n` bytes. -/
def BellCtx.padFor (c : BellCtx) (n : Nat) : Nat :=
  let o := c.head % c.cap
  if c.cap < o + n then c.cap - o else 0

/-- Write a chunk, and the pad before it: bytes of padding are not stated and are free values. Chunk, head, notice
(R434). -/
def State.chunkWrite (s : State) (fn : Nat) (c : BellCtx) (req : Nat) (r : BellRun) (toks : Nat) : State × BellCtx :=
  let n0 := (r.chunk c req 0 toks).length
  let n := alignUp n0 64
  let p := c.padFor n
  let o := c.ring + 64
  let (s1, c1) :=
    if p = 0 then (s, c)
    else
      let (fr, t) := s.freeBytes (p - 32)
      ((t.hostWrite fn (o + c.head % c.cap) (chunkHead req c.seq 0 0 32 0 0 0 0 toks ++ fr)).cntAdd .bell (fnDie fn) (fnDie fn) 0x040 1,
       { c with seq := (c.seq + 1) % 2 ^ 32, head := (c.head + p) % 2 ^ 32 })
  let (fr, s2) := s1.freeBytes (n - n0)
  let a := o + c1.head % c1.cap
  let c2 := { c1 with seq := (c1.seq + 1) % 2 ^ 32, head := (c1.head + n) % 2 ^ 32 }
  let s3 := (s2.hostWrite fn a (r.chunk c1 req c1.seq toks ++ fr)).hostWrite fn c.ring (leBytes 4 c2.head)
  let s4 := s3.f2hPush fn { addr := a, len := n, tag := c.tag, flags := 0x2000 + b2n (decide (r.reason ≠ 0)) }
  let s5 := (s4.cntAdd .bell (fnDie fn) (fnDie fn) 0x040 1).cntBy .bell (fnDie fn) 0x038 r.out.length
  (s5, c2)

/-- Whether the ring has room for a chunk and its pad (R434, R435). -/
def BellCtx.roomFor (c : BellCtx) (tail n : Nat) : Bool :=
  decide (serialDiff c.head tail + n + c.padFor n ≤ c.cap)

/-- Record the tokens of a descriptor (R496). -/
def Req.record (r : Req) (n b : Nat) : Req :=
  if n = 0 then r
  else
    let r1 := { r with generated := r.generated + n }
    let r2 := if r.firstToken = 0 then { r1 with firstToken := b, prompt := r.length }
      else { r1 with tbtMax := min (max r.tbtMax (b - r.lastToken)) 65535 }
    let r3 := { r2 with lastToken := b }
    if bit r3.flags 0 && !(bit r3.flags 5) then { r3 with flags := withBits r3.flags 0 0 0 } else r3

/-- Store a context, or fail with 0x08. -/
def State.bellStore (s : State) (die part off : Nat) (c : BellCtx) : Except Nat State := do
  let s1 ← s.uwrite die part 8 8 1 (bellowsAddr die (off + 48)) (leBytes 4 c.seq)
  s1.uwrite die part 8 8 1 (bellowsAddr die (off + 56)) c.state

/-- Keep the tokens of a descriptor that does not fit (R435). -/
def State.bellBlock (s : State) (die part off i : Nat) (c : BellCtx) (all : List Nat) : Except Nat State := do
  let s1 ← s.bellStore die part off { c with kept := all }
  .ok (((s1.modReq i (fun r => { r with flags := withBits r.flags 3 3 1, heldChunk := true })).cntAdd .bell die die 0x058 1).raise
    (Blk.bell.at die die 0) 3)

/-- What becomes of the text of a descriptor: written, dropped for a function that takes nothing (R516, R667), or kept. -/
def State.bellOut (s : State) (die part off uid i req tail : Nat) (refused : Bool) (c : BellCtx) (all : List Nat) (r : BellRun)
    : Except Nat State := do
  let fn := (s.req i).fn
  let n := alignUp (r.chunk c req 0 (s.req i).generated).length 64
  let gone := (s.fn fn).flr || !s.fnEnabled fn || s.isFatal || (s.req i).quiet
  let writes := r.writesChunk c && !gone
  if writes && refused then .error 3
  else if writes && ((s.fn fn).busMaster = false || !c.roomFor tail n || !s.f2hRoom fn) then s.bellBlock die part off i c all
  else
    let (s1, c1) := if writes then s.chunkWrite fn c req r (s.req i).generated else (s, c)
    let s2 ← s1.bellStore die part off { c1 with pend := r.pend, held := r.held, kept := [], late := false, fallback := false
                                                 final := false, endReason := 0 }
    let s3 := ((s2.cntBy .bell die 0x030 r.ids.length).cntBy .bell die 0x048 (b2n r.stop.isSome)).cntBy .bell die 0x050 r.replaced
    let s4 := s3.modReq i (fun q => { q with
      heldChunk := false
      released := q.released || (writes && decide (r.ids ≠ []))
      finalDone := q.finalDone || decide (r.reason ≠ 0)
      finalBreath := if r.reason ≠ 0 then some (s.stepBreath uid) else q.finalBreath })
    let s5 := s4.reproLog req (fun g => g.add r)
    .ok (if r.reason = 0 then s5 else s5.reqOutcome i uid r.reason 0 0)

/-- The context of a descriptor with what the descriptor adds to it, its tokens with those kept, and the text after them. -/
def State.bellText (s : State) (die part uid : Nat) (d : BDesc) : TextM (BellCtx × List Nat × BellRun) := do
  if d.ok = false then throw 1
  else
    let bs ← s.tread die part 8 8 64 (bellowsAddr die (d.f 8 4)) 2304
    if bellOk bs = false then throw 1
    else
      match s.boundVer 2 die (d.f 7 1) uid with
      | none => throw 2
      | some vs =>
        let e : Vocab := ⟨die, part, vs.desc⟩
        let c0 := bellOf bs
        let all := c0.kept ++ d.toks
        if c0.kept ≠ [] ∧ d.toks ≠ [] ∧ 16 < all.length then throw 5
        else
          let c := { c0 with
            late := c0.late || bit (d.f 5 1) 1, fallback := c0.fallback || bit (d.f 5 1) 2
            final := c0.final || d.final, endReason := if d.final then d.f 6 1 else c0.endReason }
          let r ← s.bellTokens e c all { pend := c.pend, held := c.held }
          pure (c, all, if c.final ∧ r.reason = 0 then r.finish c.endReason else r)

/-- Serve a descriptor whose request stands. The output of a step beyond the end of its request is discarded (R431). -/
def State.bellRun (s : State) (die part uid i tail : Nat) (refused : Bool) (d : BDesc) : TextM State := do
  let x ← s.bellText die part uid d
  if (s.req i).finalBreath.isSome then pure s
  else
    let s1 := s.modReq i (fun q => q.record d.toks.length (s.stepBreath uid))
    tstep (s1.bellOut die part (d.f 8 4) uid i (d.f 0 4) tail refused x.1 x.2.1 x.2.2)

/-- Serve one Bell descriptor. A failed final descriptor counts as an attempt to write the final chunk (R495). -/
def State.bellDo (s : State) (die tail : Nat) (refused : Bool) (r : URun) (d : BDesc) : State :=
  let req := d.f 0 4
  match s.textReq die req with
  | none => s.textFail .bell die r.part r.uid req 7 1
  | some i =>
    match s.noted die r.part (fun t => t.bellRun die r.part r.uid i tail refused d) with
    | (.ok s1, _) => s1
    | (.error c, t) =>
      let s1 := t.textFail .bell die r.part r.uid req 7 c
      if d.final then s1.modReq i (fun q => { q with finalDone := true }) else s1

/-- BELL_DETOKENISE: the next descriptor of the list; `tail` is what the host has written in the ring's control block, and
`refused` says that the host refused the ring's address (R436). -/
def execBellDetokenise (die : Nat) (tail : Word) (refused : Bool) (s : State) : Res :=
  .next (if isBellows die then
    s.textServe .bell die 1 7 32 43 (fun _ => true) (fun t r v => t.bellDo die tail.toNat refused r ⟨v⟩) else s)

end Sys2Proof.Machine
end

