-- ==== Sys2Proof/Machine/Panpipe.lean ====
section
/-! DEFINITION. The Panpipe: index versions, the centroid walk, list scans, side lists, merging and recall (R341 to R379). -/
namespace Sys2Proof.Machine

/-- Add to a counter of a Panpipe. -/
def State.panpCnt (s : State) (die off n : Nat) : State := if n = 0 then s else s.cntAdd .panp die die off n

/-- A Panpipe before its first use. -/
def Panpipe.blank (_ : Nat) : Panpipe := {}
/-- The Panpipe of a chanter. -/
def State.panp (s : State) (die : Nat) : Panpipe := SMap.get Panpipe.blank s.panps die
/-- Replace a Panpipe. -/
def State.setPanp (s : State) (die : Nat) (x : Panpipe) : State := { s with panps := SMap.set Panpipe.blank s.panps die x }
/-- An index that no insert has named. -/
def PIndex.blank (_ : Nat) : PIndex := {}
/-- One index at a Panpipe. -/
def Panpipe.index (x : Panpipe) (i : Nat) : PIndex := SMap.get PIndex.blank x.idx i
/-- Replace one index. -/
def Panpipe.setIndex (x : Panpipe) (i : Nat) (p : PIndex) : Panpipe := { x with idx := SMap.set PIndex.blank x.idx i p }
/-- Entries in a part's ring: (sequence number, ring position). -/
def PIndex.ring (p : PIndex) (q : Nat) : List (Nat × Nat) := SMap.get (fun _ => []) p.rings q

/-- Serial-number order of sequence numbers (R304, R362): `a` is newer than `b`. -/
def seqNewer (a b : Nat) : Bool := decide (0 < serialDiff a b) && decide (serialDiff a b < 2 ^ 31)

/-! ### Version descriptors (R341 to R343) -/

/-- Fields of an index version, and where the lists of its moved parts are found (R342, R366). -/
structure IVer where
  d : Nat
  homes : List (Nat × Nat × Nat) := []
  deriving DecidableEq, Repr

/-- The version's descriptor. -/
def VSlot.iver (v : VSlot) : IVer := { d := v.desc, homes := v.rehost }
/-- L2 metric. -/
def IVer.l2 (v : IVer) : Bool := decide (dfld v.d 5 1 = 1)
/-- Code format. -/
def IVer.fmt (v : IVer) : Nat := dfld v.d 6 1
/-- Dimension. -/
def IVer.dim (v : IVer) : Nat := dfld v.d 8 2
/-- Subspaces. -/
def IVer.m (v : IVer) : Nat := dfld v.d 10 2
/-- log2 of a side ring's capacity. -/
def IVer.sideLog2 (v : IVer) : Nat := dfld v.d 13 1
/-- Centroid slots. -/
def IVer.slots (v : IVer) : Nat := dfld v.d 16 4
/-- base_seq. -/
def IVer.baseSeq (v : IVer) : Nat := dfld v.d 24 4
/-- Bytes of one entry (R341). -/
def IVer.entryBytes (v : IVer) : Nat :=
  if v.fmt = 0 then 2 * v.dim else if v.fmt = 1 then v.dim else if v.fmt = 2 then v.dim / 2 else v.m
/-- Bytes of a node record (R344). -/
def IVer.nodeBytes (v : IVer) : Nat := 128 + ceilDiv (2 * v.dim) 64 * 64
/-- Bytes from one side entry to the next (R359, R368). -/
def IVer.stride (v : IVer) : Nat := alignUp (32 + v.entryBytes) 64

/-- An own-chanter window address (R227). -/
def inOwn (a : Nat) : Bool := decide (ownBase ≤ a) && decide (a < ownBase + chanterBytes)

/-- A descriptor keeps R341 and R342, and entry_slot lies below n_slots (R343). -/
def indexDescOk (id x : Nat) : Bool :=
  let v : IVer := { d := x }
  decide (dfld x 4 1 = id) && decide (dfld x 5 1 ≤ 1) && decide (v.fmt ≤ 3) && decide (dfld x 7 1 < 4) &&
  decide (32 ≤ v.dim) && decide (v.dim ≤ 2048) && decide (v.dim % 32 = 0) &&
  (if v.fmt = 3 then decide (1 ≤ v.m) && decide (v.m ≤ 256) && decide (v.dim % v.m = 0) && inOwn (dfld x 56 8)
   else decide (v.m = 0) && decide (dfld x 56 8 = 0)) &&
  decide (dfld x 12 1 < 64) && decide (10 ≤ v.sideLog2) && decide (v.sideLog2 ≤ 20) && decide (dfld x 14 2 = 0) &&
  decide (1 ≤ v.slots) && decide (v.slots ≤ 4194304) && decide (dfld x 20 4 < v.slots) && decide (dfld x 28 4 = 0) &&
  inOwn (dfld x 32 8) && inOwn (dfld x 40 8) && (decide (dfld x 48 8 = 0) || inOwn (dfld x 48 8))

/-- The checks of R343 against the index's current version and its sequence numbers. -/
def State.indexFollows (s : State) (die id x : Nat) : Bool :=
  let v : IVer := { d := x }
  !seqNewer v.baseSeq ((s.panp die).index id).next &&
  (match (s.dir 1 die).slots.find? (fun w => decide (w.id = id ∧ w.st = .current)) with
   | none => true
   | some w =>
     decide (dfld x 96 32 = dfld w.desc 96 32) && decide (v.sideLog2 = w.iver.sideLog2) && !seqNewer w.iver.baseSeq v.baseSeq)

/-- Publish an index version on one Panpipe (R365, R376). -/
def State.publishIndex (s : State) (die id lo : Nat) : State :=
  (s.noteVer 1 die 128).publish 1 die id lo ((s.readVerDesc 1 die 128).bind (fun x =>
    if indexDescOk id x && s.indexFollows die id x then some x else none))

/-! ### Scores (R349, R350) -/

/-- Sum of squares of differences, or of products, from +0: terms given as query element and entry value. -/
def scoreSum (l2 : Bool) (ts : List (Word × FVal)) : Word :=
  let sum := ts.foldl (fun (acc : Word) t =>
    let x := if l2 then
        (let d := fp32 (toFp32 false ((fp32 t.1).add t.2.neg))
         d.mul d)
      else (fp32 t.1).mul t.2
    toFp32 false ((fp32 acc).add x)) 0
  if l2 && !scoreNan false sum then sum ^^^ 0x80000000 else sum

/-- Score of FP16 elements. -/
def scoreFp16 (l2 : Bool) (q : List Word) (code : List Byte) : Word :=
  scoreSum l2 ((List.range q.length).map (fun e => (q.getD e 0, rowElem code e)))

/-- The integer element `e` of an INT8 or INT4 code. -/
def intElem (fmt : Nat) (code : List Byte) (e : Nat) : Int :=
  if fmt = 1 then signed 8 (leOf ((code.drop e).take 1)) else signed 4 (leOf ((code.drop (e / 2)).take 1) / 16 ^ (e % 2) % 16)

/-- Score of an INT8 or INT4 code with the list's scale. -/
def scoreInt (l2 : Bool) (fmt : Nat) (scale : Word) (q : List Word) (code : List Byte) : Word :=
  let el (e : Nat) : FVal := FVal.ofInt (intElem fmt code e)
  if l2 then scoreSum true ((List.range q.length).map (fun e => (q.getD e 0, (fp32 scale).mul (el e))))
  else toFp32 false ((fp32 scale).mul (fp32 (scoreSum false ((List.range q.length).map (fun e => (q.getD e 0, el e))))))

/-- Score of a PQ8 code with the codebook (R349). -/
def scorePq (l2 : Bool) (dim m : Nat) (book : List Byte) (q : List Word) (code : List Byte) : Word :=
  let ds := dim / m
  (List.range m).foldl (fun (acc : Word) j =>
    let c := leOf ((code.drop j).take 1)
    let cb := book.drop (2 * ((j * 256 + c) * ds))
    let lut := scoreSum l2 ((List.range ds).map (fun e => (q.getD (j * ds + e) 0, rowElem cb e)))
    toFp32 false ((fp32 acc).add (fp32 lut))) 0

/-- Score of an entry's code. -/
def IVer.score (v : IVer) (book : List Byte) (scale : Word) (q : List Word) (code : List Byte) : Word :=
  if v.fmt = 0 then scoreFp16 v.l2 q code
  else if v.fmt ≤ 2 then scoreInt v.l2 v.fmt scale q code
  else scorePq v.l2 v.dim v.m book q code

/-! ### What a descriptor does, and what it ends in -/

/-- What a Panpipe has done towards a descriptor, whether it ends well or not: what R345 and R375 count, and what it has read. -/
structure PLog where
  queries : Nat := 0
  scanned : Nat := 0
  visits : Nat := 0
  skips : Nat := 0
  short : Nat := 0
  widened : Nat := 0
  reads : List (Nat × Nat) := []
  deriving DecidableEq, Repr

/-- One after the other. -/
def PLog.add (a b : PLog) : PLog :=
  { queries := a.queries + b.queries, scanned := a.scanned + b.scanned, visits := a.visits + b.visits, skips := a.skips + b.skips
    short := a.short + b.short, widened := a.widened + b.widened, reads := a.reads ++ b.reads }

/-- What a Panpipe computation ends in. -/
inductive PRes (α : Type) where
  | ok (x : α) (l : PLog)
  /-- A flash tile is missing: query, object, tile (R348). -/
  | need (query obj tile : Nat) (l : PLog)
  | fail (code : Nat) (l : PLog)
  deriving Repr

/-- Compute on with a result. -/
def PRes.bind {α β : Type} (r : PRes α) (f : α → PRes β) : PRes β :=
  match r with
  | .need a b t l => .need a b t l
  | .fail c l => .fail c l
  | .ok x l => match f x with
    | .ok y k => .ok y (l.add k)
    | .need a b t k => .need a b t (l.add k)
    | .fail c k => .fail c (l.add k)

/-- A value at no cost. -/
def PRes.pure {α : Type} (x : α) : PRes α := .ok x {}

/-- A refusal. -/
def PRes.err {α : Type} (c : Nat) : PRes α := .fail c {}

/-- Add to what has been done. -/
def PRes.did (l : PLog) : PRes Unit := .ok () l

/-- Count what a descriptor has done, and record what its reads met (R213, R345, R375). -/
def State.panpDid (s : State) (die part : Nat) (l : PLog) : State :=
  ((((((s.noteIns die part l.reads).panpCnt die 0x030 l.queries).panpCnt die 0x038 l.scanned).panpCnt die 0x040 l.visits).panpCnt die 0x048
    l.skips).panpCnt die 0x058 l.short).panpCnt die 0x060 l.widened

/-- Go on to write, with what has been done counted. -/
def PRes.write {α : Type} (r : PRes α) (s : State) (die part : Nat) (f : State → α → Except Nat State) : PRes State :=
  match r with
  | .need a b t l => .need a b t l
  | .fail c l => .fail c l
  | .ok x l => match f (s.panpDid die part l) x with
    | .ok t => .ok t {}
    | .error c => .fail c l

/-! ### Probes (R344, R345, R351 to R353) -/

/-- Read for a Panpipe: code 3 where refused, 4 where uncorrectable. -/
def State.pread (s : State) (die part align a n : Nat) : PRes (List Byte) :=
  match s.uread die part 3 4 align a n with
  | .ok b => .ok b { reads := [(a, n)] }
  | .error c => .fail c {}

/-- The state entry of a slot. -/
def State.slotEntry (s : State) (die part : Nat) (v : IVer) (t : Nat) : PRes Nat :=
  (s.pread die part 1 (dfld v.d 32 8 + 4 * t) 4).bind (fun b => .pure (leOf b))

/-- A slot is `LIVE`. -/
def slotLive (e : Nat) : Bool := decide (bits e 31 30 = 1)

/-- The node record of a slot. -/
def State.nodeRec (s : State) (die part : Nat) (v : IVer) (t e : Nat) : PRes (List Byte) :=
  let a := if bit e 29 then dfld v.d 48 8 + bits e 15 0 * v.nodeBytes else dfld v.d 40 8 + t * v.nodeBytes
  s.pread die part 1 a v.nodeBytes

/-- A scored slot: slot, score, live, edges. -/
structure Node where
  slot : Nat
  score : Word
  live : Bool
  edges : List Byte
  deriving DecidableEq, Repr

/-- Slots rank by score from high to low, a NaN last, equals by lower slot (R351). -/
def slotBefore (a b : Node) : Bool :=
  let na := scoreNan false a.score
  let nb := scoreNan false b.score
  if na || nb then (!na && nb) || (na && nb && decide (a.slot < b.slot))
  else scoreLt false b.score a.score || (scoreEq false a.score b.score && decide (a.slot < b.slot))

/-- Score a slot for a query. -/
def State.scoreSlot (s : State) (die part : Nat) (v : IVer) (q : List Word) (t e : Nat) : PRes Node :=
  (s.nodeRec die part v t e).bind (fun r =>
    .pure { slot := t, score := scoreFp16 v.l2 q (r.drop 128), live := slotLive e, edges := r.take 128 })

/-- The state of a walk (R352). -/
structure Walk where
  visited : List Nat
  visits : Nat := 1
  cand : List Node
  best : List Node
  deriving DecidableEq, Repr

/-- A scored slot enters the walk, at a beam of `w` (R352). -/
def Walk.enter (k : Walk) (w : Nat) (nd : Node) : Walk :=
  let k1 := { k with visited := nd.slot :: k.visited, visits := k.visits + 1 }
  if decide (k.best.length < w) || (match k.best.getLast? with | some b => slotBefore nd b | none => true) then
    { k1 with cand := insertBy slotBefore nd k1.cand
              best := if nd.live then (insertBy slotBefore nd k1.best).take w else k1.best }
  else k1

/-- Follow the edges of a node from edge `i`. -/
def State.walkEdges (s : State) (die part : Nat) (v : IVer) (q : List Word) (w : Nat) (c : Node) : Nat → Nat → Walk → PRes Walk
  | 0, _, k => .pure k
  | n + 1, i, k =>
    let e := leOf ((c.edges.drop (4 * i)).take 4)
    let t := bits e 21 0
    let skip : PRes Walk := (PRes.did { skips := 1 }).bind (fun _ => State.walkEdges s die part v q w c n (i + 1) k)
    if e = 0xFFFFFFFF then .pure k
    else if bits e 23 22 ≠ 0 ∨ v.slots ≤ t then skip
    else (s.slotEntry die part v t).bind (fun st =>
      if bits st 31 30 = 0 ∨ bits st 23 16 ≠ bits e 31 24 then skip
      else if k.visited.contains t then State.walkEdges s die part v q w c n (i + 1) k
      else (s.scoreSlot die part v q t st).bind (fun nd => (PRes.did { visits := 1 }).bind (fun _ =>
        State.walkEdges s die part v q w c n (i + 1) (k.enter w nd))))

/-- The walk, with a bound on its expansions. -/
def State.walkFrom (s : State) (die part : Nat) (v : IVer) (q : List Word) (w : Nat) : Nat → Walk → PRes Walk
  | 0, k => .pure k
  | n + 1, k =>
    match k.cand with
    | [] => .pure k
    | c :: rest =>
      if 64 * w ≤ k.visits then .pure k
      else if k.best.length = w ∧ (match k.best.getLast? with | some b => slotBefore b c | none => false) = true then .pure k
      else (s.walkEdges die part v q w c 32 0 { k with cand := rest }).bind (fun k' => State.walkFrom s die part v q w n k')

/-- What choosing probes gives. -/
structure Probes where
  slots : List Nat
  visits : Nat := 0
  capped : Bool := false
  deriving DecidableEq, Repr

/-- Score the live slots among the first `n` (R353). -/
def State.flatNodes (s : State) (die part : Nat) (v : IVer) (q : List Word) : Nat → PRes (List Node)
  | 0 => .pure []
  | n + 1 =>
    (State.flatNodes s die part v q n).bind (fun ns => (s.slotEntry die part v n).bind (fun e =>
      if slotLive e = false then .pure ns
      else (s.scoreSlot die part v q n e).bind (fun nd => .pure (insertBy slotBefore nd ns))))

/-- Choose probes (R352, R353). -/
def State.probes (s : State) (die part : Nat) (v : IVer) (q : List Word) (p ef : Nat) : PRes Probes :=
  if bit (dfld v.d 7 1) 0 then
    (s.flatNodes die part v q v.slots).bind (fun ns => .pure { slots := (ns.take p).map (fun n => n.slot) })
  else
    let w := max p ef
    let e := dfld v.d 20 4
    (s.slotEntry die part v e).bind (fun st => (s.scoreSlot die part v q e st).bind (fun nd =>
      (PRes.did { visits := 1 }).bind (fun _ =>
        (s.walkFrom die part v q w (64 * w + 1) { visited := [e], cand := [nd], best := if nd.live then [nd] else [] }).bind (fun k =>
          .pure { slots := (k.best.take p).map (fun n => n.slot), visits := k.visits, capped := decide (64 * w ≤ k.visits) }))))

/-! ### Lists and side entries (R346 to R348, R359 to R362) -/

/-- A list header (R347). -/
structure LHead where
  addr : Nat
  count : Nat
  scale : Word
  kind : Nat
  ref : Nat
  off : Nat
  deriving DecidableEq, Repr

/-- Where a byte of the list data of part `q` lies in flash once the part's host is offline: object and place (R366; DESIGN
CHOICE, log entry 191: the staged lists are read from the flash object). -/
def State.stagedAt (s : State) (v : IVer) (q a : Nat) : Option (Nat × Nat) :=
  v.homes.findSome? (fun e =>
    let b := e.2.2 % chanterBytes
    match s.obj e.2.1 with
    | some o => if e.1 = q ∧ onChanter (e.2.2 / chanterBytes) a = true ∧ b ≤ localOff a ∧ localOff a < b + o.size then
        some (e.2.1, localOff a - b) else none
    | none => none)

/-- Read list data of part `q`: from its host, or from flash where the part has moved (R346, R366). -/
def State.lread (s : State) (die part : Nat) (v : IVer) (q align a n : Nat) : PRes (List Byte) :=
  match s.stagedAt v q a with
  | none => s.pread die part align a n
  | some (obj, off) => if a % align ≠ 0 then .err 3 else .pure (s.flashBytes obj off n)

/-- Note, before chanter `c` goes offline, the `FLASH_BACKED` objects that hold the lists of the parts it hosts (R366). -/
def State.rehostLists (s : State) (c : Nat) : State :=
  let qs := (List.range 4).filter (fun q => decide (s.hostOf .panp c q = c))
  let objs := s.objs.filterMap (fun e => match e.2 with
    | some o => (match o.addr with
      | some b => if oFlash o.flags && oLocal o.flags && (oMask o.flags).testBit c then some (e.1, c * chanterBytes + localOff b) else none
      | none => none)
    | none => none)
  let slot (v : VSlot) : VSlot := if bit (dfld v.desc 7 1) 1 then { v with rehost := v.rehost ++ qs.flatMap (fun q => objs.map (fun e => (q, e))) } else v
  (List.range 4).foldl (fun (t : State) d => t.setDir 1 d { t.dir 1 d with slots := (t.dir 1 d).slots.map slot }) s

/-- The list of a slot: none where it is empty. -/
def State.listHead (s : State) (die part : Nat) (v : IVer) (L : Nat) : PRes (Option LHead) :=
  (s.lread die part v (L % 4) 1 (dfld v.d (64 + 8 * (L % 4)) 8 + L / 4 * 8) 8).bind (fun b =>
    let a := leOf b
    if a = 0 then .pure none
    else (s.lread die part v (L % 4) 4096 a 64).bind (fun hb =>
      let h := leOf hb
      if 1 < dfld h 8 1 ∨ dfld h 9 7 ≠ 0 ∨ dfld h 32 32 ≠ 0 then .err 9
      else .pure (some { addr := a, count := dfld h 0 4, scale := BitVec.ofNat 32 (dfld h 4 4), kind := dfld h 8 1
                         ref := dfld h 16 8, off := dfld h 24 8 })))

/-- The codes of a list of part `q`. -/
def State.listCodes (s : State) (die part : Nat) (v : IVer) (q : Nat) (h : LHead) : PRes (List Byte) :=
  s.lread die part v q 1 (h.addr + 64) (h.count * v.entryBytes)

/-- A side entry (R359). -/
structure SideEnt where
  id : Nat
  tag : Nat
  attr : Nat
  list : Nat
  seq : Nat
  del : Bool
  code : List Byte
  deriving DecidableEq, Repr

/-- Device address of a part's side ring on chanter `c`: the same chanter-local offset on every host (log entry 41). -/
def IVer.sideBase (v : IVer) (q c : Nat) : Nat :=
  let a := dfld v.d (96 + 8 * q) 8
  if a < 4 * chanterBytes then c * chanterBytes + a % chanterBytes
  else if ownBase ≤ a ∧ a < ownBase + chanterBytes then c * chanterBytes + (a - ownBase)
  else a

/-- Read the side entries of a part with base_seq < seq ≤ h, in ascending sequence number (R362). -/
def State.sideEntries (s : State) (die part : Nat) (v : IVer) (q h : Nat) : List (Nat × Nat) → PRes (List SideEnt)
  | [] => .pure []
  | (seq, pos) :: rest =>
    if !seqNewer seq v.baseSeq || seqNewer seq h then State.sideEntries s die part v q h rest
    else (s.pread die part 1 (v.sideBase q (s.hostOf .panp die q) + pos * v.stride) v.stride).bind (fun b =>
      (State.sideEntries s die part v q h rest).bind (fun es =>
        let f (o n : Nat) : Nat := leOf ((b.drop o).take n)
        .pure ({ id := f 0 8, tag := f 8 4, attr := f 12 4, list := f 16 4 % 2 ^ 22, seq := seq, del := decide (f 24 1 = 1)
                 code := (b.drop 32).take v.entryBytes } :: es)))

/-- The bound side entries of a part. -/
def State.boundSide (s : State) (die part index : Nat) (v : IVer) (q h : Nat) : PRes (List SideEnt) :=
  s.sideEntries die part v q h (((s.panp die).index index).ring q)

/-- A candidate of the scan: its rank data, its list, and what it knows of its record: tag and attribute. -/
structure Scan where
  c : Cand
  list : Nat
  head : Option LHead := none
  entry : Nat := 0
  tag : Nat := 0
  attr : Nat := 0
  deriving DecidableEq, Repr

/-- Score the entries of one list. -/
def IVer.scanCodes (v : IVer) (book : List Byte) (q : List Word) (h : LHead) (L pos : Nat) (codes : List Byte) : List Scan :=
  (List.range h.count).map (fun i =>
    { c := { id := 0, score := v.score book h.scale q ((codes.drop (i * v.entryBytes)).take v.entryBytes), pos := pos + i, lpos := pos + i }
      list := L, head := some h, entry := i })

/-- Scan the lists of one part in a given order: the candidates and the lists scanned. -/
def State.scanLists (s : State) (die part : Nat) (v : IVer) (book : List Byte) (q : List Word) : List Nat → Nat → PRes (List Scan × Nat)
  | [], _ => .pure ([], 0)
  | L :: Ls, pos =>
    (s.listHead die part v L).bind (fun h? => match h? with
      | none => (State.scanLists s die part v book q Ls pos).bind (fun r => .pure (r.1, r.2 + 1))
      | some h => (s.listCodes die part v (L % 4) h).bind (fun codes => (PRes.did { scanned := h.count }).bind (fun _ =>
          (State.scanLists s die part v book q Ls (pos + h.count)).bind (fun r =>
            .pure (v.scanCodes book q h L pos codes ++ r.1, r.2 + 1)))))

/-- The scale a side entry is scored with: that of its named list; where the list is empty the spec states none, a free
value (R349, R359). -/
def State.sideScale (s : State) (die part : Nat) (v : IVer) (L : Nat) : PRes Word :=
  if v.fmt = 0 ∨ v.fmt = 3 then .pure 0
  else (s.listHead die part v L).bind (fun h? => .pure (match h? with
    | some h => h.scale
    | none => BitVec.ofNat 32 (s.free 32).1))

/-- Score the side inserts of a part (R354). -/
def State.scanSide (s : State) (die part : Nat) (v : IVer) (book : List Byte) (q : List Word) : List SideEnt → Nat → PRes (List Scan)
  | [], _ => .pure []
  | e :: es, pos =>
    (s.sideScale die part v e.list).bind (fun sc => (PRes.did { scanned := 1 }).bind (fun _ =>
      (State.scanSide s die part v book q es (pos + 1)).bind (fun cs =>
        .pure ({ c := { id := e.id, score := v.score book sc q e.code, seq := e.seq, side := true, pos := pos, lpos := pos }
                 list := e.list, tag := e.tag, attr := e.attr } :: cs))))

/-- The record of entry `i` of a list of part `q` (R348); the records of a list lie at multiples of 16. -/
def State.entryRec (s : State) (die part qi : Nat) (v : IVer) (q : Nat) (h : LHead) (i : Nat) : PRes Nat :=
  let o := h.off + 16 * i
  if h.off % 16 ≠ 0 then .err 3
  else if h.kind = 0 then (s.lread die part v q 1 (h.ref + o) 16).bind (fun b => .pure (leOf b))
  else match (s.panp die).tiles.find? (fun t => decide (t.1 = (qi, h.ref, o / 4096))) with
    | some t => .pure (leOf ((t.2.drop (o % 4096)).take 16))
    | none => .need qi h.ref (o / 4096) {}

/-- Read the records of the selected candidates; a main entry takes base_seq (R355 items 4 and 7). -/
def State.fillRecords (s : State) (die part qi : Nat) (v : IVer) (src : Nat) : List Scan → PRes (List Scan)
  | [] => .pure []
  | c :: cs =>
    (match c.head with
     | none => PRes.pure { c with c := { c.c with src := src } }
     | some h => (s.entryRec die part qi v (c.list % 4) h c.entry).bind (fun r =>
         .pure { c with c := { c.c with id := dfld r 0 8, seq := v.baseSeq, src := src }, tag := dfld r 8 4, attr := dfld r 12 4 })).bind
      (fun d => (State.fillRecords s die part qi v src cs).bind (fun rs => .pure (d :: rs)))

/-- A delete entry supersedes a candidate (R359). -/
def supersedes (e : SideEnt) (c : Scan) : Bool :=
  e.del && decide (e.id = c.c.id) && decide (e.list = c.list) && (!c.c.side || seqNewer e.seq c.c.seq)

/-- A filter record passes an entry (R356). -/
def filterPass (f : Option (Nat × Nat × Nat × Nat)) (c : Scan) : Bool :=
  match f with
  | none => true
  | some (mask, value, lo, hi) => decide (c.attr &&& mask = value) && decide (lo ≤ c.tag) && decide (c.tag ≤ hi)

/-! ### The search (R354 to R358, R370, R371) -/

/-- The result of one part of one query. -/
structure PartRes where
  list : ResList
  probes : Nat := 0
  passes : Nat := 1
  capped : Bool := false
  pshort : Bool := false
  exact : Bool := false
  lists : Nat := 0
  scanned : Nat := 0
  filtered : Nat := 0
  deleted : Nat := 0
  visits : Nat := 0
  deriving DecidableEq, Repr

/-- Steps 2 to 8 of R355 over given lists. -/
def State.searchLists (s : State) (die part index qi : Nat) (v : IVer) (h q k kpre : Nat) (book : List Byte) (qv : List Word)
    (flt : Option (Nat × Nat × Nat × Nat)) (ls : List Nat) : PRes PartRes :=
  (s.scanLists die part v book qv ls 0).bind (fun main =>
  (s.boundSide die part index v q h).bind (fun side =>
  (s.scanSide die part v book qv (side.filter (fun e => !e.del)) main.1.length).bind (fun ins =>
    let all := main.1 ++ ins.filter (fun c => decide (c.c.id ≠ noId))
    let ok := all.filter (fun c => !scoreNan false c.c.score)
    let sel := (sortBy (fun (a b : Scan) => ranksBefore false false a.c b.c) ok).take kpre
    (s.fillRecords die part qi v q sel).bind (fun rs =>
      let known := rs.filter (fun c => decide (c.c.id ≠ noId))
      let s5 := known.filter (fun c => !side.any (fun e => supersedes e c))
      let s6 := s5.filter (filterPass flt)
      let s7 := foldDups false (sortBy (fun (a b : Cand) => decide (a.lpos < b.lpos)) (s6.map (fun c => c.c)))
      let n := all.length
      .pure { list := selectTop false false k s7
                { k := k, int := false, src := q, considered := n, excluded := n - ok.length, dups := s6.length - s7.length }
              lists := main.2, scanned := n, deleted := known.length - s5.length, filtered := s5.length - s6.length }))))

/-- One part of one query at given p and k_pre (R355). -/
def State.searchPass (s : State) (die part index qi : Nat) (v : IVer) (h q k p ef kpre : Nat) (book : List Byte) (qv : List Word)
    (flt : Option (Nat × Nat × Nat × Nat)) : PRes PartRes :=
  (s.probes die part v qv p ef).bind (fun pr =>
    (s.searchLists die part index qi v h q k kpre book qv flt (pr.slots.filter (fun L => decide (L % 4 = q)))).bind (fun r =>
      .pure { r with probes := p, capped := pr.capped, pshort := decide (pr.slots.length < p), visits := pr.visits }))

/-- The search of one part with widening (R357, R358). -/
def State.searchPart (s : State) (die part index qi : Nat) (v : IVer) (h q k ef : Nat) (book : List Byte) (qv : List Word)
    (flt : Option (Nat × Nat × Nat × Nat)) : Nat → Nat → Nat → PRes PartRes
  | widen, p, kpre =>
    (s.searchPass die part index qi v h q k p ef kpre book qv flt).bind (fun r =>
      match widen with
      | 0 => .pure r
      | w + 1 =>
        if k ≤ r.list.entries.length then .pure r
        else (PRes.did { widened := 1 }).bind (fun _ =>
          (State.searchPart s die part index qi v h q k ef book qv flt w (min 4096 (2 * p)) (min 4096 (2 * kpre))).bind (fun r' =>
            .pure { r' with passes := r'.passes + 1 })))

/-- The live lists of a part among `n` slots from `lo` (R371). -/
def State.liveLists (s : State) (die part : Nat) (v : IVer) (q lo : Nat) : Nat → PRes (List Nat)
  | 0 => .pure []
  | n + 1 =>
    (State.liveLists s die part v q lo n).bind (fun ls =>
      let L := lo + n
      if L % 4 ≠ q ∨ v.slots ≤ L then .pure ls
      else (s.slotEntry die part v L).bind (fun e => .pure (if slotLive e then ls ++ [L] else ls)))

/-- A status record (R370). -/
def PartRes.status (r : PartRes) : List Byte :=
  let n := r.list.entries.length
  leBytes 2 n ++ leBytes 2 (satTo 16 r.probes) ++ leBytes 1 r.passes ++
  leBytes 1 (b2n (decide (n < r.list.k)) + 2 * b2n r.capped + 4 * b2n r.pshort + 8 * b2n r.exact) ++
  leBytes 2 (satTo 16 r.lists) ++ leBytes 4 (satTo 32 r.scanned) ++ leBytes 2 (satTo 16 r.filtered) ++
  leBytes 2 (satTo 16 r.deleted) ++ leBytes 2 (satTo 16 r.list.dups) ++ leBytes 2 (satTo 16 r.list.excluded) ++
  leBytes 4 (satTo 32 r.visits) ++ leBytes 8 0

/-! ### Descriptors (R368, R369) -/

/-- The checks of R368 on a descriptor. -/
def panpFieldsOk (v : Nat) : Bool :=
  let op := dfld v 0 1
  let n := dfld v 4 2
  let p := dfld v 6 2
  let k := dfld v 8 2
  let kp := dfld v 10 2
  let ef := dfld v 12 2
  decide (op ≤ 5) && decide (dfld v 1 1 < 16) && decide (dfld v 2 1 < 64) && decide (dfld v 3 1 = 0) && decide (dfld v 14 2 = 0) &&
  decide (dfld v 56 8 = 0) && decide (1 ≤ n) && (decide (op = 2 ∨ op = 3) || decide (n ≤ 256)) && (decide (op ≠ 4) || decide (n = 1)) &&
  (if op = 0 then decide (1 ≤ p) && decide (p ≤ 4096) else decide (p = 0)) &&
  (if op = 0 ∨ op = 1 ∨ op = 4 then decide (1 ≤ k) && decide (k ≤ 4096) else decide (k = 0)) &&
  (if op = 0 then decide (k ≤ kp) && decide (kp ≤ 4096) else if op = 1 then decide (kp = k) else decide (kp = 0)) &&
  (if op = 0 then decide (ef = 0) || (decide (p ≤ ef) && decide (ef ≤ 8192)) else decide (ef = 0))

/-- A filter record, refused where R356 refuses it. -/
def filterOf (b : List Byte) : Option (Nat × Nat × Nat × Nat) :=
  let f (o : Nat) : Nat := leOf ((b.drop o).take 4)
  if f 0 ||| f 4 ≠ f 0 ∨ f 12 < f 8 then none else some (f 0, f 4, f 8, f 12)

/-- The parts a Panpipe hosts. -/
def State.pHosted (s : State) (die : Nat) : List Nat := (List.range 4).filter (fun q => decide (s.hostOf .panp die q = die))

/-- The queries and parts of a search: (query, part). -/
def State.searchJobs (s : State) (die n : Nat) : List (Nat × Nat) :=
  (List.range n).flatMap (fun i => (s.pHosted die).map (fun q => (i, q)))

/-- Search one part for one query (R355, R371). -/
def State.searchOne (s : State) (die part index : Nat) (v : IVer) (h x : Nat) (book qs : List Byte) (fl : Option (List Byte)) (i q : Nat) :
    PRes PartRes :=
  let qv := (numsOf (qs.drop (i * v.dim * 4)) 4 v.dim).map (fun y => BitVec.ofNat 32 y)
  let flt := match fl with | some b => filterOf ((b.drop (16 * i)).take 16) | none => none
  let k := dfld x 8 2
  if dfld x 0 1 = 0 then
    s.searchPart die part index i v h q k (dfld x 12 2) book qv flt (if bit (dfld x 1 1) 1 then 2 else 0) (dfld x 6 2) (dfld x 10 2)
  else
    (s.liveLists die part v q (dfld x 48 4) (dfld x 52 4 - dfld x 48 4)).bind (fun ls =>
      (s.searchLists die part index i v h q k k book qv flt ls).bind (fun r => .pure { r with exact := true }))

/-- The results of every query and part, in order. -/
def State.searchAll (s : State) (die part index : Nat) (v : IVer) (h x : Nat) (book qs : List Byte) (fl : Option (List Byte)) :
    List (Nat × Nat) → PRes (List ((Nat × Nat) × PartRes))
  | [] => .pure []
  | (i, q) :: rest =>
    (s.searchOne die part index v h x book qs fl i q).bind (fun r =>
      (PRes.did { queries := 1, short := b2n (decide (r.list.entries.length < dfld x 8 2)) }).bind (fun _ =>
        (State.searchAll s die part index v h x book qs fl rest).bind (fun rs => .pure (((i, q), r) :: rs))))

/-- Write the results of a search (R370). -/
def State.searchWrite (s : State) (die part x : Nat) (rs : List ((Nat × Nat) × PartRes)) : Except Nat State :=
  match s.uwrites 9 die part 3 4 8 (rs.flatMap (fun r =>
    let n := 4 * r.1.1 + r.1.2
    [(dfld x 32 8 + n * listBytes (dfld x 8 2), r.2.list.bytes), (dfld x 40 8 + 32 * n, r.2.status)])) with
  | .error c => .error c
  | .ok t => .ok (t.free 32).2

/-- A search descriptor (R355, R369, R371). -/
def State.runSearch (s : State) (die part : Nat) (w : VSlot) (uid x : Nat) : PRes State :=
  let v := w.iver
  let n := dfld x 4 2
  let opt (c : Bool) (r : PRes (List Byte)) : PRes (Option (List Byte)) := if c then r.bind (fun b => .pure (some b)) else .pure none
  ((s.pread die part 4 (dfld x 16 8) (n * v.dim * 4)).bind (fun qs =>
   (opt (bit (dfld x 1 1) 2) (s.pread die part 4 (dfld x 24 8) (16 * n))).bind (fun fl =>
    if (match fl with | some b => (List.range n).any (fun i => (filterOf ((b.drop (16 * i)).take 16)).isNone) | none => false) then .err 1
    else (opt (decide (v.fmt = 3)) (s.pread die part 1 (dfld v.d 56 8) (512 * v.dim))).bind (fun book =>
      s.searchAll die part w.id v (w.markOf uid) x (book.getD []) qs fl (s.searchJobs die n))))).write s die part
    (fun u rs => u.searchWrite die part x rs)

/-! ### Inserts and deletes (R359 to R363) -/

/-- A record of an insert or delete descriptor. -/
structure PRec where
  id : Nat
  tag : Nat
  attr : Nat
  list : Nat
  rsvd : Bool
  code : List Byte
  deriving DecidableEq, Repr

/-- Read record `j`. -/
def precOf (b : List Byte) (n : Nat) : PRec :=
  let f (o k : Nat) : Nat := leOf ((b.drop o).take k)
  { id := f 0 8, tag := f 8 4, attr := f 12 4, list := f 16 4 % 2 ^ 22, rsvd := decide (f 16 4 / 2 ^ 22 ≠ 0 ∨ f 20 12 ≠ 0)
    code := (b.drop 32).take n }

/-- Forget ring entries at or below the lowest base_seq of the versions that are not `EMPTY` (R361). -/
def State.reclaim (s : State) (die index : Nat) : State :=
  let vs := (s.dir 1 die).slots.filter (fun w => decide (w.id = index))
  match vs with
  | [] => s
  | w :: ws =>
    let low := ws.foldl (fun b u => if seqNewer b u.iver.baseSeq then u.iver.baseSeq else b) w.iver.baseSeq
    let x := s.panp die
    let p := x.index index
    s.setPanp die (x.setIndex index { p with rings := (List.range 4).foldl (fun m q =>
      SMap.upd (fun _ => []) m q (fun es => es.filter (fun e => seqNewer e.1 low))) p.rings })

/-- The bytes of a side entry (R359). -/
def PRec.sideBytes (r : PRec) (v : IVer) (seq : Nat) (del : Bool) : List Byte :=
  let b := leBytes 8 r.id ++ leBytes 4 r.tag ++ leBytes 4 r.attr ++ leBytes 4 r.list ++ leBytes 4 seq ++ leBytes 8 (b2n del) ++ r.code
  b ++ List.replicate (v.stride - b.length) 0

/-- Put one record into the rings: its host's, and its mirror on the chanter that would host the part (R360, R367). -/
def State.putSide (s : State) (die part index : Nat) (v : IVer) (del : Bool) (r : PRec) (seq : Nat) : Except Nat State :=
  let x := s.panp die
  let p := x.index index
  let q := r.list % 4
  let n := SMap.get (fun _ => 0) p.tails q
  let pos := n % 2 ^ v.sideLog2
  let s1 := s.setPanp die (x.setIndex index { p with
    rings := SMap.set (fun _ => []) p.rings q (p.ring q ++ [(seq, pos)]), tails := SMap.set (fun _ => 0) p.tails q (n + 1) })
  let host := s.hostOf .panp die q
  if host ≠ die then .ok s1
  else
    let bs := r.sideBytes v seq del
    match s1.uout 9 die part 3 4 1 (v.sideBase q host + pos * v.stride) bs with
    | .error c => .error c
    | .ok t =>
      let t1 := t.panpCnt die 0x068 1
      let m := s.nextOnline host
      if m = host then .ok t1
      else .ok (t1.writeSeen (.unit die) none (v.sideBase q m + pos * v.stride) bs)

/-- Put every record, in order. -/
def State.putSides (s : State) (die part index : Nat) (v : IVer) (del : Bool) : List PRec → Nat → Except Nat State
  | [], _ => .ok s
  | r :: rs, seq =>
    match s.putSide die part index v del r seq with
    | .error c => .error c
    | .ok t => State.putSides t die part index v del rs ((seq + 1) % 2 ^ 32)

/-- Every record names a live list, and none sets a reserved bit (R369). -/
def State.recordsOk (s : State) (die part : Nat) (v : IVer) (del : Bool) : List PRec → PRes Bool
  | [] => .pure true
  | r :: rs =>
    if r.rsvd ∨ v.slots ≤ r.list ∨ (del ∧ (r.tag ≠ 0 ∨ r.attr ≠ 0)) then .pure false
    else (s.slotEntry die part v r.list).bind (fun e => if slotLive e then State.recordsOk s die part v del rs else .pure false)

/-- The records of an insert or delete descriptor (R368). -/
def State.sideRecords (s : State) (die part : Nat) (v : IVer) (x : Nat) : PRes (List PRec) :=
  let del := decide (dfld x 0 1 = 3)
  let st := if del then 32 else v.stride
  (s.pread die part 8 (dfld x 16 8) (dfld x 4 2 * st)).bind (fun b =>
    .pure ((List.range (dfld x 4 2)).map (fun j => precOf ((b.drop (j * st)).take st) (if del then 0 else v.entryBytes))))

/-- Take the sequence numbers of `n` records for a step, and note that it writes the index (R360, R362, R363). -/
def State.takeSeqs (s : State) (die index uid n : Nat) : State :=
  let x := s.panp die
  let p := x.index index
  let next := (p.next + n) % 2 ^ 32
  let e := (index, s.stepOrder uid)
  (s.setPanp die { x.setIndex index { p with
      next := next, unretired := (p.unretired.filter (fun e => decide (e.1 ≠ uid))) ++ [(uid, next)] } with
    seen := if x.seen.contains e then x.seen else e :: x.seen }).stepUpdates uid

/-- An insert or delete descriptor (R360 to R363). -/
def State.runSide (s : State) (die part : Nat) (w : VSlot) (uid x : Nat) : PRes State :=
  let v := w.iver
  let del := decide (dfld x 0 1 = 3)
  if (s.panp die).seen.any (fun e => decide (e.1 = w.id ∧ e.2 < s.stepOrder uid)) then .err 7
  else ((s.sideRecords die part v x).bind (fun rs => (s.recordsOk die part v del rs).bind (fun ok =>
    if ok then .pure rs else .err 1))).write s die part (fun u rs =>
      let s1 := u.reclaim die w.id
      let p := (s1.panp die).index w.id
      if (List.range 4).any (fun q => decide (2 ^ v.sideLog2 < (p.ring q).length + rs.countP (fun r => decide (r.list % 4 = q)))) then .error 8
      else (s1.takeSeqs die w.id uid (dfld x 4 2)).putSides die part w.id v del rs ((p.next + 1) % 2 ^ 32))

/-- A step retires: the numbers it assigned count for later marks (R362). -/
def State.panpRetire (s : State) (die uid : Nat) : State :=
  let x := s.panp die
  s.setPanp die { x with idx := x.idx.map (fun e =>
    match e.2.unretired.find? (fun u => decide (u.1 = uid)) with
    | none => e
    | some u => (e.1, { e.2 with mark := if seqNewer u.2 e.2.mark then u.2 else e.2.mark
                                 unretired := e.2.unretired.filter (fun y => decide (y.1 ≠ uid)) })) }

/-! ### Compare and merge (R364, R372) -/

/-- The ids of a result list's first entries, at most `cap`. -/
def State.listIds (s : State) (die part a cap : Nat) : PRes (List Nat) :=
  (s.pread die part 8 a 32).bind (fun h =>
    let n := min cap (leOf (h.take 2))
    (s.pread die part 8 (a + 32) (24 * n)).bind (fun b => .pure ((List.range n).map (fun i => leOf ((b.drop (24 * i)).take 8)))))

/-- Op 4 (R372). -/
def State.runCompare (s : State) (die part x : Nat) : PRes State :=
  ((s.listIds die part (dfld x 16 8) (2 ^ 16)).bind (fun a => (s.listIds die part (dfld x 24 8) (dfld x 8 2)).bind (fun e =>
    .pure (a.countP (fun i => e.contains i), e.length)))).write s die part (fun u r =>
      match u.uout 9 die part 3 4 8 (dfld x 40 8) (leBytes 4 r.1 ++ leBytes 4 r.2) with
      | .error c => .error c
      | .ok t => .ok ((t.panpCnt die 0x070 r.1).panpCnt die 0x078 r.2))

/-- The surviving entries of a list: (code, record). -/
def State.survivors (s : State) (die part qi : Nat) (v : IVer) (h : LHead) (dels : List SideEnt) (L : Nat) (codes : List Byte) :
    Nat → PRes (List (List Byte × List Byte))
  | 0 => .pure []
  | n + 1 =>
    (State.survivors s die part qi v h dels L codes n).bind (fun rs => (s.entryRec die part qi v (L % 4) h n).bind (fun r =>
      .pure (if dels.any (fun e => e.del && decide (e.id = dfld r 0 8) && decide (e.list = L)) then rs
        else rs ++ [((codes.drop (n * v.entryBytes)).take v.entryBytes, leBytes 16 r)])))

/-- The entries of a rebuilt list: surviving main entries, then surviving inserts (R364). -/
def State.rebuilt (s : State) (die part index qi : Nat) (v : IVer) (seq L : Nat) : PRes (Word × List (List Byte × List Byte)) :=
  (s.boundSide die part index v (L % 4) seq).bind (fun side => (s.listHead die part v L).bind (fun h? =>
    let mine := side.filter (fun e => decide (e.list = L))
    let ins := (mine.filter (fun e => !e.del && !mine.any (fun d => d.del && decide (d.id = e.id) && seqNewer d.seq e.seq))).map (fun e =>
      (e.code, leBytes 8 e.id ++ leBytes 4 e.tag ++ leBytes 4 e.attr))
    match h? with
    | none => .pure (BitVec.ofNat 32 (if v.fmt = 1 ∨ v.fmt = 2 then (s.free 32).1 else 0), ins)
    | some h => (s.listCodes die part v (L % 4) h).bind (fun codes =>
        (s.survivors die part qi v h mine L codes h.count).bind (fun rs => .pure (h.scale, rs ++ ins)))))

/-- Rebuild lists one after another, each new list at the next 4 KiB boundary and its records after those before it (R364, log
entry 42): the pieces to write so far, and whether the merge goes on, waits or fails. -/
def State.mergeLists (s : State) (die part index : Nat) (v : IVer) (seq out : Nat) :
    List Nat → Nat → Nat → Nat → List (Nat × List Byte) × PRes Unit
  | [], _, _, _ => ([], .pure ())
  | L :: Ls, qi, at', recs =>
    match s.rebuilt die part index qi v seq L with
    | .fail c l => ([], .fail c l)
    | .need a b t l => ([], .need a b t l)
    | .ok (scale, es) l =>
      let head := leBytes 4 es.length ++ leBytes 4 scale.toNat ++ leBytes 8 0 ++ leBytes 8 out ++ leBytes 8 (16 * recs) ++ leBytes 32 0
      let body := es.flatMap (fun e => e.1)
      let r := State.mergeLists s die part index v seq out Ls (qi + 1) (alignUp (at' + 64 + body.length) 4096) (recs + es.length)
      ((at', head ++ body) :: (out + 16 * recs, es.flatMap (fun e => e.2)) :: r.1, (PRes.did l).bind (fun _ => r.2))

/-- The lists a merge descriptor names, where it is not refused (R364, R368). -/
def State.mergeNames (s : State) (die part : Nat) (w : VSlot) (uid x : Nat) : PRes (List Nat) :=
  if seqNewer (dfld x 48 4) (w.markOf uid) then .err 1
  else (s.pread die part 4 (dfld x 16 8) (4 * dfld x 4 2)).bind (fun b =>
    let ls := numsOf b 4 (dfld x 4 2)
    if ls.any (fun L => decide (w.iver.slots ≤ L)) then .err 1
    else if dfld x 24 8 % 4096 ≠ 0 then .err 3
    else .pure ls)

/-- What a merge descriptor writes (R364). -/
def State.mergePieces (s : State) (die part : Nat) (w : VSlot) (x : Nat) (ls : List Nat) : List (Nat × List Byte) × PRes Unit :=
  s.mergeLists die part w.id w.iver (dfld x 48 4) (dfld x 32 8) ls 0 (dfld x 24 8) 0

/-- Op 5 (R364). -/
def State.runMerge (s : State) (die part : Nat) (w : VSlot) (uid x : Nat) : PRes State :=
  ((s.mergeNames die part w uid x).bind (fun ls =>
    let r := s.mergePieces die part w x ls
    r.2.bind (fun _ => .pure r.1))).write s die part (fun u ws =>
      match u.uwrites 9 die part 3 4 1 ws with
      | .error c => .error c
      | .ok t => .ok (t.free 32).2)

/-! ### Serving -/

/-- Run a descriptor whose version is bound: the search, side-list, compare or merge of its op. -/
def State.panpRun (s : State) (die part : Nat) (w : VSlot) (uid x : Nat) : PRes State :=
  if dfld x 0 1 ≤ 1 then s.runSearch die part w uid x
  else if dfld x 0 1 ≤ 3 then s.runSide die part w uid x
  else if dfld x 0 1 = 4 then s.runCompare die part x
  else s.runMerge die part w uid x

/-- The side entries that records would write at the tails of their rings, in the parts this Panpipe hosts: (address, bytes). -/
def State.sideAreas (s : State) (die index : Nat) (v : IVer) (rs : List PRec) : List (Nat × Nat) :=
  let p := (s.panp die).index index
  (List.range 4).flatMap (fun q =>
    let host := s.hostOf .panp die q
    if host ≠ die then []
    else (List.range (rs.countP (fun r => decide (r.list % 4 = q)))).map (fun i =>
      (v.sideBase q host + (SMap.get (fun _ => 0) p.tails q + i) % 2 ^ v.sideLog2 * v.stride, v.stride)))

/-- The output areas of a descriptor, as far as what it reads tells them (R364, R370, R372). -/
def State.panpAreas (s : State) (die : Nat) (r : URun) (x : Nat) : List (Nat × Nat) :=
  let op := dfld x 0 1
  let k := dfld x 8 2
  if op ≤ 1 then
    (s.searchJobs die (dfld x 4 2)).flatMap (fun j =>
      let n := 4 * j.1 + j.2
      [(dfld x 32 8 + n * listBytes k, listBytes k), (dfld x 40 8 + 32 * n, 32)])
  else if op = 4 then [(dfld x 40 8, 8)]
  else match s.boundAny 1 die (dfld x 2 1) r.uid with
    | none => []
    | some w =>
      if op ≤ 3 then
        (match s.sideRecords die r.part w.iver x with
         | .ok rs _ => s.sideAreas die w.id w.iver rs
         | _ => [])
      else match s.mergeNames die r.part w r.uid x with
        | .ok ls _ => (s.mergePieces die r.part w x ls).1.map (fun p => (p.1, p.2.length))
        | _ => []

/-- Fail a descriptor that has done `l`: the outputs of it and of those after it are undefined (R373). One that is refused, as a
whole, with 0x01, 0x07 or 0x08 writes nothing of its own (R361, R363, R369). -/
def State.panpFail (s : State) (die : Nat) (r : URun) (v err : Nat) (l : PLog) : State :=
  let code := errCode err
  let s0 := (s.panpDid die r.part l).noteErr die r.part err
  let s1 := (s.listDescs die r.part r.list 11 4096 (r.idx + b2n (decide (code = 1 ∨ code = 7 ∨ code = 8)))).foldl (fun t x =>
    (s.panpAreas die r x).foldl (fun u a => u.undefineOut die r.part a.1 a.2) t) s0
  let s2 := s1.setPanp die { s1.panp die with tiles := [], need := none }
  let s3 := ((s2.unitBusy .panp die 0x118 false).unitError .panp die 0x118 code 5 (dfld v 2 1 % 64)).runFail die 9 4 code
  if code = 8 then s3.raise (Blk.panp.at die die 0) 4 else s3

/-- Run a descriptor. -/
def State.panpGo (s : State) (die : Nat) (r : URun) (x : Nat) : State :=
  if panpFieldsOk x = false then s.panpFail die r x 1 {}
  else match s.boundVer 1 die (dfld x 2 1) r.uid with
    | none => s.panpFail die r x 2 {}
    | some w =>
      if dfld w.desc 12 1 ≠ r.part then s.panpFail die r x 6 {}
      else
        let s0 := s.noteIns die r.part [(r.list + 64 * r.idx, 64)]
        match s0.panpRun die r.part w r.uid x with
        | .fail c l => s0.panpFail die r x c l
        | .need a b t _ => (s.setPanp die { s.panp die with need := some (a, b, t) }).unitBusy .panp die 0x118 true
        | .ok t _ => ((t.setPanp die { t.panp die with tiles := [], need := none }).unitBusy .panp die 0x118 false).runNext die 9
            (bit (dfld x 1 1) 3)

/-- Serve the next descriptor of the Panpipe's list where it is of op `op`; a reserved op fails here. -/
def State.panpServe (s : State) (die op : Nat) : State :=
  match s.runOf die 9 with
  | none => s
  | some r =>
    if r.ended ∨ (s.panp die).need.isSome then s
    else match s.nextDesc die 3 4 r with
      | .error c => s.panpFail die r 0 c {}
      | .ok x =>
        let o := dfld x 0 1
        if (o ≤ 5 ∧ o ≠ op) ∨ (r.hold ∧ (s.panp die).tiles = []) then s else s.panpGo die r x

/-- What the descriptor in progress has done up to the tile it waits for. -/
def State.panpSoFar (s : State) (die : Nat) (r : URun) (x : Nat) : PLog :=
  match s.boundVer 1 die (dfld x 2 1) r.uid with
  | none => {}
  | some w => match s.panpRun die r.part w r.uid x with
    | .need _ _ _ l => l
    | _ => {}

/-- An entry-record tile arrives from flash (R348): the descriptor in progress goes on. -/
def State.panpTile (s : State) (die : Nat) (uncorrectable : Bool) : State :=
  match s.runOf die 9, (s.panp die).need with
  | some r, some (qi, obj, tile) =>
    (match s.nextDesc die 3 4 r with
     | .error c => s.panpFail die r 0 c {}
     | .ok x =>
       let s1 := s.panpCnt die 0x050 1
       if uncorrectable then s1.panpFail die r x 5 (s1.panpSoFar die r x)
       else
         let p := s1.panp die
         (s1.setPanp die { p with need := none, tiles := ((qi, obj, tile), s.flashBytes obj (4096 * tile) 4096) :: p.tiles }).panpGo die r x)
  | _, _ => s

/-- PANP_SEARCH (R355). -/
def execPanpSearch (die : Nat) (s : State) : Res := .next (if isChanter die then s.panpServe die 0 else s)
/-- PANP_EXACT_SEARCH (R371). -/
def execPanpExactSearch (die : Nat) (s : State) : Res := .next (if isChanter die then s.panpServe die 1 else s)
/-- PANP_INSERT (R360). -/
def execPanpInsert (die : Nat) (s : State) : Res := .next (if isChanter die then s.panpServe die 2 else s)
/-- PANP_DELETE (R360). -/
def execPanpDelete (die : Nat) (s : State) : Res := .next (if isChanter die then s.panpServe die 3 else s)
/-- PANP_COMPARE (R372). -/
def execPanpCompare (die : Nat) (s : State) : Res := .next (if isChanter die then s.panpServe die 4 else s)
/-- PANP_MERGE (R364). -/
def execPanpMerge (die : Nat) (s : State) : Res := .next (if isChanter die then s.panpServe die 5 else s)
/-- PANP_RECORD_TILE_READ (R348). -/
def execPanpRecordTileRead (die : Nat) (uncorrectable : Bool) (s : State) : Res :=
  .next (if isChanter die then s.panpTile die uncorrectable else s)
/-- PANP_VER_PUBLISH (R365, R376). -/
def execPanpVerPublish (who : Requester) (die : Nat) (value : Word) (s : State) : Res :=
  .next (s.gate who (Blk.panp.at die die 0x108) (fun s =>
    (if isChanter die then
      (s.writeAt who .panp die die 0x108 value).publishIndex die (fieldW value 21 16) (fieldW value 15 0)
    else s)))
/-- PANP_RETIRE_POP (R375). -/
def execPanpRetirePop (die : Nat) (s : State) : Res := .next (if isChanter die then s.retirePop 1 die else s)

end Sys2Proof.Machine
end

