-- ==== Sys2Proof/Machine/Models.lean ====
section
/-! DEFINITION. Model variants: swaps from flash, readiness and unloading (R248 to R252). -/
namespace Sys2Proof.Machine

/-- The model is `READY` on some online chanter (R490). -/
def State.modelAnyReady (s : State) (m : Nat) : Bool := (List.range 4).any (fun c => s.online c && decide (s.modelSt m c = 2))
/-- The model is `UNLOADING` on some chanter (R250). -/
def State.modelUnloading (s : State) (m : Nat) : Bool := (List.range 4).any (fun c => decide (s.modelSt m c = 3))

/-- Start a swap (R248, R249): an object for the copies is allocated on the online chanters of the mask that hold none, as R241 and
R239 say, and the model is `LOADING` there. Gives the status. -/
def State.swapStart (s : State) (c : HCmd) (place : Place) : Nat × State :=
  let m := c.fld 0 2
  let mask := chanterMask ((chantersOf (c.fld 2 1)).filter (fun k => s.online k && decide (s.modelSt m k = 0)))
  let size := match s.obj (c.fld 8 8) with | some o => o.size | none => 0
  let part := s.fnPart c.fn
  if mask = 0 then (0, s)
  else
    let (st, s1) := s.alloc (withMask 0x2A mask) size part c.fn place
    if st ≠ 0 then (st, s1)
    else
      let base := localOff (place.addr.getD 0)
      let s2 := s1.setModelOn m 1 (chantersOf mask)
      (0, { s2 with
        models := SMap.upd Model.blank s2.models m (fun x => { x with
          base := base, tiles := size / 4096, part := part, copies := x.copies ++ [place.id] })
        swaps := s2.swaps ++ [{ model := m, fn := c.fn, part := part, variant := c.fld 8 8, copy := place.id, mask := mask
                                base := base, tiles := size / 4096, deadline := s.breath.number + c.fld 4 4 }] })

/-- Abandon a swap: the model is `ABSENT` on its chanters, its DRAM is freed, and the host is told (R251, R252). -/
def State.swapFail (s : State) (w : Swap) (offset : Nat) : State :=
  let s1 := (s.setModelOn w.model 0 (chantersOf w.mask)).setObj w.copy none
  { s1 with
    models := SMap.upd Model.blank s1.models w.model (fun x => { x with copies := x.copies.erase w.copy })
    swaps := s1.swaps.erase w }.event w.fn 0x03 (w.model * 2 ^ 48 + offset)

/-- The swap of a model in progress. -/
def State.swapOf (s : State) (m : Nat) : Option Swap := s.swaps.find? (fun w => decide (w.model = m))

/-! ### Broadcast of a tile (R248) -/

/-- One round of forwarding: each chanter that has just received a tile sends it on in its direction, where the next one lies in the
mask and has not been sent it. -/
def swapRound (mask : Nat) (sent : List Nat) (from_ : List (Nat × Nat)) : List (Nat × Nat) :=
  (from_.map (fun p => ((p.1 + p.2) % 4, p.2))).filter (fun p => mask.testBit p.1 && !sent.contains p.1)

/-- The chanters that a tile reaches from a bellows: its served chanters of the mask, and from each of them round the ring away from
the other one. -/
def swapReach (bellows mask : Nat) : List Nat :=
  let lo := 2 * (bellows - 4)
  let r0 := [(lo, 3), (lo + 1, 1)].filter (fun p => mask.testBit p.1)
  let step (acc : List Nat × List (Nat × Nat)) : List Nat × List (Nat × Nat) :=
    let nxt := swapRound mask acc.1 acc.2
    ((acc.1 ++ nxt.map (fun p => p.1)).dedup, nxt)
  (step (step (step (r0.map (fun p => p.1), r0)))).1

/-- The drone that holds a tile of a variant (R684). -/
def State.tileDrone (s : State) (variant tile : Nat) : Nat := (unitHome ((s.flashCode variant).getD 0) tile).1

/-- A tile of the variant is read from flash once, drawing on its partition's flash regulator, and is written to every chanter of the
swap (R248, R252): those the broadcast reaches and, where no served chanter is in the mask, the others by the routes of R23 and R24. A
tile that the regulator holds back waits. An uncorrectable flash read fails the swap (R251). -/
def State.swapTile (s : State) (m tile : Nat) (uncorrectable : Bool) : State :=
  match s.swapOf m with
  | none => s
  | some w =>
    let drone := s.tileDrone w.variant tile
    if w.tiles ≤ tile ∨ SMap.get (fun _ => false) w.written tile = true then s
    else match s.bktTake drone w.part 0 4096 with
      | none => s
      | some s1 =>
        if uncorrectable || s.unitBad ((s.flashCode w.variant).getD 0) w.variant tile then s1.swapFail w (4096 * tile)
        else
          let cs := (chantersOf w.mask).filter (fun c => (swapReach (drone - 2) w.mask).contains c || s.routeUp (drone - 2) c)
          let bs := s.flashBytes w.variant (4096 * tile) 4096
          let s2 := cs.foldl (fun (t : State) c =>
            t.writePhys ((List.range 4096).map (fun i => dramPhys c (w.base + 4096 * tile + i))) bs) s1
          { s2 with swaps := s2.swaps.map (fun (x : Swap) =>
              if x = w then { x with written := SMap.set (fun _ => false) x.written tile true } else x) }

/-- Count the cycles that a tile's flash read waited on the bucket of its drone (R252, R582). -/
def State.swapWait (s : State) (m tile waited : Nat) : State :=
  match s.swapOf m with
  | none => s
  | some w => s.cntAdd .part (s.tileDrone w.variant tile) (s.tileDrone w.variant tile) 0x030 waited

/-- Every tile is written on every chanter of the swap. -/
def Swap.full (w : Swap) : Bool :=
  (List.range w.tiles).all (fun t => SMap.get (fun _ => false) w.written t)

/-- Complete the swaps whose tiles are all written: `READY`, and the host is told (R249, R672). -/
def State.modelsReady (s : State) : State :=
  (s.swaps.filter (fun w => w.full)).foldl (fun t w =>
    ({ t.setModelOn w.model 2 (chantersOf w.mask) with swaps := t.swaps.erase w }).event w.fn 0x04 (w.model * 2 ^ 48 + w.mask)) s

/-- A chanter goes offline: swaps go on to the others, and no copy on it is left (R243, R251). -/
def State.modelsOffline (s : State) (c : Nat) : State :=
  let s1 := { s with swaps := s.swaps.map (fun (w : Swap) => if w.mask.testBit c then { w with mask := w.mask - 2 ^ c } else w) }
  s1.models.foldl (fun t e => (t.setModelSt e.1 c 0).freeCopies e.1 [c]) s1

/-- A request entry or a step names the model (R249). -/
def State.modelNamed (s : State) (m : Nat) : Bool :=
  s.reqs.any (fun e => decide (e.2.state ≠ 0) && (decide (e.2.model = m) || decide (e.2.fallback = m))) ||
  s.steps.any (fun e => !e.retired && decide (e.desc.model = m))

/-- The budget in ns that the current period leaves (R52). -/
def State.budgetNow (s : State) : Nat := (s.breath.period - s.fld (Blk.brth.at 4 4 0x108) 9 0) * 1000

/-- MODEL_SWAP (R248, R669). A swap of a model that is not registered yet registers it with the predicted time of its shortest
phrase, which the planner refuses where that cannot fit the budget: `BREATH_TOO_SHORT`, whose code is not stated (R56; log entry
200). One whose DRAM cannot be had is refused as R241 and R239 say. -/
def execModelSwap (c : HCmd) (registered : Bool) (place : Place) (s : State) (phraseNs : Nat := 0) : Res :=
  .next (s.hostRun c 16 true (fun s =>
    let m := c.fld 0 2
    if registered = false then s.answer c 3 0 0
    else if s.budgetNow < phraseNs then (let (v, s1) := s.free 8; s1.answer c v 0 0)
    else
      let s1 : State := { s with models := SMap.upd Model.blank s.models m (fun x => { x with phraseNs := phraseNs }) }
      let (st, s2) := s1.swapStart c place
      s2.answer c st 0 0))

/-- SWAP_TILE_WRITTEN (R248, R251), after its flash read has waited so many cycles on its partition's bucket (R582). -/
def execSwapTileWritten (model tile : Nat) (uncorrectable : Bool) (waited : Nat) (s : State) : Res :=
  .next ((s.swapWait model tile waited).swapTile model tile uncorrectable)

/-- SWAP_TIMEOUT (R252). -/
def execSwapTimeout (model : Nat) (s : State) : Res :=
  .next (match s.swapOf model with
    | none => s
    | some w => if w.deadline < s.breath.number then s.swapFail w 0 else s)

/-- MODEL_UNLOAD (R249, R669). -/
def execModelUnload (c : HCmd) (registered : Bool) (s : State) : Res :=
  .next (s.hostRun c 8 true (fun s =>
    let m := c.fld 0 2
    if registered then
      (s.setModelOn m 3 (s.modelOn m 2)).answer c 0 0 0
    else s.answer c 3 0 0))

/-- MODEL_UNLOAD_DONE (R249): the model's DRAM is free. -/
def execModelUnloadDone (model : Nat) (s : State) : Res :=
  .next (if s.modelNamed model then s
    else (s.setModelOn model 0 (s.modelOn model 3)).freeCopies model (s.modelOn model 3))

end Sys2Proof.Machine
end

