-- ==== Sys2Proof/Machine/SessBase.lean ====
section
/-! DEFINITION. The session directory: ids, entries, turn queues, and the return of a session whose turn has ended without
a commit (R527 to R532, R543, R544). -/
namespace Sys2Proof.Machine

/-- A session that has never been. -/
def Sess.blank (_ : Nat) : Sess := {}

/-- A directory entry, by home * 2^23 + slot: the low 24 bits of an id. -/
def State.ses (s : State) (k : Nat) : Sess := SMap.get Sess.blank s.sess k

/-- The home bellows of a directory entry. -/
def sesDie (k : Nat) : Nat := 4 + k / 2 ^ 23 % 2

/-- A register of SESS_. -/
def sesA (die off : Nat) : Nat := Blk.sess.at die die off

/-- Entries of a half. -/
def State.half (s : State) (die : Nat) : SMap Sess := s.sess.filter (fun e => decide (sesDie e.1 = die))

/-- Keep SESS_OCCUPANCY, SESS_INFLIGHT, `busy` and queue_recs of a half (R563, R567). -/
def State.sesCount (s : State) (die : Nat) : State :=
  let h := s.half die
  let ops := s.sessOps.filter (fun o => o.running && decide (sesDie o.slot = die))
  let rev := ops.countP (fun o => decide (o.kind = .revive))
  let s1 := s.setReg (sesA die 0x100) (BitVec.ofNat 32 (h.countP (fun e => decide (e.2.state ≠ 0))))
  let s2 := s1.setReg (sesA die 0x104) (BitVec.ofNat 32 (rev * 2 ^ 16 + (ops.length - rev)))
  (s2.setFld (sesA die 0x00C) 31 31 (b2n (!ops.isEmpty))).setFld (sesA die 0x00C) 14 0
    (h.countP (fun e => decide (e.2.queue ≠ [])))

/-- Replace an entry. -/
def State.setSes (s : State) (k : Nat) (x : Sess) : State :=
  { s with sess := SMap.set Sess.blank s.sess k x }.sesCount (sesDie k)

/-- Change an entry. -/
def State.modSes (s : State) (k : Nat) (f : Sess → Sess) : State := s.setSes k (f (s.ses k))

/-- Replace the session operations. -/
def State.setOps (s : State) (ops : List SessOp) : State := ({ s with sessOps := ops }.sesCount 4).sesCount 5

/-- The id of a session (R527). -/
def sesId (k : Nat) (x : Sess) : Nat := x.gen * 2 ^ 24 + k

/-- The session an id names: its generation is the slot's, and the slot is not `FREE` (R527, R528). -/
def State.sesNamed (s : State) (id : Nat) : Option Nat :=
  let k := id % 2 ^ 24
  let x := s.ses k
  if id / 2 ^ 24 = 0 ∨ x.gen ≠ id / 2 ^ 24 ∨ x.state = 0 then none else some k

/-- The session has a committed image, or had one that it lost (R531, R532). -/
def Sess.hasImage (x : Sess) : Bool := decide (x.warm ≠ 0) || decide (x.cold ≠ 0) || x.damaged

/-- A turn that has started ends without a commit (R532, R547): the session keeps its image and the state from before the
turn; a turn that released a token sets rolled_back. -/
def State.sesReturn (s : State) (k : Nat) (released : Bool) : State :=
  let d := sesDie k
  let s1 := s.modSes k (fun x => { x with
    state := if x.hasImage then 3 else 1, req := 0, rolledBack := x.rolledBack || released })
  let s2 := s1.setOps (s1.sessOps.filter (fun o => decide (o.slot ≠ k)))
  if released then (s2.cntAdd .sess d d 0x058 1).raise (sesA d 0) 1 else s2

/-- The session of a turn. -/
def Req.ses (r : Req) : Nat := r.sessionId % 2 ^ 24

/-- The entry is a session turn. -/
def Req.turn (r : Req) : Bool := bit r.flags 6

/-- A turn's entry has become `CANCELLED`: a started turn gives its session back, another leaves the queue (R532, R548). -/
def State.turnOver (s : State) (i : Nat) : State :=
  let r := s.req i
  if r.turn = false then s
  else if r.started then
    (s.sesReturn r.ses r.released).modReq i (fun q => { q with started := false })
  else s.modSes r.ses (fun x => { x with queue := x.queue.filter (fun q => decide (q % 65536 ≠ i)) })

/-- Steps of a request that have been dispatched and still run (R495). -/
def State.reqRunning (s : State) (i : Nat) : Bool :=
  s.steps.any (fun e => !e.held && !e.retired && e.reqs.any (fun q => decide (q.1 = i)))

/-- A revive or a park has failed (R554). -/
def State.sesFail (s : State) (k : Nat) : State :=
  let d := sesDie k
  (s.cntAdd .sess d d 0x060 1).raise (sesA d 0) 0

/-- Chanter `c` goes offline (R557): a `WARM` image on it is lost and its session is damaged; a `DURABLE` one keeps its flash
copy. -/
def State.sesOffline (s : State) (c : Nat) : State :=
  s.sess.foldl (fun (t : State) e =>
    let x := e.2
    if x.warm = 0 ∨ x.chanter ≠ c then t
    else if x.cold = 0 then
      (t.setObj x.warm none).modSes e.1 (fun y => { y with warm := 0, damaged := true, damage := 7 })
    else
      let t1 := match t.obj x.warm with
        | some o => t.setObj x.warm (if x.warm = x.cold then some { o with addr := none } else none)
        | none => t
      t1.modSes e.1 (fun y => { y with warm := 0 })) s

end Sys2Proof.Machine
end

