-- ==== Sys2Proof/Machine/Faults.lean ====
section
/-! DEFINITION. Faults: records, the fatal state, row repair, fences and withdrawals, die quiesce, the queue of faults
that wait, and the windway links (R718 to R748, R911, R912). -/
namespace Sys2Proof.Machine

/-- The 16 bytes of a record (R722). -/
def FaultRec.bytes (r : FaultRec) : List Byte :=
  leBytes 8 r.breath ++ leBytes 1 r.die ++ leBytes 1 r.kind ++ leBytes 1 r.consort ++ leBytes 1 r.unit ++
    leBytes 1 r.action ++ leBytes 1 r.detail ++ leBytes 2 r.merged

/-! ### Self-test runs that end (R848, R852) -/

/-- A register of BIST_. -/
def bistA (die off : Nat) : Nat := Blk.bist.at die die off

/-- A run of a die's BIST controller ends with a result (R848, R858, R860, R861). -/
def State.bistEnd (s : State) (die result : Nat) : State :=
  let s1 := (((({ s with bist := SMap.set (fun _ => none) s.bist die none }.setFld (bistA die 0x00C) 31 31 0).setFld (bistA die 0x00C) 18 16
    result).cntAdd .bist die die 0x030 1).raise (bistA die 0) 0)
  (if result = 2 then (s1.cntAdd .bist die die 0x038 1).raise (bistA die 0) 1 else s1).ibi 5

/-- Abort the run of a die where it has one that the test of a consort picks (R852). -/
def State.bistAbort (s : State) (die : Nat) (f : BistRun → Bool) : State :=
  match SMap.get (fun _ => none) s.bist die with
  | some b => if f b then s.bistEnd die 4 else s
  | none => s

/-- A run touches a consort. -/
def BistRun.touches (k : Nat) (b : BistRun) : Bool := decide (b.scope ≠ 0) && decide (b.consort = k)

/-! ### Fatal (R745) -/

/-- A drone starts its flush (R708): one that is `HALTED` stays so. -/
def State.droneFlush (s : State) (d : Nat) : State :=
  let a := Blk.drone.at d d 0x00C
  if s.fld a 19 16 = 6 then s else s.setFld a 19 16 5

/-- Every enabled function logs an Uncorrectable Internal Error. -/
def State.logAer (s : State) : State :=
  (s.enabledFns 4 ++ s.enabledFns 5).foldl (fun t f => t.setFn f { t.fn f with aer := true }) s

/-- The device becomes fatal for a fault of a kind (R745, R763). -/
def State.goFatal (s : State) (r : FaultRec) : State :=
  let s1 := s.faultPost { r with action := 10 }
  if s1.isFatal then s1
  else
    let s2 := (s1.setFld (topA 0x300) 31 30 2).setFld (topA 0x300) 23 16 r.kind
    (((s2.droneFlush 6).droneFlush 7).logAer.faultInt 3).ibi 2

/-! ### Memory rows (R724 to R727) -/

/-- `ce_row` of TOP_FAULT_CFG. -/
def State.ceRow (s : State) : Nat := s.fld (topA 0x304) 11 8
/-- `ue_fence` of TOP_FAULT_CFG. -/
def State.ueFence (s : State) : Nat := s.fld (topA 0x304) 3 0

/-- Count an error of a reed or unit, by the address of its page; the number within the last 2^20 breaths (R721). -/
def State.ueCount (s : State) (key : Nat) : Nat × State :=
  let b := s.breath.number
  let l := (SMap.get (fun _ => []) s.ueSeen key).filter (fun x => decide (b < x + 2 ^ 20)) ++ [b]
  (l.length, { s with ueSeen := SMap.set (fun _ => []) s.ueSeen key l })

/-- Words of a row (offsets) that are uncorrectable, poisoned ones apart (R912). -/
def State.rowUe (s : State) (m : MemRef) (row : Nat) : List Nat :=
  ((List.range 16).map (fun w => row * 128 + 8 * w)).filter (fun off =>
    decide (eccClass (syndrome (s.flipOf (m.phys off))) = .uncorrectable))

/-- The tracked count of a row (R725). -/
def State.rowTracked (s : State) (m : MemRef) (row : Nat) : Nat :=
  match (SMap.get (fun _ => []) s.trackers (m.own (row / m.rows))).find? (fun e => decide (e.1 = row % m.rows)) with
  | some e => e.2
  | none => 0

/-- The sub-bank of a row, as a key of the spare rows used (R189, R724). -/
def MemRef.subBank (m : MemRef) (row : Nat) : Nat := m.own (row / m.rows) + 2 ^ 26 * (1 + row % 4)

/-- Read, correct and write the words of a row into its spare: an uncorrectable word is written as poison (R726). -/
def State.rowRewrite (s : State) (m : MemRef) (row : Nat) : Nat → State
  | 0 => s
  | n + 1 =>
    let t := State.rowRewrite s m row n
    let p := m.phys (row * 128 + 8 * n)
    if t.badByte p then { t with flip := SMap.set (fun _ => 0) t.flip (p / 8) poisonMask } else t.settle p

/-- Repair a row by a spare of its sub-bank (R726). -/
def State.rowSpare (s : State) (m : MemRef) (row : Nat) : State :=
  let k := m.subBank row
  let s1 := s.rowRewrite m row 16
  let s2 := { s1 with
    spareRows := SMap.upd (fun _ => 0) s1.spareRows k (fun n => n + 1)
    trackers := SMap.upd (fun _ => []) s1.trackers (m.own (row / m.rows)) (fun t => t.filter (fun e => decide (e.1 ≠ row % m.rows))) }
  match m with
  | .reed x => s2.cntAdd .cons x.die x.k 0x038 1
  | .bellows _ => s2

/-- Withdraw a bellows bank that has no spare row left; a secure one is wiped first (R727). -/
def State.bankWithdraw (s : State) (die n : Nat) : State :=
  let m := MemRef.bellows die
  let s1 := if s.bankState m n = 3 then s.zeroBank m n else s
  let s2 := (s1.setBank m n false 0 0).setHandover m n none
  { s2 with withdrawnBanks := s2.withdrawnBanks ++ [m.own n] }.secureStatus die

/-! ### The state of a consort (R755) -/

/-- CONS_STATE of a consort. -/
def consA (die k : Nat) : Nat := Blk.cons.at die k 0x100

/-- State code of a consort: 0 `ONLINE`, 1 `RECOVERING`, 2 `QUEUED`, 3 `WITHDRAWN`. -/
def State.consState (s : State) (die k : Nat) : Nat := s.fld (consA die k) 31 30

/-- Logical positions that a reed holds (R21, R755). -/
def State.activeReeds (s : State) (die k : Nat) : Nat :=
  (List.range 16).countP (fun p => (s.physOf die k p).isSome)

/-- Reeds of a consort that run a step: physical numbers. -/
def State.busyReeds (s : State) (die k : Nat) : List Nat :=
  (List.range 17).filter (fun r => (s.reed ⟨die, k, r⟩).busy)

/-- The steps that run on a consort carry `fault` (R64, R732). -/
def State.fenceSteps (s : State) (die k : Nat) : State :=
  (s.steps.filter (fun e => e.active && decide (e.desc.die = die) && e.desc.mask.testBit k)).foldl
    (fun (t : State) e => t.stepFault e.uid 0 0 0) s

/-- Stop a reed at once (R730): its part of its step is over, the step carries `fault` wherever in its run the fence comes, and
reeds that wait at a barrier for it take barrier exceptions (R64, R144). A save in progress on it fails with code 0x03 (R596). -/
def State.haltReed (s0 : State) (x : ReedRef) : State :=
  let r := s0.reed x
  let s := if r.run ≠ .idle ∧ s0.steps.any (fun e => decide (e.uid = r.step) && e.active) then s0.stepFault r.step 0 0 0 else s0
  if r.run = .running ∨ r.run = .preempted then
    let s1 := s.stepFault r.step 0 0 0
    let s2 := { s1 with steps := s1.steps.map (fun (e : Step) =>
      if e.uid = r.step ∧ e.stopping then { e with saveErr := if e.saveErr = 0 then 3 else e.saveErr } else e) }
    (s2.setReed x { s2.reed x with run := .ended, wait := .none }).breakBars 8
  else s

/-- Stop every reed of a consort; a step that runs on it carries `fault` (R732). -/
def State.haltConsort (s : State) (die k : Nat) : State :=
  (s.busyReeds die k).foldl (fun t r => t.haltReed ⟨die, k, r⟩) (s.fenceSteps die k)

/-- Consorts that a chanter offers: online and not withdrawn (R732). -/
def State.offered (s : State) (die : Nat) : Nat := (List.range 8).countP (fun k => decide (s.consState die k ≠ 3))

/-! ### TOP_FAULT_STATE (R763) -/

/-- Bring queued, open, quiescing and die of TOP_FAULT_STATE up to date. -/
def State.topFault (s : State) : State :=
  let a := topA 0x300
  let s1 := s.setFld a 12 8 s.waitFaults.length
  match s1.recov with
  | none => ((s1.setFld a 7 6 0).setFld a 2 0 0)
  | some (.window f) => ((s1.setFld a 7 6 2).setFld a 2 0 f.die)
  | some (.quiesce d _) => ((s1.setFld a 7 6 3).setFld a 2 0 d)

/-! ### Die quiesce (R736 to R741) -/

/-- Every step on a chanter stops (R736): reeds halt, and units end their lists with `fault`. -/
def State.haltDie (s : State) (die : Nat) : State :=
  let s1 := (List.range 8).foldl (fun t k => t.haltConsort die k) s
  let s2 := s1.steps.foldl (fun t e =>
    if e.desc.die = die ∧ e.held = false ∧ e.retired = false then t.stepFault e.uid 0 0 0 else t) s1
  (List.range 3).foldl (fun t i =>
    match t.runOf die (8 + i) with
    | some r => t.setRun die (8 + i) (some { r with ended := true })
    | none => t) s2

/-- Start the quiesce of a chanter. -/
def State.quiesceStart (s : State) (r : FaultRec) : State :=
  let s1 := ((s.faultPost { r with action := 5 }).haltDie r.die).bistAbort r.die (fun _ => true)
  { s1 with recov := some (.quiesce r.die 0)
            waitFaults := s1.waitFaults.filter (fun f => decide (f.die ≠ r.die)) }.topFault

/-- A fault that needs a die quiesce (R25, R741): fatal off a chanter, on a second chanter, or while another die
recovers. -/
def State.dieFault (s : State) (r : FaultRec) : State :=
  let d := r.die
  if 4 ≤ d ∨ (List.range 4).any (fun c => decide (c ≠ d) && !s.online c) then s.goFatal r
  else if s.online d = false then s.faultPost { r with action := 0 }
  else match s.recov with
    | none => s.quiesceStart r
    | some (.window f) => if f.die = d then s.quiesceStart r else s.goFatal r
    | some (.quiesce q _) => if q = d then s.faultPost { r with action := 0 } else s.goFatal r

/-- A fault finds the queue full: its chanter is quiesced, and an open window of another chanter is set back to the
front of the queue (R741; log entry 50). -/
def State.queueFull (s : State) (r : FaultRec) : State :=
  match s.recov with
  | some (.window f) =>
    if f.die = r.die then s.dieFault r
    else
      let s1 := ({ s with recov := none, waitFaults := { f with waited := true } :: s.waitFaults }).setFld (consA f.die f.k) 31 30 2
      s1.dieFault r
  | _ => s.dieFault r

/-! ### Fences and withdrawals (R730 to R735, R740) -/

/-- The record of a waiting fault. -/
def WaitFault.record (f : WaitFault) (action : Nat) : FaultRec :=
  { breath := 0, die := f.die, kind := f.kind, consort := f.k, unit := f.reed.getD 0xFF, action := action, detail := f.detail }

/-- Mark the spare of a consort bad (R734, R735). -/
def State.spareBad (s : State) (die k : Nat) : State := (s.setFld (consA die k) 25 24 2).raise (consA die k) 2

/-- Fences of the same consort that wait. -/
def State.sameWaiting (s : State) (f : WaitFault) : Nat := s.waitFaults.countP (fun g => decide (g.die = f.die ∧ g.k = f.k))

/-- A fence withdraws the consort when it finds 15 active reeds (R731): its own reed, and those of the fences that wait
behind it, count among them. -/
def State.fenceWithdraws (s : State) (f : WaitFault) : Bool :=
  decide (s.activeReeds f.die f.k + 1 + s.sameWaiting f ≤ 15)

/-- The same as it will be found once the fences that wait before it have completed, the first with the spare if it is
ready. -/
def State.fenceWillWithdraw (s : State) (f : WaitFault) : Bool :=
  decide (s.activeReeds f.die f.k + 1 + b2n (decide (s.sameWaiting f ≠ 0 ∧ s.fld (consA f.die f.k) 25 24 = 0)) ≤ 15)

/-- Stop what a fault stops at once (R730, R732, R740): the reed of a fence, which is fenced from now, or the whole
consort. -/
def State.faultStop (s : State) (f : WaitFault) : State :=
  match f.reed with
  | none => (s.haltConsort f.die f.k).bistAbort f.die (BistRun.touches f.k)
  | some r =>
    let x : ReedRef := ⟨f.die, f.k, r⟩
    let s1 := (((s.haltReed x).setFld (Blk.cons.at f.die f.k 0x104) r r 1).cntAdd .cons f.die f.k 0x030 1).bistAbort f.die
      (BistRun.touches f.k)
    let s2 := if r = 16 then s1.setFld (consA f.die f.k) 25 24 2 else s1
    if s2.fenceWillWithdraw f then s2.haltConsort f.die f.k else s2

/-- A consort-class fault: a fence or a withdrawal opens its window, waits in the queue, or escalates (R735, R740, R741). -/
def State.consortFault (s : State) (f : WaitFault) : State :=
  let bad := s.consState f.die f.k = 3 || !s.online f.die ||
    (match f.reed with | some r => s.fenced f.die f.k r | none => false)
  if bad then s.faultPost (f.record 0)
  else if f.reed = some 16 ∧ s.fld (consA f.die f.k) 25 24 ≠ 1 then
    if s.fld (consA f.die f.k) 25 24 = 0 then (s.spareBad f.die f.k).faultPost (f.record 8) else s.faultPost (f.record 0)
  else
    let s1 := s.faultStop f
    let act := if f.reed = none then 4 else 3
    let wait (t : State) : State :=
      if 16 ≤ t.waitFaults.length then t.queueFull (f.record 5)
      else
        let t1 := (t.faultPost (f.record 6)).setFld (consA f.die f.k) 31 30 2
        { t1 with waitFaults := t1.waitFaults ++ [{ f with waited := true }] }.topFault
    match s1.recov with
    | none => ({ (s1.faultPost (f.record act)).setFld (consA f.die f.k) 31 30 1 with recov := some (.window f) }).topFault
    | some (.window g) => if g.die = f.die ∧ g.k = f.k then s1.dieFault (f.record 5) else wait s1
    | some (.quiesce d _) => if d = f.die then s1.faultPost (f.record 0) else wait s1

/-- Withdraw a consort (R732): its positions hold no reed any more. A chanter that offers fewer than 4 is quiesced. -/
def State.withdraw (s : State) (f : WaitFault) : State :=
  let a := consA f.die f.k
  let s1 := ((s.haltConsort f.die f.k).setFld a 31 30 3).setFld a 20 16 0
  let s2 := if f.waited = true ∨ f.reed ≠ none then s1.faultPost (f.record 4) else s1
  let s3 := s2.raise a 1
  if s3.offered f.die < 4 then s3.dieFault (f.record 5) else s3

/-- Zero the LOCAL banks of a reed, those that a handover to LOCAL itself is draining among them (R199, R203). -/
def State.clearLocal (s : State) (x : ReedRef) : State :=
  s.zeroBanks (.reed x) ((List.range 8).filter (fun n => decide (s.bankOwner (.reed x) n = 1)))

/-- Complete a fence (R730): the spare takes the position where it is ready, and the consort is `ONLINE` again, or waits
for its next queued fault. A spare whose last test failed is not mapped (R852). -/
def State.fenceComplete (s : State) (f : WaitFault) (pos : Nat) : State :=
  let a := consA f.die f.k
  let s1 := if s.fld a 25 24 = 0 ∧ SMap.get (fun _ => true) s.spareOk (8 * f.die + f.k) = true then
      (((s.setFld a 25 24 1).setFld a 11 8 pos).clearLocal ⟨f.die, f.k, 16⟩)
    else s
  let s2 := s1.setFld a 20 16 (s1.activeReeds f.die f.k)
  let again := s2.waitFaults.any (fun g => decide (g.die = f.die ∧ g.k = f.k))
  let s3 := (s2.setFld a 31 30 (if again then 2 else 0)).raise a 0
  if f.waited then s3.faultPost (f.record 3) else s3

/-- The position that a fenced reed held: its own, or the one the spare held (R20, R755). -/
def State.fencedPos (s : State) (die k r : Nat) : Nat := if r = 16 then s.fld (consA die k) 11 8 else r

/-- Close the window of a fault (R730 to R732). -/
def State.windowClose (s : State) (f : WaitFault) : State :=
  let s1 := { s with recov := none }
  match f.reed with
  | none => s1.withdraw f
  | some r => if s1.fenceWithdraws f then s1.withdraw f else s1.fenceComplete f (s1.fencedPos f.die f.k r)

/-- Open the window of the next fault in the queue; one whose consort has been withdrawn opens none (R735, R740). -/
def State.dequeueFault (s : State) : Nat → State
  | 0 => s
  | n + 1 =>
    match s.recov, s.waitFaults with
    | none, f :: rest =>
      let s1 := { s with waitFaults := rest }
      if s1.consState f.die f.k = 3 ∨ s1.online f.die = false then State.dequeueFault (s1.faultPost (f.record 0)) n
      else ({ s1.setFld (consA f.die f.k) 31 30 1 with recov := some (.window f) }).topFault
    | _, _ => s

/-- An image of a step on `die` lies, wholly or in part, in the DRAM of chanter `c`. -/
def imageOn (die c a : Nat) : Bool :=
  if a < 4 * chanterBytes then decide (a / chanterBytes = c)
  else if ownBase ≤ a ∧ a < ownBase + chanterBytes then decide (die = c)
  else decide (ilvBase ≤ a ∧ a < sramBase)

/-- Images that a chanter going offline holds are lost, and the requests of their steps are recovered (R596). -/
def State.loseImages (s : State) (c : Nat) : State :=
  (s.steps.filter (fun e => e.preempted && e.retired && !e.completed && e.images.any (fun a => imageOn e.desc.die c a))).foldl
    (fun (t : State) e => e.reqs.foldl (fun (u : State) q => u.reqOutcome q.1 e.uid 0 0 0)
      { t with steps := t.steps.map (fun (f : Step) => if f.uid = e.uid then { f with completed := true } else f) }) s

/-- A chanter goes offline (R736): its tier, objects, versions, models and long requests are handled, and the device is
`DEGRADED`. -/
def State.goOffline (s : State) (c : Nat) : State :=
  let s1 := ((s.rehostTables c).rehostLists c).setFld (topA 0x204) c c 0
  let s2 := ((((((s1.tongueOffline c).loseImages c).sesOffline c).loseObjects c).verOffline 0 c).verOffline 1 c).modelsOffline c
  let s3 := if s2.isFatal then s2 else s2.setFld (topA 0x300) 31 30 1
  let s4 := { s3 with
    drones := s3.drones.map (fun (e : Nat × Drone) => (e.1, { e.2 with frames := e.2.frames.filter (fun f => decide (f.slot % 4 ≠ c)) })) }
  s4.reqs.foldl (fun (t : State) (e : Nat × Req) =>
    if e.2.live ∧ 786432 < e.2.length then t.reqOutcome e.1 0 5 9 2 else t) s4

/-- One edge or recovery point of a die quiesce (R736, R911). -/
def State.recoverQuiesce (s : State) : State :=
  match s.recov with
  | some (.quiesce d p) =>
    if p = 0 then ({ s with recov := some (.quiesce d 1) }.goOffline d).topFault
    else if p = 1 then { s with recov := some (.quiesce d 2) }
    else ({ s with recov := none }.faultInt 2).topFault
  | _ => s

/-- Close the open window, and then those of the faults that wait, one after the other (R730, R740 and its example). -/
def State.recoverWindows (s : State) : Nat → State
  | 0 => s
  | n + 1 =>
    match s.recov with
    | none => if s.waitFaults = [] then s else State.recoverWindows (s.dequeueFault 17) n
    | some (.window f) => State.recoverWindows ((s.windowClose f).dequeueFault 17) n
    | some (.quiesce _ _) => s

/-- One recovery point (R911). -/
def State.recoverPoint (s : State) : State := ((s.recoverQuiesce).recoverWindows 18).topFault

/-- The units of a chanter whose storage fails (R721 kind 0x04): the pages of Serpent, Panpipe and Piccolo. -/
def unitBlk : Nat → Blk
  | 8 => .serp
  | 9 => .panp
  | _ => .picc

/-! ### The commands -/

/-- ROW_REPAIR (R725 to R727, R912): a row with an uncorrectable word or with `ce_row` corrected words. Uncorrectable words
of a reed count toward its fence (R721). -/
def execRowRepair (m : MemRef) (row : Nat) (s : State) : Res :=
  let ues := s.rowUe m row
  let ce := decide (s.ceRow ≤ s.rowTracked m row)
  let kind := if ues = [] then 2 else 1
  let spare := decide (SMap.get (fun _ => 0) s.spareRows (m.subBank row) < 4)
  .next (if m.banks * m.rows ≤ row ∨ (ues = [] ∧ ce = false) then s
    else match m with
      | .reed x =>
        let page := Blk.reed.at x.die (17 * x.k + x.r) 0
        let (n, s1) := ues.foldl (fun (acc : Nat × State) _ => acc.2.ueCount page) (0, s)
        let rec1 (a : Nat) : FaultRec := { breath := 0, die := x.die, kind := kind, consort := x.k, unit := x.r, action := a }
        let s2 := if spare then (s1.rowSpare m row).faultPost (rec1 2) else s1
        if spare = false ∨ s2.ueFence ≤ n then s2.consortFault { die := x.die, k := x.k, reed := some x.r, kind := kind } else s2
      | .bellows d =>
        let rec1 (a : Nat) : FaultRec := { breath := 0, die := d, kind := kind, action := a }
        if spare then (s.rowSpare m row).faultPost (rec1 2)
        else (s.bankWithdraw d (row / m.rows)).faultPost (rec1 11))

/-- DRAM_ROW_REPAIR (R721 kind 0x05, R729): a row of a stack, given by its chanter-local granules; `spare` tells whether
the bank holds a spare. Where it does, the row is repaired and its uncorrectable words become poison. Where it does not,
the granules are withheld and unbound objects on them move to the addresses that the runtime gives. -/
def execDramRowRepair (die stack bankNo : Nat) (granules : List Nat) (spare uncorrectable : Bool) (moves : List (Nat × Nat))
    (s : State) : Res :=
  let page := Blk.hbm.at die stack 0
  let rec1 (a : Nat) : FaultRec := { breath := 0, die := die, kind := if uncorrectable then 5 else 2, action := a }
  let word (t : State) (p : Nat) : State :=
    if t.badByte p then { t with flip := SMap.set (fun _ => 0) t.flip (p / 8) poisonMask } else t
  let phys (g : Nat) : Nat := dramPhys die (g / 4096 * 4096)
  let key := 2 ^ 16 * (3 * die + stack) + bankNo
  .next (if 4 ≤ die ∨ 3 ≤ stack then s
    else if spare then
      let s1 := granules.foldl (fun t g => (t.flip.filter (fun e => decide (phys g ≤ 8 * e.1 ∧ 8 * e.1 < phys g + 4096))).foldl
        (fun u e => word u (8 * e.1)) t) s
      (({ s1 with dramSpare := SMap.upd (fun _ => 0) s1.dramSpare key (fun n => n + 2) }.cntAdd .hbm die stack 0x040 1).raise page 1).faultPost (rec1 12)
    else
      let seen := SMap.get (fun _ => 0) s.dramSpare key % 2
      let s1 := { s with
        withheld := s.withheld ++ (granules.map (fun g => die * chanterBytes + g / 4096 * 4096)).filter (fun p => !s.withheld.contains p)
        dramSpare := SMap.upd (fun _ => 0) s.dramSpare key (fun n => n / 2 * 2 + 1) }
      let s2 := if seen = 1 then s1 else s1.setReg (inPage page 0x104) (BitVec.ofNat 32 (min (s1.fld (inPage page 0x104) 15 0 + 1) 65535))
      moves.foldl (fun t mv => match t.obj mv.1 with
        | some o =>
          if t.isBound mv.1 ∨ t.homeOk o.flags o.size o.part mv.2 = false ∨ t.spaceFree o.flags o.size mv.2 = false ∨
              t.copiesEqual o = false then t
          else ((t.noteWords (t.objPhys o)).fillObj o.flags o.size mv.2 (t.contents o) (t.badWords o)).setObj mv.1 (some { o with addr := some mv.2 })
        | none => t) (s2.faultPost (rec1 0)))

/-- REED_FENCE (R721, R730): a fault of consort class is found. Kind 0x03 (parity of an accumulator or a stationary register)
stops the reading instruction with a data fault and fences the reed at `ue_fence` errors; kind 0x04 is an error in the
store of the consort's Horn and withdraws the consort at `ue_fence` errors; kinds 0x0A and 0x0B withdraw the consort. -/
def execReedFence (x : ReedRef) (kind detail : Nat) (s : State) : Res :=
  let rec1 : FaultRec := { breath := 0, die := x.die, kind := kind, consort := x.k, unit := x.r, action := 1, detail := detail }
  .next (if 4 ≤ x.die ∨ 8 ≤ x.k ∨ 17 ≤ x.r then s
    else if kind = 3 then
      let s1 := if (s.reed x).run = .running then s.reedExc x 0x07 0 0 else s
      let (n, s2) := s1.ueCount (Blk.reed.at x.die (17 * x.k + x.r) 0)
      if s2.ueFence ≤ n then s2.consortFault { die := x.die, k := x.k, reed := some x.r, kind := 3, detail := detail }
      else s2.faultPost rec1
    else if kind = 4 then
      let (n, s1) := s.ueCount (Blk.horn.at x.die x.k 0)
      if s1.ueFence ≤ n then s1.consortFault { die := x.die, k := x.k, reed := none, kind := 4, detail := detail }
      else s1.faultPost { rec1 with unit := 0xFF }
    else if kind = 0x0A ∨ kind = 0x0B then s.consortFault { die := x.die, k := x.k, reed := none, kind := kind, detail := detail }
    else s)

/-- CONS_FENCE (R735). -/
def execConsFence (who : Requester) (die k : Nat) (value : Word) (s : State) : Res :=
  let r := fieldW value 4 0
  let s0 := s.writeAt who .cons die k 0x108 value
  .next (s.gate who (Blk.cons.at die k 0x108) (fun s =>
    (if 4 ≤ die ∨ 8 ≤ k then s
    else if value.getLsbD 31 = false then s0
    else if 17 ≤ r then s0.refuseAt who .cons die k 0x108
    else s0.consortFault { die := die, k := k, reed := some r, kind := 0x11 })))

/-- DIE_QUIESCE (R721, R736, R741): a fault of die class is found. Kind 0x04 is an error in the store of a unit: 8 Serpent, 9
Panpipe, 10 Piccolo (a quiesce at `ue_fence` errors), or any unit of a bellows (fatal then). Kind 0x12 during a window
quiesces the window's chanter. Kind 0x06 marks a stack as failed. -/
def execDieQuiesce (die kind unit detail : Nat) (s : State) : Res :=
  let rec1 : FaultRec := { breath := 0, die := die, kind := kind, action := 1, detail := detail }
  .next (if 8 ≤ die then s
    else if kind = 4 then
      let page := if die < 4 then (unitBlk unit).at die die 0 else Blk.mgmt.at die die unit
      let (n, s1) := s.ueCount page
      if s1.ueFence ≤ n then s1.dieFault rec1 else s1.faultPost rec1
    else if kind = 6 ∧ die < 4 then
      (if unit < 3 then s.setFld (Blk.hbm.at die unit 0x100) 29 29 1 else s).dieFault rec1
    else if kind = 0x12 then
      (match s.recov with
       | some (.window f) => s.dieFault { rec1 with die := f.die }
       | _ => s.dieFault rec1)
    else s)

/-! ### The windway (R720, R742) -/

/-- The record of a link fault. -/
def linkRec (link kind action : Nat) : FaultRec :=
  { breath := 0, die := max (linkEnds link).1 (linkEnds link).2, kind := kind, action := action, detail := link }

/-- A link is down (R742): serve links quiesce their chanter, ring links the one with the higher slot, hub and drone
links make the device fatal. -/
def State.linkDown (s : State) (link kind : Nat) : State :=
  let s1 := { s with linksDown := if s.linksDown.contains link then s.linksDown else s.linksDown ++ [link] }
  let (a, b) := linkEnds link
  let s2 := (s1.raise (Blk.wway.at a a 0) 2).raise (Blk.wway.at b b 0) 2
  if link < 4 then s2.dieFault { linkRec link kind 5 with die := max a b }
  else if link < 8 then s2.dieFault { linkRec link kind 5 with die := b }
  else s2.goFatal (linkRec link kind 10)

/-- Replay data of a link: failures of the flit in hand, replays in this breath and in the last one. -/
def State.replay (s : State) (link : Nat) : Nat × Nat × Nat := SMap.get (fun _ => (0, 0, 0)) s.linkReplay link

/-- FLIT_REPLAY (R720): a flit that end `far` of a link received with a CRC failure or an uncorrectable word is sent again. -/
def execFlitReplay (link : Nat) (far : Bool) (s : State) : Res :=
  let (a, b) := linkEnds link
  let src := if far then a else b
  let dst := if far then b else a
  let (f, n, l) := s.replay link
  .next (if 11 ≤ link ∨ 8 ≤ f ∨ s.linksDown.contains link then s
    else
      let s1 := { s with linkReplay := SMap.set (fun _ => (0, 0, 0)) s.linkReplay link (f + 1, min (n + 1) 65535, l) }
      ((s1.cntAdd .wway src src 0x038 1).cntAdd .wway dst dst 0x050 1).raise (Blk.wway.at dst dst 0) 0)

/-- Retrains of a link in the last 1,024 breaths. -/
def State.retrainsOf (s : State) (link : Nat) : List Nat :=
  (SMap.get (fun _ => []) s.retrains link).filter (fun b => decide (s.breath.number < b + 1024))

/-- LINK_RETRAIN (R720, R742): after the eighth failure; the third retrain within 1,024 breaths takes the link down. -/
def execLinkRetrain (link : Nat) (s : State) : Res :=
  let (a, b) := linkEnds link
  let (f, n, l) := s.replay link
  let rs := s.retrainsOf link ++ [s.breath.number]
  .next (if 11 ≤ link ∨ f < 8 ∨ s.linksDown.contains link then s
    else
      let s1 := { s with
        retrains := SMap.set (fun _ => []) s.retrains link rs
        linkReplay := SMap.set (fun _ => (0, 0, 0)) s.linkReplay link (0, n, l) }
      let s2 := (((s1.cntAdd .wway a a 0x040 1).cntAdd .wway b b 0x040 1).raise (Blk.wway.at a a 0) 1).raise (Blk.wway.at b b 0) 1
      if 3 ≤ rs.length then s2.linkDown link 7 else s2)

/-- REED_WATCHDOG (R721 kind 0x09): a pre-emption request that a reed has not taken within 1,200 cycles. -/
def execReedWatchdog (x : ReedRef) (s : State) : Res :=
  let asked := s.steps.any (fun e => decide (e.uid = (s.reed x).step) && e.stopping)
  .next (if (s.reed x).run = .running ∧ asked then
      s.consortFault { die := x.die, k := x.k, reed := some x.r, kind := 9 } else s)

/-- SPARE_SELF_TEST (R734): at power-on and every 2^20 breaths, for a spare that holds no position and is not bad. -/
def execSpareSelfTest (die k : Nat) (passed : Bool) (s : State) : Res :=
  .next (if 4 ≤ die ∨ 8 ≤ k ∨ s.breath.number % 2 ^ 20 ≠ 0 ∨ s.fld (consA die k) 25 24 ≠ 0 then s
    else
      let s1 := { s with spareOk := SMap.set (fun _ => true) s.spareOk (8 * die + k) passed }
      if passed then s1
      else (s1.spareBad die k).faultPost { breath := 0, die := die, kind := 0x0D, consort := k, unit := 16, action := 8 })

/-- FIRMWARE_RESTART (R664, R743): firmware restarts by itself, or because a Fife core is faulty (kind 0x0F): the core is
fenced, and a bellows with fewer than 4 cores left is fatal. -/
def execFirmwareRestart (die : Nat) (core : Option Nat) (s : State) : Res :=
  .next (if isBellows die = false then s
    else match core with
      | none => s.firmwareRestart die
      | some c =>
        if 8 ≤ c ∨ s.coresOut.contains (die, c) = true then s
        else
          let r : FaultRec := { breath := 0, die := die, kind := 0x0F, unit := c, action := 9 }
          let s1 : State := { s with
            coresOut := s.coresOut ++ [(die, c)]
            sec := { s.sec with secure := s.sec.secure.filter (fun x => decide (x ≠ 8 * die + c)) } }
          if 5 ≤ s1.coresOut.countP (fun x => decide (x.1 = die)) then s1.goFatal r
          else (s1.faultPost r).firmwareRestart die)

/-- PROTECTION_PARITY_ERROR (R721 kind 0x0E). -/
def execProtectionParityError (die : Nat) (s : State) : Res :=
  .next (if 8 ≤ die then s else s.goFatal { breath := 0, die := die, kind := 0x0E })

/-- BELLOWS_LOGIC_FAULT (R744): a fault in bellows or drone logic. The spec names no kind for it: a free value. -/
def execBellowsLogicFault (die : Nat) (s : State) : Res :=
  .next (if die < 4 ∨ 8 ≤ die then s
    else let (k, s1) := s.free 8; s1.goFatal { breath := 0, die := die, kind := k })

/-- TOP_FAULT_POP3 (R762): a read takes the oldest record away. -/
def execTopFaultPop3 (s : State) : Res :=
  .next (match s.faults with
    | [] => { s with readData := 0 }
    | r :: rest => { s with faults := rest, readData := leOf (r.bytes.drop 12) })

end Sys2Proof.Machine
end

