-- ==== Sys2Proof/Machine/Clock.lean ====
section
/-! DEFINITION. Consort clocks and voltages: ageing measurements and plans (R749 to R753), the power cap (R807 to R809), the
thermal throttle (R810) and the regulator handshake (R799, R901). -/
namespace Sys2Proof.Machine

/-- A register of EMB_ on a die. -/
def embA (die off : Nat) : Nat := Blk.emb.at die die off
/-- A register of PWR_ on a die. -/
def pwrA (die off : Nat) : Nat := Blk.pwr.at die die off

/-! ### Ageing (R750) -/

/-- The fused voltages in mV (R750). -/
def fusedMv : List Nat := (List.range 16).map (fun n => 550 + 20 * n)

/-- Twenty times the interpolated time-zero delay of a monitor at `v` mV (R750). -/
def monBase20 (die m v : Nat) : Nat :=
  let i := (v - 550) / 20
  let r := (v - 550) % 20
  Config.fusedMonitor die m i * (20 - r) + (if r = 0 then 0 else Config.fusedMonitor die m (i + 1) * r)

/-- The ageing of a monitor in ppm that a delay of `d` ps shows (R750). -/
def monAge (die m v d : Nat) : Nat := 20 * d * 1000000 / monBase20 die m v - 1000000

/-- Clock code and mV in force for a consort. -/
def State.oppOf (s : State) (die k : Nat) : Nat × Nat := SMap.get (fun _ => (8, 750)) s.pwr.opp (8 * die + k)

/-- Replace them. -/
def State.setOpp (s : State) (die k : Nat) (p : Nat × Nat) : State :=
  { s with pwr := { s.pwr with opp := SMap.set (fun _ => (8, 750)) s.pwr.opp (8 * die + k) p } }

/-- Raise an ageing register, which the health record then holds (R750, R758). -/
def State.raiseAge (s : State) (a v : Nat) : State :=
  let w := max (s.reg a).toNat (min v (2 ^ 32 - 1))
  let s1 := s.setReg a (BitVec.ofNat 32 w)
  { s1 with healthAge := SMap.set (fun _ => 0) s1.healthAge a w }

/-- The clock ceiling (R808, R828). -/
def State.cCap (s : State) : Nat := s.fld (pwrA 4 0x108) 3 0

/-- The clock of code `c` in MHz (R760). -/
def codeMhz (c : Nat) : Nat := 1200 + 50 * c

/-- The lowest fused voltage at which an aged critical path meets a code (R751). -/
def State.mvFor (s : State) (die k c : Nat) : Option Nat :=
  let a := (s.reg (embA die (0x140 + 4 * k))).toNat
  let guard := s.fld (embA die 0x100) 7 0
  fusedMv.find? (fun v => decide ((Config.fusedPath die k v * (1000000 + a) + guard * 1000000) * codeMhz c ≤ 1000000 * 1000000))

/-- The point planned for a consort: the highest code up to `c`, and up to the ceiling, that some voltage admits (R751). -/
def State.planPoint (s : State) (die k : Nat) : Nat → Option (Nat × Nat)
  | 0 => (s.mvFor die k 0).map (fun v => (0, v))
  | c + 1 =>
    match (if c + 1 ≤ s.cCap then s.mvFor die k (c + 1) else none) with
    | some v => some (c + 1, v)
    | none => State.planPoint s die k c

/-- Plan one consort after a measurement (R751): its point waits for the next edge, or it is withdrawn. -/
def State.planConsort (s : State) (die k : Nat) : State :=
  let a := embA die (0x120 + 4 * k)
  if s.withdrawn die k then s
  else match s.planPoint die k (s.fld (embA die 0x100) 19 16) with
    | some p =>
      let s1 := ((s.setFld a 31 31 0).setFld a 27 24 p.1).setFld a 9 0 p.2
      { s1 with pwr := { s1.pwr with raise := SMap.set (fun _ => none) s1.pwr.raise (8 * die + k) (some p) } }
    | none =>
      ((s.setFld a 31 31 1).raise (embA die 0) 2).consortFault { die := die, k := k, reed := none, kind := 0x0B }

/-- The margin of a bellows or drone die (R753). -/
def State.dieMargin (s : State) (die : Nat) : State :=
  let age := (s.reg (embA die 0x104)).toNat
  let guard := s.fld (embA die 0x100) 7 0
  let need := Config.fusedPath die 0 750 * (1000000 + age) + guard * 1000000
  let s1 := if (Config.diePeriod die - 2 * guard) * 1000000 < need then s.raise (embA die 0) 3 else s
  if Config.diePeriod die * 1000000 < need then (s1.raise (embA die 0) 2).goFatal { breath := 0, die := die, kind := 0x0B } else s1

/-- The voltage that a chanter asks its regulator for: 25 mV above the highest `mv`, planned or in force, of its consorts (R799). -/
def State.avsWant (s : State) (c : Nat) : Nat :=
  ((List.range 8).filter (fun k => !s.withdrawn c k)).foldl (fun m k =>
    max m (max (s.oppOf c k).2 (match SMap.get (fun _ => none) s.pwr.raise (8 * c + k) with
      | some p => p.2
      | none => 0))) 0 + 25

/-- The voltage that a chanter requests at present, 775 mV at reset. -/
def State.avsNow (s : State) (c : Nat) : Nat := SMap.get (fun _ => 775) s.pwr.avs c

/-- A chanter's request follows its plan (R799); a higher one is yet to be acknowledged. -/
def State.avsSet (s : State) (c : Nat) : State :=
  { s with pwr := { s.pwr with
      avs := SMap.set (fun _ => 775) s.pwr.avs c (s.avsWant c)
      acked := if s.avsNow c < s.avsWant c then s.pwr.acked.filter (fun x => decide (x ≠ c)) else s.pwr.acked } }

/-- One measurement of a die: the delays of its 64 monitors in ps (R749 to R753). -/
def State.measure (s : State) (die : Nat) (delays : List Nat) : State :=
  let volt (m : Nat) : Nat := if die < 4 then (s.oppOf die (m / 8)).2 else 750
  let s1 := (List.range 64).foldl (fun (t : State) m =>
    let d := delays.getD m 0
    let a := monAge die m (volt m) d
    let t1 := { t with monDelay := SMap.set (fun _ => 0) t.monDelay (64 * die + m) d }
    let t2 := if die < 4 then t1.raiseAge (embA die (0x140 + 4 * (m / 8))) a else t1
    t2.raiseAge (embA die 0x104) a) s
  let b := s1.breath.number
  let s2 := ((s1.cntAdd .emb die die 0x030 1).raise (embA die 0) 0).setReg (embA die 0x108) (BitVec.ofNat 32 b)
  let s3 := s2.setReg (embA die 0x10C) (BitVec.ofNat 32 (b / 2 ^ 32))
  if die < 4 then ((List.range 8).foldl (fun (t : State) k => t.planConsort die k) s3).avsSet die else s3.dieMargin die

/-- EMB_MEASURE (R749): at the edge of every 2^20th breath, while `enable` is set. -/
def execEmbMeasure (die : Nat) (delays : List Nat) (s : State) : Res :=
  .next (if 8 ≤ die ∨ s.breath.number = 0 ∨ s.breath.number % 2 ^ 20 ≠ 0 ∨ s.rbit (embA die 0x008) 0 = false then s
    else s.measure die delays)

/-- MEASURE_NOW: a write of EMB_CTRL (R749, R757). -/
def execMeasureNow (who : Requester) (die : Nat) (value : Word) (delays : List Nat) (s : State) : Res :=
  let s1 := s.writeAt who .emb die die 0x008 value
  .next (s.gate who (embA die 0x008) (fun s =>
    (if 8 ≤ die then s else if value.getLsbD 1 then s1.measure die delays else s1)))

/-- MONITOR_ALARM (R752): a monitor's delay crosses the period less `alarm_ps`. -/
def execMonitorAlarm (die m : Nat) (delays : List Nat) (s : State) : Res :=
  .next (if 8 ≤ die ∨ 64 ≤ m then s
    else
      let s1 := (s.cntAdd .emb die die 0x038 1).raise (embA die 0) 1
      let key := 8 * die + m / 8
      let s2 := if die < 4 ∧ s1.pwr.lower.contains key = false then
          { s1 with pwr := { s1.pwr with lower := s1.pwr.lower ++ [key] } } else s1
      let s3 := s2.faultPost { breath := 0, die := die, kind := 0x0C, consort := if die < 4 then m / 8 else 0xFF,
                               action := if die < 4 then 7 else 0, detail := m }
      s3.measure die delays)

/-! ### The regulators (R799, R901) -/

/-- AVS_ACK (R799): a chanter's regulator acknowledges the voltage it was asked for. -/
def execAvsAck (chanter : Nat) (s : State) : Res :=
  .next (if 4 ≤ chanter ∨ s.pwr.acked.contains chanter then s
    else { s with pwr := { s.pwr with acked := s.pwr.acked ++ [chanter] } })

/-- AVS_TIMEOUT (R901): no acknowledgement within 1 ms, so no clock of the chanter rises; the next measurement asks again. -/
def execAvsTimeout (chanter : Nat) (s : State) : Res :=
  .next (if 4 ≤ chanter ∨ s.pwr.acked.contains chanter then s
    else { s with pwr := { s.pwr with raise := s.pwr.raise.filter (fun e =>
      match e.2 with
      | some p => decide (e.1 / 8 ≠ chanter) || decide (p.1 ≤ (s.oppOf chanter (e.1 % 8)).1)
      | none => false) } })

/-- The point of one consort at an edge: a lower one takes effect, a higher one once it is acknowledged; an alarm lowers it
by 2 codes (R752, R799). -/
def State.oppEdge (s : State) (c k : Nat) : State :=
  let key := 8 * c + k
  let cur := s.oppOf c k
  let s1 := match SMap.get (fun _ => none) s.pwr.raise key with
    | none => s
    | some p =>
      if p.1 ≤ cur.1 ∨ s.pwr.acked.contains c = true then
        let t := s.setOpp c k p
        { t with pwr := { t.pwr with raise := SMap.set (fun _ => none) t.pwr.raise key none } }
      else s
  if s1.pwr.lower.contains key then
    let code := (s1.oppOf c k).1 - 2
    s1.setOpp c k (code, ((s1.mvFor c k code).getD (s1.oppOf c k).2))
  else s1

/-- What a consort runs at: the lowest of its planned code, the ceiling as the last edge left it and the thermal code (R63, R808,
R810), at the lowest voltage that admits it. -/
def State.consortPoint (s : State) (c k : Nat) : Nat × Nat :=
  let p := s.oppOf c k
  let code := if s.pwr.hot.contains c then 0 else min p.1 s.pwr.capNow
  if code = p.1 then p else (code, (s.mvFor c k code).getD p.2)

/-! ### The cap and the throttle (R807 to R810) -/

/-- The throttle of a bellows or drone junction acts on the ceiling. -/
def State.hubActs (s : State) : Bool := s.pwr.hubHot

/-- The power cap at an edge (R807 to R809). -/
def State.capEdge (s : State) (avg : Nat) : State :=
  let st := pwrA 4 0x108
  let cap := s.fld (pwrA 4 0x100) 10 0
  let hyst := s.fld (pwrA 4 0x100) 23 16
  let c := s.cCap
  let s1 := s.setReg (pwrA 4 0x104) (BitVec.ofNat 32 (min avg 65535))
  if cap < avg then
    let s2 := { s1 with pwr := { s1.pwr with below := 0 } }
    if 0 < c then (s2.setFld st 3 0 (c - 1)).cntAdd .pwr 4 4 0x030 1
    else
      let s3 := if s2.rbit st 9 then s2 else (s2.setFld st 9 9 1).raise (pwrA 4 0) 0
      { s3 with pwr := { s3.pwr with fewer := min (s3.pwr.fewer + 1) 4 } }
  else if avg < cap - hyst then
    let s2 := { s1 with pwr := { s1.pwr with below := min (s1.pwr.below + 1) 8, fewer := s1.pwr.fewer - 1 } }
    if s2.pwr.fewer = 0 then s2.setFld st 9 9 0 else s2
  else { s1 with pwr := { s1.pwr with below := 0 } }

/-- The thermal throttle at an edge (R810): released when every junction is below 95 °C; a bellows or drone junction takes
the ceiling to 0. -/
def State.thermalEdge (s : State) (cool : List Nat) : State :=
  let st := pwrA 4 0x108
  if s.pwr.hot = [] ∧ s.pwr.hubHot = false then s
  else if (List.range 8).all (fun d => cool.contains d) then
    (List.range 8).foldl (fun (t : State) d => t.setFld (pwrA d 0x108) 8 8 0) { s with pwr := { s.pwr with hot := [], hubHot := false } }
  else if s.pwr.hubHot then
    let s1 := if 0 < s.cCap then (s.setFld st 3 0 0).cntAdd .pwr 4 4 0x030 1 else s
    { s1 with steps := s1.steps.map (fun (e : Step) => if e.active && decide (e.desc.die < 4) then { e with throttled := true } else e) }
  else s

/-- What an edge does to clocks (R63, R752, R799, R807 to R810). -/
def State.clockEdge (s : State) (avg : Nat) (cool : List Nat) : State :=
  let s1 := (s.capEdge avg).thermalEdge cool
  let s2 := (List.range 4).foldl (fun (t : State) c => (List.range 8).foldl (fun (u : State) k => u.oppEdge c k) t) s1
  let s3 : State := { s2 with pwr := { s2.pwr with lower := [], acked := [], capNow := s2.cCap } }
  (List.range 4).foldl (fun (t : State) c => t.avsSet c) s3

/-- CAP_RAISE (R808): the draw has stayed below the cap less the hysteresis for 8 edges. The consort clocks follow at the next
edge (R63). -/
def execCapRaise (s : State) : Res :=
  .next (if s.pwr.below < 8 ∨ s.pwr.hubHot then s
    else { s with pwr := { s.pwr with below := 7 } }.setFld (pwrA 4 0x108) 3 0 (min (s.cCap + 1) 12))

/-- THERMAL_THROTTLE (R810): a junction reaches 100 °C, at `tj` °C. -/
def execThermalThrottle (die tj : Nat) (s : State) : Res :=
  .next (if 8 ≤ die then s
    else
      let mark (t : State) (d : Nat) : State := (t.setFld (pwrA d 0x108) 8 8 1).setFld (pwrA d 0x108) 31 24 (min tj 255)
      let s1 := (((mark (mark s die) 4).cntAdd .pwr die die 0x038 1).raise (pwrA die 0) 1).ibi 4
      if die < 4 then
        { s1 with
          pwr := { s1.pwr with hot := if s1.pwr.hot.contains die then s1.pwr.hot else s1.pwr.hot ++ [die] }
          steps := s1.steps.map (fun (e : Step) => if e.active && decide (e.desc.die = die) then { e with throttled := true } else e) }
      else { s1 with pwr := { s1.pwr with hubHot := true } })

/-- THERMAL_TRIP (R721 kind 0x13): a junction reaches 105 °C. -/
def execThermalTrip (die : Nat) (s : State) : Res :=
  .next (if 8 ≤ die then s else s.goFatal { breath := 0, die := die, kind := 0x13 })

end Sys2Proof.Machine
end

