-- ==== Sys2Proof/Machine/VFn.lean ====
section
/-! DEFINITION. The functions of VFN (R126, R169, R178), correctly rounded: an enclosing interval of the exact value is
computed in integers at a working precision, both ends are rounded, and the precision is doubled until they agree. -/
namespace Sys2Proof.Machine

/-- Floor of the square root, by bits from bit `k` down. -/
def isqrtFrom (n : Nat) : Nat → Nat → Nat
  | 0, r => r
  | k + 1, r => if (r + 2 ^ k) * (r + 2 ^ k) ≤ n then isqrtFrom n k (r + 2 ^ k) else isqrtFrom n k r

/-- Floor of the square root. -/
def isqrt (n : Nat) : Nat := isqrtFrom n (Nat.log2 n / 2 + 1) 0

/-- An interval of reals with common scale: [lo, hi] / 2^p, of values that are not negative. -/
structure Iv where
  lo : Nat
  hi : Nat
  deriving DecidableEq, Repr

/-- Product of intervals at scale `p`. -/
def Iv.mul (p : Nat) (a b : Iv) : Iv := ⟨a.lo * b.lo / 2 ^ p, a.hi * b.hi / 2 ^ p + 1⟩
/-- Sum. -/
def Iv.add (a b : Iv) : Iv := ⟨a.lo + b.lo, a.hi + b.hi⟩
/-- Difference, of an interval that is not below the other. -/
def Iv.sub (a b : Iv) : Iv := ⟨a.lo - b.hi, a.hi - b.lo⟩
/-- Quotient by a number. -/
def Iv.divN (a : Iv) (n : Nat) : Iv := ⟨a.lo / n, a.hi / n + 1⟩
/-- Quotient of intervals at scale `p`. -/
def Iv.div (p : Nat) (a b : Iv) : Iv := ⟨a.lo * 2 ^ p / (b.hi + 1), a.hi * 2 ^ p / b.lo + 1⟩
/-- A rational `n / d` at scale `p`. -/
def Iv.rat (p n d : Nat) : Iv := ⟨n * 2 ^ p / d, n * 2 ^ p / d + 1⟩
/-- One, exactly. -/
def Iv.one (p : Nat) : Iv := ⟨2 ^ p, 2 ^ p⟩

/-- Terms of the exponential series from term `n`: `t` is the last term added. The remainder after the last term is below
that term while the argument is at most one. -/
def expTerms (p : Nat) (x : Iv) : Nat → Nat → Iv → Iv → Iv
  | 0, _, t, acc => ⟨acc.lo, acc.hi + t.hi + 1⟩
  | fuel + 1, n, t, acc =>
    let t' := (Iv.mul p t x).divN n
    if t'.hi ≤ 2 then ⟨acc.lo, acc.hi + 2 * t'.hi + 2⟩
    else expTerms p x fuel (n + 1) t' (acc.add t')

/-- exp of an interval in [0, 1]. -/
def expIv (p : Nat) (x : Iv) : Iv := expTerms p x (p + 8) 1 (Iv.one p) (Iv.one p)

/-- Terms of the series of the inverse hyperbolic tangent: `pw` is the last odd power. -/
def atanhTerms (p : Nat) (z2 : Iv) : Nat → Nat → Iv → Iv → Iv
  | 0, _, pw, acc => ⟨acc.lo, acc.hi + 2 * pw.hi + 1⟩
  | fuel + 1, n, pw, acc =>
    let pw' := Iv.mul p pw z2
    if pw'.hi ≤ 2 then ⟨acc.lo, acc.hi + 2 * pw'.hi + 2⟩
    else atanhTerms p z2 fuel (n + 2) pw' (acc.add (pw'.divN (n + 2)))

/-- atanh of an interval in [0, 1/3]. -/
def atanhIv (p : Nat) (z : Iv) : Iv := atanhTerms p (Iv.mul p z z) (p + 8) 1 z z

/-- ln 2. -/
def ln2Iv (p : Nat) : Iv := let a := atanhIv p (Iv.rat p 1 3); a.add a

/-- Terms of the inverse tangent of `1/d`, alternating: even terms to `pos`, odd terms to `neg`. -/
def atanTerms (p d2 : Nat) : Nat → Nat → Bool → Iv → Iv → Iv → Iv
  | 0, _, _, pw, pos, neg => let r := pos.sub neg; ⟨r.lo - pw.hi, r.hi + pw.hi⟩
  | fuel + 1, n, s, pw, pos, neg =>
    let t := pw.divN n
    let pos' := if s then pos else pos.add t
    let neg' := if s then neg.add t else neg
    if pw.hi ≤ 2 then let r := pos'.sub neg'; ⟨r.lo - 3, r.hi + 3⟩
    else atanTerms p d2 fuel (n + 2) (!s) (pw.divN d2) pos' neg'

/-- arctan(1/d). -/
def atanInv (p d : Nat) : Iv := atanTerms p (d * d) (p + 8) 1 false (Iv.rat p 1 d) ⟨0, 0⟩ ⟨0, 0⟩

/-- pi, by Machin's formula. -/
def piIv (p : Nat) : Iv :=
  let a := atanInv p 5
  let b := atanInv p 239
  Iv.sub ⟨16 * a.lo, 16 * a.hi⟩ ⟨4 * b.lo, 4 * b.hi⟩

/-- Square root of an interval at scale `p`. -/
def Iv.sqrt (p : Nat) (a : Iv) : Iv := ⟨isqrt (a.lo * 2 ^ p), isqrt (a.hi * 2 ^ p) + 1⟩

/-- exp of a number that is not negative, as an interval at scale `p` times a power of two. -/
def expPos (p : Nat) (x : Iv) : Iv × Nat :=
  let l := ln2Iv p
  let k := x.lo / l.hi
  let kl : Iv := ⟨k * l.lo, k * l.hi⟩
  (expIv p (Iv.sub x kl), k)

/-- An interval scaled by a power of two, the result at scale `p`. -/
def Iv.shl (a : Iv) (k : Nat) : Iv := ⟨a.lo * 2 ^ k, a.hi * 2 ^ k⟩

/-- The reciprocal of `a * 2^k`, at scale `p`. -/
def Iv.recipPow (p : Nat) (a : Iv) (k : Nat) : Iv :=
  ⟨2 ^ (2 * p) / ((a.hi + 1) * 2 ^ k), 2 ^ (2 * p) / (a.lo * 2 ^ k) + 1⟩

/-- The absolute value `m * 2^e` at scale `p`. -/
def magIv (p m : Nat) (e : Int) : Iv :=
  let z := e + p
  if 0 ≤ z then ⟨m * 2 ^ z.toNat, m * 2 ^ z.toNat⟩
  else ⟨m / 2 ^ (-z).toNat, m / 2 ^ (-z).toNat + 1⟩

/-- exp(-|x|). -/
def expNegIv (p : Nat) (x : Iv) : Iv := let r := expPos p x; Iv.recipPow p r.1 r.2

/-- Terms of x + x^3/3 + x^5/(3*5) + ... -/
def phiTerms (p : Nat) (x2 : Iv) : Nat → Nat → Iv → Iv → Iv
  | 0, _, t, acc => ⟨acc.lo, acc.hi + 2 ^ p + t.hi⟩
  | fuel + 1, n, t, acc =>
    let t' := (Iv.mul p t x2).divN (n + 2)
    if t'.hi ≤ 4 ∧ 2 * x2.hi ≤ (n + 2) * 2 ^ p then ⟨acc.lo, acc.hi + 2 * t'.hi + 4⟩
    else phiTerms p x2 fuel (n + 2) t' (acc.add t')

/-- The half of the normal distribution between 0 and |x|: Φ(|x|) − 1/2. -/
def phiHalf (p : Nat) (x : Iv) : Iv :=
  let x2 := Iv.mul p x x
  let s := phiTerms p x2 (8 * p + 2000) 1 x x
  let g := expNegIv p (x2.divN 2)
  let pi2 := Iv.sqrt p (let q := piIv p; q.add q)
  Iv.div p (Iv.mul p s g) pi2

/-- The functions of VFN that need the interval evaluation (R124). -/
inductive Trans where
  | exp | exp2 | log | log2 | tanh | sigmoid | silu | gelu
  deriving DecidableEq, Repr

/-- Whether the value of the function at a finite nonzero operand of sign `neg` is negative; `big` says the operand's
magnitude is at least one. -/
def Trans.sign (t : Trans) (neg big : Bool) : Bool :=
  match t with
  | .exp | .exp2 | .sigmoid => false
  | .log | .log2 => !big
  | .tanh | .silu | .gelu => neg

/-- The magnitude of the natural logarithm of m * 2^e, enclosed at scale `p`. -/
def logIv (p m : Nat) (e : Int) : Iv :=
  let k : Int := e + Nat.log2 m
  let d := 2 ^ Nat.log2 m
  let f := atanhIv p (Iv.rat p (m - d) (m + d))
  let lf := f.add f
  let l := ln2Iv p
  let kl : Iv := ⟨k.natAbs * l.lo, k.natAbs * l.hi⟩
  if 0 ≤ k then kl.add lf else Iv.sub kl lf

/-- The magnitude of the function at (-1)^neg * m * 2^e, enclosed at scale `p`. -/
def Trans.eval (t : Trans) (p : Nat) (neg : Bool) (m : Nat) (e : Int) : Iv :=
  let x := magIv p m e
  let half : Iv := ⟨2 ^ (p - 1), 2 ^ (p - 1)⟩
  match t with
  | .exp => if neg then expNegIv p x else (let r := expPos p x; Iv.shl r.1 r.2)
  | .exp2 =>
    let y := Iv.mul p x (ln2Iv p)
    if neg then expNegIv p y else (let r := expPos p y; Iv.shl r.1 r.2)
  | .log => logIv p m e
  | .log2 => Iv.div p (logIv p m e) (ln2Iv p)
  | .tanh =>
    let q := expNegIv p (x.add x)
    Iv.div p (Iv.sub (Iv.one p) q) (Iv.add (Iv.one p) q)
  | .sigmoid =>
    let q := expNegIv p x
    let d := Iv.add (Iv.one p) q
    if neg then Iv.div p q d else Iv.div p (Iv.one p) d
  | .silu =>
    let q := expNegIv p x
    let d := Iv.add (Iv.one p) q
    Iv.mul p x (if neg then Iv.div p q d else Iv.div p (Iv.one p) d)
  | .gelu =>
    let h := phiHalf p x
    Iv.mul p x (if neg then Iv.sub half h else half.add h)

/-- Round an enclosed magnitude when both ends round alike. -/
def roundIv (ieee : Bool) (p : Nat) (neg : Bool) (v : Iv) : Option Nat :=
  if v.lo = 0 then none
  else
    let a := fFP32.round ieee none (.fin neg v.lo (-(p : Int)))
    let b := fFP32.round ieee none (.fin neg v.hi (-(p : Int)))
    if a = b then some a else none

/-- Double the precision until the rounding is decided. -/
def refine (ieee : Bool) (t : Trans) (code x : Nat) (neg sgn : Bool) (m : Nat) (e : Int) : Nat → Nat → Nat
  | 0, _ => Config.vfnHard code x
  | fuel + 1, p =>
    match roundIv ieee p sgn (t.eval p neg m e) with
    | some r => r
    | none => refine ieee t code x neg sgn m e fuel (2 * p)

/-- The magnitude of `m * 2^e` compared with an integer. -/
def magGe (m : Nat) (e : Int) (n : Nat) : Bool :=
  if 0 ≤ e then decide (n ≤ m * 2 ^ e.toNat) else decide (n * 2 ^ (-e).toNat ≤ m)

/-- A finite dyadic with a sticky low bit: `q` is the floor, and the value lies strictly above it unless `exact`. -/
def sticky (neg : Bool) (q : Nat) (exact : Bool) (e : Int) : FVal := .fin neg (2 * q + b2n (!exact)) (e - 1)

/-- The reciprocal of a finite nonzero value. -/
def fRecip (neg : Bool) (m : Nat) (e : Int) : FVal :=
  let k := Nat.log2 m + 64
  sticky neg (2 ^ k / m) (decide (2 ^ k % m = 0)) (-e - k)

/-- The square root of a positive value. -/
def fSqrt (m : Nat) (e : Int) : FVal :=
  let (m, e) := if e % 2 = 0 then (m, e) else (2 * m, e - 1)
  let n := m * 2 ^ 128
  sticky false (isqrt n) (decide (isqrt n * isqrt n = n)) (e / 2 - 64)

/-- The reciprocal square root of a positive value. -/
def fRsqrt (m : Nat) (e : Int) : FVal :=
  let (m, e) := if e % 2 = 0 then (m, e) else (2 * m, e - 1)
  let k := Nat.log2 m + 128
  let n := 2 ^ (2 * k) / m
  sticky false (isqrt n) (decide (isqrt n * isqrt n * m = 2 ^ (2 * k))) (-(e / 2) - k)

/-- Twenty-four working precisions are never needed; eight doublings from 64 bits reach 16,384 bits. -/
def vfnFuel : Nat := 8

/-- The base-2 logarithm of the Horn, correctly rounded (R126, R169, R282); no code of VFN names it. -/
def log2Fn (xw : Word) : Word :=
  BitVec.ofNat 32 (match fp32 xw with
    | .nan => fFP32.nan
    | .inf neg => if neg then fFP32.nan else fFP32.infinite false
    | .fin neg m e =>
      if m = 0 then fFP32.overflow false true
      else if neg then fFP32.nan
      else
        let k : Int := e + Nat.log2 m
        if m = 2 ^ Nat.log2 m then fFP32.round false none (.fin (decide (k < 0)) k.natAbs 0)
        else refine false .log2 10 xw.toNat false (Trans.sign .log2 false (magGe m e 1)) m e vfnFuel 64)

/-- VFN of one lane: function code `fn` (R124), overflow mode, operand (R126, R169, R178). -/
def vfn (fn : Nat) (ieee : Bool) (xw : Word) : Word :=
  let x := xw.toNat
  let inf (neg : Bool) : Nat := fFP32.overflow ieee neg
  let tr (t : Trans) (neg : Bool) (m : Nat) (e : Int) : Nat :=
    refine ieee t fn x neg (t.sign neg (magGe m e 1)) m e vfnFuel 64
  let r : Nat :=
    match fp32 xw with
    | .nan => fFP32.nan
    | .inf neg =>
      if fn = 0 ∨ fn = 1 then (if neg then 0 else fFP32.infinite false)
      else if fn = 2 ∨ fn = 5 then (if neg then fFP32.nan else fFP32.infinite false)
      else if fn = 3 then fFP32.signBit neg
      else if fn = 4 then (if neg then fFP32.nan else 0)
      else if fn = 6 then fFP32.signBit neg + 0x3F80_0000
      else if fn = 7 then (if neg then 0 else 0x3F80_0000)
      else (if neg then fFP32.signBit true else fFP32.infinite false)
    | .fin neg m e =>
      if m = 0 then
        (if fn = 0 ∨ fn = 1 then 0x3F80_0000
         else if fn = 2 then inf true
         else if fn = 3 ∨ fn = 4 then inf neg
         else if fn = 7 then 0x3F00_0000
         else fFP32.signBit neg)
      else if fn = 0 then
        (if magGe m e 105 then (if neg then 0 else inf false) else tr .exp neg m e)
      else if fn = 1 then
        (if magGe m e 151 then (if neg then 0 else inf false)
         else if 0 ≤ e ∨ m % 2 ^ (-e).toNat = 0 then
           (let n := (scaleTo m e 0).1
            fFP32.round ieee none (.fin false 1 (if neg then -(n : Int) else n)))
         else tr .exp2 neg m e)
      else if fn = 2 then
        (if neg then fFP32.nan
         else if m = 2 ^ Nat.log2 m ∧ e + Nat.log2 m = 0 then 0
         else tr .log neg m e)
      else if fn = 3 then fFP32.round ieee none (fRecip neg m e)
      else if fn = 4 then (if neg then fFP32.nan else fFP32.round ieee none (fRsqrt m e))
      else if fn = 5 then (if neg then fFP32.nan else fFP32.round ieee none (fSqrt m e))
      else if fn = 6 then
        (if magGe m e 16 then fFP32.signBit neg + 0x3F80_0000 else tr .tanh neg m e)
      else if fn = 7 then
        (if magGe m e 110 then (if neg then 0 else 0x3F80_0000) else tr .sigmoid neg m e)
      else if fn = 8 then
        (if magGe m e 120 then (if neg then fFP32.signBit true else x) else tr .silu neg m e)
      else
        (if magGe m e 15 then (if neg then fFP32.signBit true else x) else tr .gelu neg m e)
  BitVec.ofNat 32 r

end Sys2Proof.Machine
end

