-- ==== Sys2Proof/Machine/HornMath.lean ====
section
/-! DEFINITION. The arithmetic of the Horn: quantisation on append (R266 to R268), the page fold (R280), the merge (R283),
the output (R281, R282) and backward recomputation (R290). The Horn's own arithmetic saturates and rounds to nearest
even; every sum starts from +0 and adds exact products. -/
namespace Sys2Proof.Machine

/-- 2^x, correctly rounded, saturating. -/
def hexp2 (x : Word) : Word := vfn 1 false x
/-- The base-2 logarithm. -/
def hlog2 (x : Word) : Word := log2Fn x
/-- A score, which the Horn's arithmetic keeps finite or a NaN: an infinity becomes the largest finite value of its sign (R281;
DEDUCED, log entry 195). -/
def hscore (x : Word) : Word :=
  match fp32 x with
  | .inf neg => BitVec.ofNat 32 (fFP32.signBit neg + fFP32.big)
  | _ => x
/-- Sum, rounded once. -/
def hadd (a b : Word) : Word := fadd32 false a b
/-- Difference. -/
def hsub (a b : Word) : Word := fsub32 false a b
/-- Product. -/
def hmul (a b : Word) : Word := fmul32 false a b
/-- Fused multiply and add. -/
def hfma (a b c : Word) : Word := fma32 false a b c
/-- Maximum (R179). -/
def hmax (a b : Word) : Word := BitVec.ofNat 32 (fMaxMin fFP32 true a.toNat b.toNat)
/-- Minus infinity. -/
def negInf : Word := 0xFF800000
/-- A pattern is a NaN. -/
def isNan32 (x : Word) : Bool := (fp32 x).isNan

/-- Sum over the pairs of exact products, each addition rounded once, from `acc`. -/
def hdotFrom (acc : Word) : List Word → List Word → Word
  | x :: xs, y :: ys => hdotFrom (hfma x y acc) xs ys
  | _, _ => acc

/-- Sum of products from +0. -/
def hdot (xs ys : List Word) : Word := hdotFrom 0 xs ys

/-- Sum of a list from +0, in order. -/
def hsum (xs : List Word) : Word := xs.foldl hadd 0

/-- Exact quotient of two positive dyadics, with enough bits and a sticky bit for one rounding to any format here. -/
def quotient (neg : Bool) (ma : Nat) (ea : Int) (mb : Nat) (eb : Int) : FVal :=
  let n := ma * 2 ^ (Nat.log2 mb + 64)
  let q := n / mb
  .fin neg (2 * q + b2n (decide (n % mb ≠ 0))) (ea - eb - (Nat.log2 mb + 64 : Nat) - 1)

/-- Quotient of two FP32 patterns, rounded once to FP32. -/
def hdiv (a b : Word) : Word :=
  match fp32 a, fp32 b with
  | .fin na ma ea, .fin nb mb eb =>
    if mb = 0 then (if ma = 0 then nan32 else BitVec.ofNat 32 (fFP32.infinite (na ^^ nb)))
    else if ma = 0 then BitVec.ofNat 32 (fFP32.signBit (na ^^ nb))
    else toFp32 false (quotient (na ^^ nb) ma ea mb eb)
  | .inf na, .fin nb _ _ => BitVec.ofNat 32 (fFP32.infinite (na ^^ nb))
  | .fin na _ _, .inf nb => BitVec.ofNat 32 (fFP32.signBit (na ^^ nb))
  | _, _ => nan32

/-! ### Quantisation (R266 to R268) -/

/-- The FP16 code of one element: a NaN becomes +0, an infinity ±65,504. -/
def kvElem (x : Word) : Nat :=
  match fp32 x with
  | .nan => 0
  | .inf neg => fFP16.signBit neg + fFP16.big
  | v => fFP16.round false none v

/-- qmax of an integer format: 127 for INT8, 7 for INT4. -/
def kvMax (fmt : Nat) : Nat := if fmt = 1 then 127 else 7

/-- The FP16 scale of a group whose largest magnitude has the code `a`. -/
def kvScale (fmt a : Nat) : Nat :=
  match fFP16.decode a with
  | .fin _ m e =>
    if m = 0 then 0
    else
      let s := fFP16.round false none (quotient false m e (kvMax fmt) 0)
      if s = 0 then 1 else s
  | _ => 0

/-- The exact quotient y / s rounded to the nearest even integer and clamped to ±qmax. -/
def kvQuant (fmt y s : Nat) : Int :=
  match fFP16.decode y, fFP16.decode s with
  | .fin ny my ey, .fin _ ms es =>
    if ms = 0 then 0
    else
      let e := min ey es
      let num := my * 2 ^ (ey - e).toNat
      let den := ms * 2 ^ (es - e).toNat
      let r : Int := roundQuot none (num / den) (num % den) den
      let q : Int := kvMax fmt
      max (-q) (min (if ny then -r else r) q)
  | _, _ => 0

/-- A stored group: element codes (two's complement of the format's width, or FP16) and the scale code; the number of NaN
inputs replaced. Format 0 is FP16, 1 INT8, 2 INT4. -/
def storeGroup (fmt : Nat) (xs : List Word) : List Nat × Nat × Nat :=
  let ys := xs.map kvElem
  let nans := xs.countP isNan32
  if fmt = 0 then (ys, 0, nans)
  else
    let a := (ys.map (fun y => y % 2 ^ 15)).foldl max 0
    let s := kvScale fmt a
    if a = 0 then (xs.map (fun _ => 0), 0, nans)
    else (ys.map (fun y => wrap (if fmt = 1 then 8 else 4) (kvQuant fmt y s)), s, nans)

/-- The FP32 value of a stored element (R268). -/
def kvValue (fmt code scale : Nat) : Word :=
  if fmt = 0 then toFp32 false (fFP16.decode code)
  else toFp32 false ((FVal.ofInt (signed (if fmt = 1 then 8 else 4) code)).mul (fFP16.decode scale))

/-! ### The fold (R279, R280) -/

/-- A key or value token as a row sees it: absolute index, key and value elements. -/
structure HTok where
  t : Nat
  k : List Word
  v : List Word
  deriving DecidableEq, Repr

/-- Token `t` is unmasked for a row at position `p` (R279); tokens given to a fold lie in the descriptor's range. -/
def unmasked (d : HDesc) (p t : Nat) : Bool :=
  (!bit d.flags 0 || decide (t ≤ p)) && (decide (d.window = 0) || decide (p < t + d.window))

/-- What one page does to a row: the new row, what the score scratch holds of its unmasked tokens afterwards (the score, where a
NaN dropped the token, else the probability), and the NaN scores dropped. -/
def foldPage (d : HDesc) (q : List Word) (p : Nat) (toks : List HTok) (r : HRow) : HRow × List (Nat × Word) × Nat :=
  let u := toks.filter (fun x => unmasked d p x.t)
  let sc := u.map (fun x => (x, hscore (hmul d.scale (hdot q x.k))))
  let ok := sc.filter (fun x => !isNan32 x.2)
  let nans := sc.length - ok.length
  if ok = [] then (r, sc.map (fun x => (x.1.t, x.2)), nans)
  else
    let mn := hmax r.m (ok.foldl (fun m x => hmax m x.2) negInf)
    let a := hexp2 (hsub r.m mn)
    let prob (x : HTok × Word) : Word := hexp2 (hsub x.2 mn)
    let ps := ok.map (fun x => (x.1, prob x))
    let lb := hsum (ps.map (fun x => x.2))
    let o' := (List.range d.width).map (fun e =>
      let ob := ps.foldl (fun acc x => hfma x.2 (x.1.v.getD e 0) acc) 0
      hfma (r.o.getD e 0) a ob)
    ({ m := mn, l := hfma r.l a lb, o := o' }, sc.map (fun x => (x.1.t, if isNan32 x.2 then x.2 else prob x)), nans)

/-- One part folded into a row (R283). -/
def mergePart (r : HRow) (p : HRow) : HRow :=
  if (fp32 p.l).eqv (fp32 0) then r
  else
    let mn := hmax r.m p.m
    let a := hexp2 (hsub r.m mn)
    let b := hexp2 (hsub p.m mn)
    { m := mn
      l := hfma r.l a (hmul p.l b)
      o := List.zipWith (fun x y => hfma x a (hmul y b)) r.o p.o }

/-- A row with no unmasked key. -/
def HRow.empty (r : HRow) : Bool := (fp32 r.l).eqv (fp32 0)

/-- The row of a fold before its first page. -/
def HRow.start (w : Nat) : HRow := { m := negInf, l := 0, o := List.replicate w 0 }

/-- Output element of a row in out_fmt (R281). -/
def HRow.out (d : HDesc) (r : HRow) (e : Nat) : Nat :=
  if r.empty then 0 else narrow d.outFmt (bit d.flags 4) none (hdiv (r.o.getD e 0) r.l)

/-- m and lse of a row (R281, R282). -/
def HRow.stats (r : HRow) : Word × Word :=
  if r.empty then (negInf, negInf) else (r.m, hadd r.m (hlog2 r.l))

end Sys2Proof.Machine
end

