-- ==== Sys2Proof/Machine/KvMap.lean ====
section
/-! DEFINITION. KV maps, stretches and page lists (R259 to R265): the map of a request in its bellows's SRAM, its checks, where a
page list leads, and how the length advances (R292). -/
namespace Sys2Proof.Machine

/-- The most tokens of a stretch (R260). -/
def stretchMax : Nat := 262144

/-- One stretch of a KV map (R260, R265). -/
structure Stretch where
  chanter : Nat
  first : Nat
  count : Nat
  table : Nat
  /-- A reserved bit is set. -/
  rsvd : Bool
  deriving DecidableEq, Repr

/-- A KV map (R265). -/
structure KvMap where
  model : Nat
  shape : KvShape
  length : Nat
  stretches : List Stretch
  /-- A reserved bit is set, `stretches` is out of range, or an entry past them is not zero. -/
  bad : Bool
  deriving DecidableEq, Repr

/-- The stretch entry of 24 bytes. -/
def stretchOf (v : Nat) : Stretch :=
  let f (off n : Nat) : Nat := v / 256 ^ off % 256 ^ n
  { chanter := f 0 1 % 8, first := f 4 4, count := f 8 4, table := f 16 8
    rsvd := decide (8 ≤ f 0 1) || decide (f 1 3 ≠ 0) || decide (f 12 4 ≠ 0) }

/-- The map of 128 bytes. -/
def kvMapOf (v : Nat) : KvMap :=
  let f (off n : Nat) : Nat := v / 256 ^ off % 256 ^ n
  let n := f 13 1
  { model := f 0 2
    shape := { fmt := f 2 1, grain := f 12 1, layers := f 3 1, heads := f 4 1, width := f 6 2, qPerKv := f 5 1 }
    length := f 8 4, stretches := (List.range (min n 4)).map (fun i => stretchOf (f (32 + 24 * i) 24))
    bad := decide (n = 0 ∨ 4 < n) || decide (f 14 18 ≠ 0) || decide (f (32 + 24 * n) (96 - 24 * n) ≠ 0) }

/-- Stretches follow one another: each starts where the one before ends, at a whole number of segments, and holds at most
262,144 tokens (R259, R260). -/
def stretchesRun (seg : Nat) : Nat → List Stretch → Bool
  | _, [] => true
  | at', x :: xs => decide (x.first = at') && decide (at' % seg = 0) && decide (x.count ≤ stretchMax) && !x.rsvd &&
      stretchesRun seg (at' + x.count) xs

/-- The shape of a KV is one that R265 admits. -/
def KvShape.ok (k : KvShape) : Bool :=
  decide (k.fmt ≤ 2) && decide (13 ≤ k.grain ∧ k.grain ≤ 18) && decide (1 ≤ k.layers ∧ k.layers ≤ 255) &&
    decide (1 ≤ k.heads ∧ k.heads ≤ 64) && decide (1 ≤ k.qPerKv ∧ k.qPerKv ≤ 64) &&
    decide (32 ≤ k.width ∧ k.width ≤ 512 ∧ k.width % 32 = 0)

/-- The map keeps R259 to R261 and R265. -/
def State.kvMapOk (s : State) (m : KvMap) : Bool :=
  !m.bad && m.shape.ok && decide (m.length ≤ 1048576) && stretchesRun (2 ^ m.shape.grain) 0 m.stretches &&
    decide ((m.stretches.map (fun x => x.count)).foldl (· + ·) 0 = m.length) &&
    decide ((m.stretches.map (fun x => x.chanter)).Nodup) && m.stretches.all (fun x => s.online x.chanter)

/-- The tail stretch (R260). -/
def KvMap.tail? (m : KvMap) : Option Stretch := m.stretches.getLast?

/-- The KV map of a request, where it can be read (R265). -/
def State.kvMap (s : State) (i : Nat) : Option KvMap :=
  if 2 ^ 27 < (s.req i).kvRoot + 128 then none
  else match s.readLe (.fife (reqDie i) 0) none (bellowsSram (reqDie i) (s.req i).kvRoot) 128 with
    | .ok v => some (kvMapOf v)
    | .error _ => none

/-- The page list of layer `l` of a stretch (R262, R265). -/
def State.pageListOf (s : State) (x : Stretch) (l : Nat) : Option Nat :=
  (s.readLe (.unit x.chanter) none (x.table + 8 * l) 8).toOption

/-- The page that entry `j` of a page list names: an entry with no reserved bit, of a page address aligned to 4 KiB that the
chanter reaches in its own DRAM (R262). -/
def State.pageEntry (s : State) (c list j : Nat) : Option Nat :=
  match s.readLe (.unit c) none (list + 8 * j) 8 with
  | .error _ => none
  | .ok e =>
    let a := bits e 47 0
    if e / 2 ^ 49 ≠ 0 ∨ a % 4096 ≠ 0 ∨ (s.dramAt (some c) a).isNone then none else some a

/-- The most tokens of a request while the online chanters are as they are: a stretch on each (R260, R261). -/
def State.tokenLimit (s : State) : Nat := stretchMax * (List.range 4).countP (fun c => s.online c)

/-- The stretch and layer of a request's map whose page list has, for token `first`, the entry at `list`: as the chanter `die`
reaches it. -/
def State.listWhere (s : State) (die list first : Nat) (m : KvMap) : Option (Stretch × Nat) :=
  m.stretches.findSome? (fun x =>
    if x.chanter ≠ die ∨ first < x.first then none
    else ((List.range m.shape.layers).find? (fun l =>
      match s.pageListOf x l with
      | some a => decide ((s.dramAt (some die) (a + 8 * ((first - x.first) / 128))).isSome) &&
          decide (s.dramAt (some die) (a + 8 * ((first - x.first) / 128)) = s.dramAt (some die) list)
      | none => false)).map (fun l => (x, l)))

/-- The request of a step, its map, stretch and layer that a page list belongs to. How the Horn knows the request of a
descriptor is not stated: the model finds it among the requests of the posting reed's step, by the list (log entry 194). -/
def State.listOwner (s : State) (die uid list first : Nat) : Option (Nat × KvMap × Stretch × Nat) :=
  (s.stepReqs uid).findSome? (fun q =>
    match s.kvMap q.1 with
    | none => none
    | some m => (s.listWhere die list first m).map (fun w => (q.1, m, w.1, w.2)))

/-- An append of the tokens from `start` to `stop` goes beyond R260 or R261: to a stretch that is not the tail, before the end of
the request, or past the end of the stretch or the request. -/
def State.beyond (s : State) (owner : Option (Nat × KvMap × Stretch × Nat)) (start stop : Nat) : Bool :=
  decide (s.tokenLimit < stop) || decide (1048576 < stop) ||
    (match owner with
     | none => false
     | some (_, m, x, _) => decide (m.tail? ≠ some x) || decide (start < m.length) || decide (x.first + stretchMax < stop))

/-- Note that a step has appended a request's tokens up to `stop` in a layer. -/
def State.noteAppend (s : State) (uid : Nat) (owner : Option (Nat × KvMap × Stretch × Nat)) (stop : Nat) : State :=
  match owner with
  | none => s
  | some (i, _, _, l) => { s with steps := s.steps.map (fun (e : Step) =>
      if e.uid = uid then { e with appends := e.appends ++ [(i, l, stop)] } else e) }

/-- Write the length of a request into its KV map: the map's length and the count of its tail stretch. -/
def State.writeLength (s : State) (i : Nat) (m : KvMap) (n : Nat) : State :=
  let base := bellowsSram (reqDie i) (s.req i).kvRoot
  let put (t : State) (a v : Nat) : State := t.writeSeen (.fife (reqDie i) 0) none a (leBytes 4 v)
  match m.tail? with
  | none => s
  | some x => (put (put s (base + 8) n) (base + 32 + 24 * (m.stretches.length - 1) + 8) (n - x.first)).modReq i (fun r => { r with length := n })

/-- A step has retired without `fault`: a request's length advances to the tokens that every layer holds (R292, R491). Where a
revive has kept the pages after a missing prefix, they count once the prefix is prefilled (R553). What a step of the primary model has
appended does not count once the fallback is active (R502). -/
def State.lengthAdvance (s : State) (e : Step) : State :=
  ((e.appends.map (fun a => a.1)).eraseDups.filter (fun i =>
    !(bit (s.req i).flags 1 && decide (e.desc.model = (s.req i).model) && decide (e.desc.model ≠ (s.req i).fallback)))).foldl (fun (t : State) i =>
    let t1 := t.modReq i (fun r => { r with
      grown := (e.appends.filter (fun a => decide (a.1 = i))).foldl (fun g a => SMap.upd (fun _ => 0) g a.2.1 (fun n => max n a.2.2)) r.grown })
    match t1.kvMap i with
    | none => t1
    | some m =>
      let n := ((List.range m.shape.layers).map (fun l => SMap.get (fun _ => 0) (t1.req i).grown l)).foldl min (2 ^ 32)
      let k := (t1.req i).kept
      if k.1 ≠ 0 ∧ k.1 ≤ n ∧ n < 2 ^ 32 then
        (t1.writeSeen (.fife (reqDie i) 0) none (bellowsSram (reqDie i) (t1.req i).kvRoot) (leBytes 128 k.2)).modReq i (fun r => { r with
          kept := (0, 0), length := (kvMapOf k.2).length })
      else if m.length < n ∧ n < 2 ^ 32 then t1.writeLength i m n else t1) s

end Sys2Proof.Machine
end

