-- ==== Sys2Proof/Machine/Tongue.lean ====
section
/-! DEFINITION. The tongue engines (R94 to R102, R107, R108, R110, R139 to R142): descriptors, issue, landing, release,
flush and control. -/
namespace Sys2Proof.Machine

/-- The partition a running reed acts for (R573). -/
def Reed.partOf (r : Reed) : Option Nat := r.part

/-- One of the two engines of a reed. -/
def Reed.eng (r : Reed) (isA : Bool) : Engine := if isA then r.a else r.w

/-- Replace an engine. -/
def Reed.setEng (r : Reed) (isA : Bool) (e : Engine) : Reed := if isA then { r with a := e } else { r with w := e }

/-- Offset of an engine's control register (R104). -/
def engCtrl (isA : Bool) : Nat := if isA then 0x130 else 0x110

/-- The page addresses of a page-list descriptor, or its error code (R110, R262). R110 orders the errors of a descriptor and
not those of its page list: the model judges the list after code 0x03, entry by entry, and the first bad entry decides
(DESIGN CHOICE, log entry 181). -/
def pageList (s : State) (x : ReedRef) (part : Option Nat) (aux : Nat) : Nat → Except Nat (List Nat)
  | 0 => .ok []
  | n + 1 =>
    match pageList s x part aux n with
    | .error c => .error c
    | .ok ps =>
      match s.readLe (.reed x) part (aux + 8 * n) 8 with
      | .error .uncorrectable => .error 0x05
      | .error .refused => .error 0x04
      | .ok e =>
        if bits e 63 49 ≠ 0 then .error 0x01
        else if bits e 47 0 % 4096 ≠ 0 then .error 0x02
        else .ok (ps ++ [bits e 47 0])

/-- The device address of a tile of a descriptor. -/
def TDesc.tileAddr (d : TDesc) (row idx : Nat) : Nat :=
  if d.kind = 1 then d.pages.getD row 0 + idx * 4096
  else d.addr + row * d.outerStride + idx * d.innerStride

/-- Every tile of the descriptor lies inside the address map and the partition's windows, and below 2^48 (R100). -/
def TDesc.tilesOk (d : TDesc) (s : State) (x : ReedRef) (part : Option Nat) : Bool :=
  (List.range d.outer).all (fun row => (List.range d.inner).all (fun idx =>
    let a := d.tileAddr row idx
    decide (a + 4096 ≤ 2 ^ 48) && (s.xlat (.reed x) part (decide (d.kind = 2)) a 4096).isSome))

/-- The bits of a kind-2 descriptor's source range lie in reed SRAM. -/
def TDesc.srcOk (d : TDesc) : Bool := d.kind ≠ 2 || decide (d.aux + 4096 * d.inner * d.outer ≤ 2 ^ 22)

/-- Read and check a descriptor, with the error codes in the order of R110. The spec gives no code for a descriptor whose 32
bytes pass the end of reed SRAM or lie in a bank that the reed does not own, nor for a kind-2 source range that passes the end:
the model reports 0x04 for each (DESIGN CHOICE, log entry 181). -/
def State.tongueDesc (s : State) (x : ReedRef) (isA : Bool) (off : Nat) : Except Nat TDesc :=
  let part := (s.reed x).partOf
  let ps := (List.range 32).map (fun i => reedSram x (off + i))
  if 2 ^ 22 < off + 32 ∨ s.ownRange x off 32 = .exc 0x04 then .error 0x04
  else if s.anyBad ps then .error 0x05
  else
    let v := s.sramRead x off 32
    let fl (hi lo : Nat) : Nat := bits v hi lo
    let kind := fl 167 160
    let d : TDesc :=
      { addr := fl 47 0, inner := fl 79 64, outer := fl 95 80, innerStride := fl 127 96, outerStride := fl 159 128
        kind := kind, last := bit v 168, notify := bit v 169, aux := fl 255 192, pages := [] }
    if 3 ≤ kind then .error 0x07
    else if kind = 2 ∧ isA = false then .error 0x06
    else if fl 63 48 ≠ 0 ∨ fl 175 170 ≠ 0 ∨ fl 191 176 ≠ 0 ∨ (kind = 0 ∧ d.aux ≠ 0) ∨ (kind = 1 ∧ d.addr ≠ 0) ∨
        (kind = 2 ∧ bits d.aux 63 22 ≠ 0) then .error 0x01
    else if d.addr % 4096 ≠ 0 ∨ (kind ≠ 1 ∧ (d.innerStride % 4096 ≠ 0 ∨ d.outerStride % 4096 ≠ 0)) ∨
        (kind = 1 ∧ d.aux % 8 ≠ 0) ∨ (kind = 2 ∧ d.aux % 4096 ≠ 0) then .error 0x02
    else if d.inner = 0 ∨ d.outer = 0 then .error 0x03
    else if kind = 1 then
      (match pageList s x part d.aux d.outer with
       | .error c => .error c
       | .ok pgs =>
         let d' := { d with pages := pgs }
         if d'.tilesOk s x part then .ok d' else .error 0x04)
    else if d.srcOk && d.tilesOk s x part then .ok d else .error 0x04

/-- Count and record the errors of the words that reading a descriptor meets: its own, and those of its page list (R212,
R213). -/
def State.noteDesc (s : State) (x : ReedRef) (off : Nat) : State :=
  let s1 := s.noteWords ((List.range 32).map (fun i => reedSram x (off + i)))
  let v := s.sramRead x off 32
  if bits v 167 160 = 1 ∧ bits v 255 192 % 8 = 0 then
    s1.noteDev (.reed x) (s.reed x).partOf false (bits v 255 192) (8 * bits v 95 80)
  else s1

/-- Stop an engine on an error: the code, the STATUS, the interrupt (R100). -/
def State.engineError (s : State) (x : ReedRef) (isA : Bool) (code : Nat) : State :=
  let r := s.reed x
  let s1 := s.setReed x (r.setEng isA { r.eng isA with err := code })
  s1.raise (Blk.reed.at x.die (17 * x.k + x.r) 0) (if isA then 1 else 0)

/-- Tiles of a descriptor. -/
def TDesc.tiles (d : TDesc) : Nat := d.inner * d.outer

/-- Tiles of the current descriptor from the cursor on. -/
def Engine.curLeft (e : Engine) : Nat :=
  match e.cur with
  | some d => d.tiles - (e.row * d.inner + e.idx)
  | none => 0

/-- Tiles decoded beyond the consumption point: issued and neither consumed nor written, and decoded and not issued (R94,
R108). -/
def Engine.aheadTiles (e : Engine) : Nat :=
  e.tiles.length + e.writes.length + e.curLeft + (e.ahead.map TDesc.tiles).sum

/-- Read tiles that are decoded and not issued. -/
def Engine.readsLeft (e : Engine) : Nat :=
  (match e.cur with
   | some d => if d.kind = 2 then 0 else e.curLeft
   | none => 0) + ((e.ahead.filter (fun d => decide (d.kind ≠ 2))).map TDesc.tiles).sum

/-- The last descriptor of the list has been decoded. -/
def Engine.allDecoded (e : Engine) : Bool :=
  e.done || (match e.cur with
    | some d => ((e.ahead.getLast?).getD d).last
    | none => false)

/-- The offset of the next descriptor to decode. -/
def Engine.nextOff (e : Engine) : Nat := e.desc + (match e.cur with | some _ => 32 * (1 + e.ahead.length) | none => 0)

/-- A descriptor has been decoded. -/
def Engine.decoded (e : Engine) (d : TDesc) : Engine :=
  match e.cur with
  | some _ => { e with ahead := e.ahead ++ [d] }
  | none => { e with cur := some d }

/-- Decode descriptors, at most `n`, while the tiles decoded beyond the consumption point are fewer than `lookahead`; a
descriptor that breaks the rules stops the engine (R94, R97, R100). A descriptor in a bank that is being handed over to the reed
waits. -/
def State.tongueDecode (s : State) (x : ReedRef) (isA : Bool) : Nat → State
  | 0 => s
  | n + 1 =>
    let e := (s.reed x).eng isA
    if e.err ≠ 0 ∨ e.allDecoded = true ∨ e.look ≤ e.aheadTiles ∨ s.ownRange x e.nextOff 32 = .wait then s
    else
      let s1 := s.noteDesc x e.nextOff
      match s.tongueDesc x isA e.nextOff with
      | .error c => s1.engineError x isA c
      | .ok d =>
        let r := s1.reed x
        State.tongueDecode (s1.setReed x (r.setEng isA ((r.eng isA).decoded d))) x isA n

/-- Move the cursor past one tile of the current descriptor. -/
def Engine.advance (e : Engine) (d : TDesc) : Engine :=
  if e.idx + 1 < d.inner then { e with idx := e.idx + 1 }
  else if e.row + 1 < d.outer then { e with idx := 0, row := e.row + 1 }
  else if d.last then { e with done := true }
  else { e with idx := 0, row := 0, desc := e.desc + 32, cur := e.ahead.head?, ahead := e.ahead.drop 1 }

/-- Whether the cursor stands on the descriptor's final tile. -/
def Engine.atFinal (e : Engine) (d : TDesc) : Bool := decide (e.idx + 1 = d.inner) && decide (e.row + 1 = d.outer)

/-- A list whose tiles are all consumed and written has ended; permits left over lapse (R139). -/
def Engine.settle (e : Engine) : Engine :=
  if e.active && e.done && e.tiles.isEmpty && e.writes.isEmpty then { e with active := false, permits := 0 } else e

/-- The cursor past the write tiles that the list has issued before (R107, R156): at most `n` tiles. -/
def Engine.skipWrites (e : Engine) : Nat → Engine
  | 0 => e
  | n + 1 =>
    match e.cur with
    | none => e
    | some d =>
      if d.kind = 2 ∧ e.wnum < e.issuedW ∧ e.done = false then
        Engine.skipWrites { e.advance d with wnum := e.wnum + 1 } n
      else e

/-- The physical address of a tile of a descriptor, translated as the descriptor was decoded (R94). -/
def TDesc.tilePhys (d : TDesc) (s : State) (x : ReedRef) (row idx : Nat) : Nat :=
  ((s.xlat (.reed x) (s.reed x).partOf (decide (d.kind = 2)) (d.tileAddr row idx) 4096).bind List.head?).getD 0

/-- The slot offset of tile `num` (R140). -/
def State.slotOff (s : State) (x : ReedRef) (isA : Bool) (num : Nat) : Nat :=
  s.qbase x isA + num % ((s.reed x).eng isA).slots * 4096

/-- A slot is free for the next read: fewer tiles are queued than slots, within the horizon, and none lies in its slot (R94). -/
def State.slotFree (s : State) (x : ReedRef) (isA : Bool) (e : Engine) : Bool :=
  decide (e.tiles.length < e.slots) && decide (e.tiles.length + e.writes.length < e.look) &&
    e.tiles.all (fun t => decide (t.slot ≠ s.slotOff x isA e.num))

/-- One issue of an engine whose current descriptor is decoded: a read when a slot is free, a write when permitted
(R94, R98, R139). -/
def State.issueTile (s : State) (x : ReedRef) (isA : Bool) (d : TDesc) : State :=
  let r := s.reed x
  let e := r.eng isA
  let put (e' : Engine) : State := s.setReed x (r.setEng isA e')
  let phys := d.tilePhys s x e.row e.idx
  if d.kind = 2 then
    (let src := d.aux + 4096 * (e.row * d.inner + e.idx)
     let ps := (List.range 4096).map (fun i => reedSram x (src + i))
     if e.permits = 0 ∨ s.ownRange x src 4096 = .wait then s
     else if s.anyBad ps ∨ s.ownRange x src 4096 ≠ .ok then
       ((s.noteWords ps).setReed x (r.setEng isA { e with cur := none, ahead := [] })).engineError x isA
         (if s.anyBad ps then 0x05 else 0x04)
     else (put { e.advance d with
       wnum := e.wnum + 1, issuedW := e.issuedW + 1, permits := e.permits - 1
       writes := e.writes ++ [⟨src, d.tileAddr e.row e.idx, phys, e.wnum, d.notify && e.atFinal d⟩] }).noteWords ps)
  else if s.slotFree x isA e then
    put { e.advance d with
      num := e.num + 1
      tiles := e.tiles ++ [⟨d.tileAddr e.row e.idx, phys, s.slotOff x isA e.num, e.desc, e.row, e.idx, e.num, e.wnum, false, false,
        d.notify && e.atFinal d⟩] }
  else s

/-- Decode within the horizon, pass over write tiles issued before, and issue one tile (R94, R97, R100, R107). -/
def State.tongueIssue (s : State) (x : ReedRef) (isA : Bool) : State :=
  let e0 := (s.reed x).eng isA
  if e0.enable = false ∨ e0.active = false ∨ e0.done = true then s
  else
    let s1 := s.tongueDecode x isA 64
    let r := s1.reed x
    let e := ((r.eng isA).skipWrites (e0.issuedW - e0.wnum)).settle
    let s2 := s1.setReed x (r.setEng isA e)
    match e.cur with
    | some d => if e.done then s2 else s2.issueTile x isA d
    | none => s2

/-- Write one finished write tile to memory (R96 kind 2); a target that has gone offline takes nothing. -/
def State.applyWrite (s : State) (x : ReedRef) (w : WTile) : State :=
  if homeDie w.phys < 4 ∧ s.online (homeDie w.phys) = false then s
  else
    let bs := s.readPhys ((List.range 4096).map (fun i => reedSram x (w.src + i)))
    (s.writePhys ((List.range 4096).map (fun i => w.phys + i)) bs).mirror (s.reed x).step w.addr bs

/-- Mark the words of a range of reed SRAM poisoned (R101, R211). -/
def State.poisonRange (s : State) (p : Nat) : Nat → State
  | 0 => s
  | n + 1 => { State.poisonRange s p n with
      flip := SMap.set (fun _ => 0) (State.poisonRange s p n).flip (p / 8 + n) poisonMask }

/-- The uncorrectable error that a tile has met in its stack or on its way, where no stored word shows it: it is counted, and a
fault of kind 0x05 is recorded (R101, R721, R887). -/
def State.tileError (s : State) (phys : Nat) : State :=
  if phys < sramBase then
    let c := phys / chanterBytes
    let st := phys / stackBytes % 3
    ((s.cntAdd .hbm c st 0x038 1).raise (Blk.hbm.at c st 0) 0).faultPost { breath := 0, die := c, kind := 5 }
  else s

/-- Land a tile: its 4 KiB come into its slot as memory holds them after the engine's earlier writes; a correctable error is
corrected on the way, an uncorrectable one poisons the slot and is reported (R95, R98, R101). A read outstanding to an offline
chanter has ended before (R102). -/
def State.landTile (s : State) (x : ReedRef) (isA : Bool) (num : Nat) (uncorrectable : Bool) : State :=
  let r := s.reed x
  let e := r.eng isA
  match e.tiles.find? (fun t => decide (t.num = num) && !t.landed) with
  | none => s
  | some t =>
    let seen := (e.writes.filter (fun w => decide (w.num < t.wnum))).foldl (fun u w => u.applyWrite x w) s
    let ps := (List.range 4096).map (fun i => t.phys + i)
    let bad := uncorrectable || seen.anyBad ps
    let base := reedSram x t.slot
    let s1 := (s.noteWords ps).writePhys ((List.range 4096).map (fun i => base + i)) (seen.readPhys ps)
    let s2 := if bad then s1.poisonRange base 512 else s1
    let s3 := if uncorrectable && !seen.anyBad ps then s2.tileError t.phys else s2
    let e' := { e with tiles := e.tiles.map (fun u => if u.num = num then { u with landed := true, poison := bad } else u) }
    (s3.setReed x (r.setEng isA e')).cntAdd .reed x.die (17 * x.k + x.r) (if isA then 0x050 else 0x048) 1

/-- A read that lies before a write tile in the list has not landed (R98). -/
def Engine.readBefore (e : Engine) (w : WTile) : Bool := e.tiles.any (fun t => !t.landed && decide (t.wnum ≤ w.num))

/-- A write tile of an engine has reached memory: it is counted, and the final tile of a descriptor with `notify` raises the
notification (R104, R109). -/
def State.wroteTile (s : State) (x : ReedRef) (w : WTile) : State :=
  let s1 := (s.applyWrite x w).cntAdd .reed x.die (17 * x.k + x.r) 0x050 1
  if w.notify then s1.raise (Blk.reed.at x.die (17 * x.k + x.r) 0) 3 else s1

/-- The oldest issued write tile reaches memory, once the reads before it have landed (R98). -/
def State.writeDone (s : State) (x : ReedRef) : State :=
  match (s.reed x).a.writes with
  | [] => s
  | w :: ws =>
    if (s.reed x).a.readBefore w then s
    else
      let s1 := s.wroteTile x w
      let r := s1.reed x
      s1.setReed x { r with a := { r.a with writes := ws }.settle }

/-- Release the `n` oldest tiles of an engine and raise the notifications they carry (R109, R139). -/
def State.releaseTiles (s : State) (x : ReedRef) (isA : Bool) (n : Nat) : State :=
  let r := s.reed x
  let e := r.eng isA
  let note := (e.tiles.take n).any (fun t => t.notify)
  let s1 := s.setReed x (r.setEng isA { e with tiles := e.tiles.drop n }.settle)
  if note then s1.raise (Blk.reed.at x.die (17 * x.k + x.r) 0) (if isA then 3 else 2) else s1

/-- Complete the write tiles that an engine has issued (R107, R602). -/
def State.drainWrites (s : State) (x : ReedRef) (isA : Bool) : State :=
  let s1 := ((s.reed x).eng isA).writes.foldl (fun u w => u.wroteTile x w) s
  let r := s1.reed x
  s1.setReed x (r.setEng isA { (r.eng isA) with writes := [] })

/-- Complete the issued writes, then flush (R107). -/
def State.flushEngine (s : State) (x : ReedRef) (isA : Bool) : State :=
  let s1 := s.drainWrites x isA
  let r := s1.reed x
  s1.setReed x (r.setEng isA (r.eng isA).flush)

/-- Whether an engine has a read outstanding. -/
def Engine.outstanding (e : Engine) : Bool := e.tiles.any (fun t => !t.landed)

/-- A write to REED_TW_CTRL or REED_TA_CTRL (R107). "A write within range takes effect when the engine next has no outstanding
reads": the model lets `queue_slots` and `lookahead` wait and applies `enable` at once, since clearing it stops new issue (DESIGN
CHOICE, log entry 182). -/
def State.engineCtrl (s : State) (who : Requester) (x : ReedRef) (isA : Bool) (v : Word) : State :=
  let a := Blk.reed.at x.die (17 * x.k + x.r) (engCtrl isA)
  let s0 := if fieldW v 31 21 ≠ 0 ∨ fieldW v 7 2 ≠ 0 then s.err who .reed a .reservedWrite else s
  let slots := fieldW v 20 16
  let look := fieldW v 15 8
  if slots < 2 ∨ 16 < slots ∨ look < 1 ∨ 64 < look then s0.err who .reed a .valueWrite
  else
    let en := decide (fieldW v 0 0 = 1)
    let fl := decide (fieldW v 1 1 = 1)
    let s1 := s0.setReg a (v &&& 0x001FFF01)
    let r := s1.reed x
    let e := r.eng isA
    let e1 := if e.outstanding then { e with enable := en, cfgPend := some (slots, look) }
      else { e with enable := en, cfgPend := none, slots := slots, look := look }
    let s2 := s1.setReed x (r.setEng isA e1)
    if fl then (if en then s2.err who .reed a .valueWrite else s2.flushEngine x isA) else s2

/-- A pending control write takes effect once no read is outstanding (R107). -/
def State.engineCfgApply (s : State) (x : ReedRef) (isA : Bool) : State :=
  let r := s.reed x
  let e := r.eng isA
  match e.cfgPend with
  | none => s
  | some (slots, look) =>
    if e.outstanding then s
    else s.setReed x (r.setEng isA { e with cfgPend := none, slots := slots, look := look })

/-- The STATUS value of an engine (R108). -/
def Engine.status (e : Engine) : Nat :=
  b2n (e.outstanding || !e.writes.isEmpty) * 2 ^ 31 + b2n (decide (e.err ≠ 0)) * 2 ^ 30 + e.err * 2 ^ 16 +
    (e.tiles.filter (fun t => t.landed)).length * 2 ^ 8 + min 64 e.aheadTiles

/-- The consumption point of an engine: the descriptor and row of its oldest tile, else of the next one to issue (R104). -/
def Engine.consumption (e : Engine) : Nat × Nat :=
  match e.tiles with
  | t :: _ => (t.desc, t.row)
  | [] => (e.desc, e.row)

/-- The source of one descriptor's write tiles from tile `j` on: offset and number of tiles. -/
def TDesc.srcFrom (d : TDesc) (j : Nat) : List (Nat × Nat) :=
  if d.kind = 2 ∧ j < d.tiles then [(d.aux + 4096 * j, d.tiles - j)] else []

/-- The sources of the write tiles of a list from a row and tile of the descriptor at an offset, to the end or an error. -/
def State.listSrcs (s : State) (x : ReedRef) : Nat → Nat → Nat → Nat → List (Nat × Nat)
  | 0, _, _, _ => []
  | fuel + 1, off, row, idx =>
    match s.tongueDesc x true off with
    | .error _ => []
    | .ok d => d.srcFrom (row * d.inner + idx) ++ (if d.last then [] else State.listSrcs s x fuel (off + 32) 0 0)

/-- Leave out the first `n` tiles of source ranges. -/
def dropTiles : Nat → List (Nat × Nat) → List (Nat × Nat)
  | _, [] => []
  | n, (a, m) :: l => if n < m then (a + 4096 * n, m - n) :: l else dropTiles (n - m) l

/-- The first `n` tiles of source ranges. -/
def takeTiles : Nat → List (Nat × Nat) → List (Nat × Nat)
  | _, [] => []
  | n, (a, m) :: l => if n = 0 then [] else if n ≤ m then [(a, n)] else (a, m) :: takeTiles (n - m) l

/-- The sources of the write tiles that engine A has not issued: those decoded, and, unless a descriptor has stopped it, those of
the descriptors that follow (R100, R107). -/
def State.unissuedSrcs (s : State) (x : ReedRef) : List (Nat × Nat) :=
  let e := (s.reed x).a
  let here := match e.cur with
    | some d => d.srcFrom (e.row * d.inner + e.idx)
    | none => []
  let rest := if e.err ≠ 0 ∨ e.allDecoded = true then []
    else if e.cur.isSome then s.listSrcs x 131072 e.nextOff 0 0
    else s.listSrcs x 131072 e.desc e.row e.idx
  if e.active && !e.done then dropTiles (e.issuedW - e.wnum) (here ++ e.ahead.flatMap (fun d => d.srcFrom 0) ++ rest) else []

/-- Whether engine A can still issue a permitted write tile (R139, FENCE). A permitted write tile behind reads that wait for free
slots counts as one the engine can issue (DESIGN CHOICE, log entry 183). -/
def State.canWrite (s : State) (x : ReedRef) : Bool :=
  let e := (s.reed x).a
  e.enable && decide (0 < e.permits) && !(s.unissuedSrcs x).isEmpty

/-- Every permitted write tile that the engine can issue has reached memory (R139). -/
def State.fenceDone (s : State) (x : ReedRef) : Bool := (s.reed x).a.writes.isEmpty && !s.canWrite x

/-- The source blocks of write tiles that have been permitted and not yet read (R142): offset and bytes. -/
def State.permittedSrcs (s : State) (x : ReedRef) : List (Nat × Nat) :=
  let e := (s.reed x).a
  e.writes.map (fun w => (w.src, 4096)) ++
    ((if e.permits = 0 then [] else takeTiles e.permits (s.unissuedSrcs x)).map (fun p => (p.1, 4096 * p.2)))

/-- Check one store of the core: as `sramCheck`, and it waits for a permitted write tile's source block (R142). -/
def State.storeCheck (s : State) (x : ReedRef) (a n align : Nat) : SramRes :=
  match s.sramCheck x true a n align with
  | .ok => if (s.permittedSrcs x).any (fun p => decide (a < p.1 + p.2) && decide (p.1 < a + n)) then .wait else .ok
  | other => other

/-! ### Commands -/

/-- TONGUE_ISSUE (R94, R96 to R100). -/
def execTongueIssue (x : ReedRef) (isA : Bool) (s : State) : Res := .next (s.tongueIssue x isA)

/-- TILE_LANDED (R95, R101, R140). -/
def execTileLanded (x : ReedRef) (isA : Bool) (num : Nat) (uncorrectable : Bool) (s : State) : Res :=
  .next (s.landTile x isA num uncorrectable)

/-- TONGUE_WRITE_DONE (R98, R139). -/
def execTongueWriteDone (x : ReedRef) (s : State) : Res := .next (s.writeDone x)

/-- TONGUE_FLUSH: a control write that sets `flush` (R107). -/
def execTongueFlush (who : Requester) (x : ReedRef) (isA : Bool) (value : Word) (s : State) : Res :=
  .next (s.gate who (Blk.reed.at x.die (17 * x.k + x.r) (engCtrl isA)) (fun s =>
    (s.engineCtrl who x isA (value ||| 2))))

/-- TONGUE_CFG_APPLY (R107). -/
def execTongueCfgApply (x : ReedRef) (isA : Bool) (s : State) : Res := .next (s.engineCfgApply x isA)

/-- TGO (R139, R141, R198). -/
def execTgo (x : RI) (s : State) : Res :=
  .next (runReed x { a := true, fn := true } s (fun s r =>
    let isA := decide (x.fn = 1)
    let e := r.eng isA
    let qb := s.qbase x.reed isA
    let pg := Blk.reed.at x.reed.die (17 * x.reed.k + x.reed.r) (engCtrl isA)
    if 2 ≤ x.fn then .exc s 0x01 0 0
    else if e.err ≠ 0 then .exc s 0x06 e.err 0
    else if e.active ∧ e.flushed = false then .exc s 0x02 0 0
    else if 2 ^ 22 < qb + 4096 * e.slots ∨ (List.range e.slots).any (fun i =>
        decide (s.reedBank x.reed (bits (qb + 4096 * i) 21 19) ≠ (0, 1))) then
      .exc (if qb + 4096 * e.slots ≤ 2 ^ 22 then s.cntAdd .reed x.reed.die (17 * x.reed.k + x.reed.r) 0x070 1 else s) 0x04 0 qb
    else
      let e' : Engine := { enable := true, slots := e.slots, look := e.look, cfgPend := e.cfgPend, active := true,
                           list := (r.sget x.a).toNat, desc := (r.sget x.a).toNat }
      .done (s.setFld pg 0 0 1) (r.setEng isA e')))

/-- A paged Horn descriptor of the reed is in progress: its engine A belongs to the Horn (R278). -/
def State.hornOwnsA (s : State) (x : ReedRef) : Bool :=
  match (SMap.get (fun _ => ({} : Horn)) s.horns (8 * x.die + x.k)).job with
  | some jb => decide (s.posOf x = some jb.pos)
  | none => false

/-- TWAIT (R101, R139 to R141, R278). -/
def execTwait (x : RI) (s : State) : Res :=
  .next (runReed x { d := true, a := true, fn := true } s (fun s r =>
    let isA := decide (x.fn = 1)
    let e := r.eng isA
    let k := (r.sget x.a).toNat
    if 2 ≤ x.fn then .exc s 0x01 0 0
    else if isA ∧ s.hornOwnsA x.reed then .exc s 0x02 0 0
    else if e.slots ≤ k then .exc s 0x02 0 0
    else match e.tiles[k]? with
      | some t =>
        if t.landed = false then .hold s r .tile
        else if t.poison then .exc s 0x07 0 0
        else .done s (r.sset x.d (BitVec.ofNat 64 t.slot))
      | none =>
        if k < e.tiles.length + e.readsLeft then .hold s r .tile
        else if e.err ≠ 0 then .exc s 0x06 e.err 0
        else if e.allDecoded ∨ e.active = false then .exc s 0x02 0 0
        else .hold s r .tile))

/-- Landed tiles at the head of the queue. -/
def Engine.landedPrefix (e : Engine) : Nat := (e.tiles.takeWhile (fun t => t.landed)).length

/-- TREL (R139, R141). Tiles are released in order, so where tiles have landed out of order only the landed ones at the head of
the queue count as "landed and unreleased"; and a W row of which a sweep has consumed a column and not the last is one that "a
stationary-activation sweep is consuming", between sweeps too (R130; DEDUCED, log entry 184). -/
def execTrel (x : RI) (s : State) : Res :=
  .next (runReed x { a := true, fn := true } s (fun s r =>
    let isA := decide (x.fn = 1)
    let e := r.eng isA
    let n := (r.sget x.a).toNat
    if 2 ≤ x.fn then .exc s 0x01 0 0
    else if isA ∧ s.hornOwnsA x.reed then .exc s 0x02 0 0
    else if e.landedPrefix < n then .exc s 0x02 0 0
    else if isA = false ∧ 0 < n ∧ e.col ≠ 0 then .exc s 0x02 0 0
    else
      let s1 := s.releaseTiles x.reed isA n
      .done s1 (s1.reed x.reed)))

/-- TPUT (R139, R142). -/
def execTput (x : RI) (s : State) : Res :=
  .next (runReed x { a := true } s (pureBody (fun r =>
    { r with a := if r.a.active then { r.a with permits := r.a.permits + (r.sget x.a).toNat } else r.a })))

/-- TSTAT (R108, R139). -/
def execTstat (x : RI) (s : State) : Res :=
  .next (runReed x { d := true, fn := true } s (fun s r =>
    if 2 ≤ x.fn then .exc s 0x01 0 0
    else .done s (r.sset x.d (BitVec.ofNat 64 (r.eng (decide (x.fn = 1))).status))))

/-- FENCE (R139). -/
def execFence (x : RI) (s : State) : Res :=
  .next (runReed x {} s (fun s r => if s.fenceDone x.reed then .done s r else .hold s r .fence))

/-- BAR: a FENCE, then the arrival at the barrier (R139, R143, R144). -/
def execBar (x : RI) (s : State) : Res :=
  .next (runReed x { fn := true } s (fun s r =>
    if 3 ≤ x.fn then .exc s 0x01 0 0
    else if s.fenceDone x.reed = false then .hold s r .fence
    else if (decide (x.fn = 2) && s.inPart r) || s.reeds.any (fun f => f.2.over && s.inScope x.reed x.fn f.1) then .exc s 0x08 0 0
    else .hold s r (.bar x.fn)))

/-- Whether every reed of the scope waits at a barrier of that scope (R143). -/
def State.barReady (s : State) (x : ReedRef) (scope : Nat) : Bool :=
  s.reeds.all (fun f => !(s.inScope x scope f.1) || !f.2.busy || decide (f.2.wait = .bar scope))

/-- A reed goes past the barrier it waits at. -/
def Reed.passBar (r : Reed) (scope : Nat) : Reed :=
  { r with wait := .none, pc := r.pc + 8, bars := SMap.upd (fun _ => 0) r.bars scope (· + 1) }

/-- BARRIER_RELEASE: when the last reed of the scope has arrived, the barrier completes for all its reeds at once
(R143, R155). -/
def State.releaseBar (s : State) (x : ReedRef) : State :=
  match (s.reed x).wait with
  | .bar sc =>
    if s.barReady x sc then
      { s with reeds := s.reeds.map (fun f =>
          if s.inScope x sc f.1 && decide (f.2.wait = .bar sc) then (f.1, f.2.passBar sc) else f) }
    else s
  | _ => s

/-- BARRIER_RELEASE (R143). -/
def execBarrierRelease (x : ReedRef) (s : State) : Res := .next (s.releaseBar x)

/-- A write of REED_ERR_STATUS: a 1 to exc_valid releases the reed for the next dispatch (R148, R150); a reserved bit that the
write sets is recorded after the bits it clears, so that the event stays (R13, R14). -/
def State.excClear (s : State) (who : Requester) (x : ReedRef) (v : Word) : State :=
  let a := Blk.reed.at x.die (17 * x.k + x.r) 0x01C
  let s0 := s.setReg a ((s.reg a) &&& ~~~ (v &&& 0x80000003))
  let s1 := if fieldW v 30 24 ≠ 0 ∨ fieldW v 7 2 ≠ 0 then s0.err who .reed a .reservedWrite else s0
  if fieldW v 31 31 = 1 ∧ (s.reed x).run = .stopped then s1.setReed x { s.reed x with run := .ended } else s1

/-- EXC_VALID_CLEAR (R148, R150). -/
def execExcValidClear (who : Requester) (x : ReedRef) (value : Word) (s : State) : Res := .next (s.gate who (Blk.reed.at x.die (17 * x.k + x.r) 0x01C) (fun s =>
    (s.excClear who x value)))

/-- ILLEGAL_INSTRUCTION: an undefined opcode at a running reed (R122); past the last instruction the fetch itself fails (R114). -/
def execIllegalInstruction (x : ReedRef) (s : State) : Res :=
  .next (if (s.reed x).run ≠ .running then s
    else if 8 * (s.reed x).ibuf.length ≤ (s.reed x).pc then s.fetchExc x
    else s.reedExc x 0x01 0 0)

/-- FETCH_PAST_END: the fetch from offset count * 8 (R114). -/
def execFetchPastEnd (x : ReedRef) (s : State) : Res :=
  .next (if (s.reed x).run = .running ∧ 8 * (s.reed x).ibuf.length ≤ (s.reed x).pc then s.fetchExc x else s)

end Sys2Proof.Machine
end

