-- ==== Sys2Proof/Machine/Horn.lean ====
section
/-! DEFINITION. The Horn's commands: the ring, descriptor checks, paged and dense attention, merge, append, backward
recomputation, errors and pre-emption (R269 to R299). -/
namespace Sys2Proof.Machine

/-- A Horn before its first command. -/
def Horn.blank (_ : Nat) : Horn := {}

/-- The Horn of a consort. -/
def State.horn (s : State) (die k : Nat) : Horn := SMap.get Horn.blank s.horns (8 * die + k)

/-- Replace a Horn. -/
def State.setHorn (s : State) (die k : Nat) (h : Horn) : State :=
  { s with horns := SMap.set Horn.blank s.horns (8 * die + k) h }

/-- A register of a Horn. -/
def hornReg (die k off : Nat) : Nat := Blk.horn.at die k off

/-- Add to a counter of a Horn. -/
def State.hornCnt (s : State) (die k off n : Nat) : State := if n = 0 then s else s.cntAdd .horn die k off n

/-- Count NaN inputs or scores and raise `nan` (R299). -/
def State.hornNan (s : State) (die k n : Nat) : State :=
  if n = 0 then s else (s.hornCnt die k 0x050 n).raise (hornReg die k 0) 1

/-! ### Reed SRAM and the ring (R270 to R274) -/

/-- The end of a piece of a Horn's work: a result, or a code of R291 with the state that has counted what the work met. -/
abbrev HornRes (α : Type) : Type := Except (Nat × State) α

/-- The banks of reed SRAM that `n` bytes at an offset touch. -/
def banksOf (off n : Nat) : List Nat :=
  (List.range 8).filter (fun b => decide (b * 2 ^ 19 < off + n) && decide (off < (b + 1) * 2 ^ 19))

/-- The bytes of reed SRAM that a Horn reaches, or none where a bank's owner refuses it (R197, R198). -/
def State.hornRange (s : State) (die k : Nat) (x : ReedRef) (off n : Nat) : Option (List Nat) :=
  if (banksOf off n).all (fun b => s.reedAdmits (.horn die k) none x b)
  then some ((List.range n).map (fun i => reedSram x (off + i))) else none

/-- A Horn's access waits for the banks that are being handed over to an owner that admits it (R200, R203). -/
def State.hornWaited (s : State) (die k : Nat) (x : ReedRef) (off n : Nat) : State :=
  if s.handover = [] then s
  else (banksOf off n).foldl (fun (t : State) b => if t.bankWaits (.horn die k) none (.reed x) b then t.handoverEnd (.reed x) b else t) s

/-- Read reed SRAM for a Horn, or the code of R291; what the read meets is counted (R198, R212, R213). -/
def State.hornRead (s : State) (die k : Nat) (x : ReedRef) (off n : Nat) : HornRes (List Byte × State) :=
  let t := s.hornWaited die k x off n
  match t.hornRange die k x off n with
  | none => .error (0x0A, t.bankRefused (.reed x))
  | some ps => if t.anyBad ps then .error (0x09, t.noteWords ps) else .ok (t.readPhys ps, t.noteWords ps)

/-- Write reed SRAM for a Horn, or the code of R291. -/
def State.hornWrite (s : State) (die k : Nat) (x : ReedRef) (off : Nat) (bs : List Byte) : HornRes State :=
  let t := s.hornWaited die k x off bs.length
  match t.hornRange die k x off bs.length with
  | none => .error (0x0A, t.bankRefused (.reed x))
  | some ps => if t.partialBad ps then .error (0x09, t.notePartial ps) else .ok ((t.notePartial ps).writePhys ps bs)

/-- Ring offset of a consort (R296). -/
def State.ringBase (s : State) (die k : Nat) : Nat := s.fld (hornReg die k 0x100) 21 12 * 4096

/-- A word of a ring, 0 where it cannot be read. -/
def State.ringWord (s : State) (die k : Nat) (x : ReedRef) (off : Nat) : Nat :=
  match s.hornRead die k x (s.ringBase die k + off) 4 with
  | .ok (bs, _) => leOf bs
  | .error _ => 0

/-- Count what the Horn's read of a part of a ring meets. -/
def State.ringSeen (s : State) (die k : Nat) (x : ReedRef) (off n : Nat) : State :=
  match s.hornRead die k x (s.ringBase die k + off) n with
  | .ok (_, t) => t
  | .error (_, t) => t

/-- Write a word of a ring where its bank admits it. -/
def State.setRingWord (s : State) (die k : Nat) (x : ReedRef) (off v : Nat) : State :=
  match s.hornWrite die k x (s.ringBase die k + off) (leBytes 4 v) with
  | .ok t => t
  | .error _ => s

/-- The reed at a logical position of a consort. -/
def State.reedAt (s : State) (die k pos : Nat) : Option ReedRef := (s.physOf die k pos).map (fun r => ⟨die, k, r⟩)

/-- The ring of a position is halted (R296). -/
def State.ringHalted (s : State) (die k pos : Nat) : Bool := s.rbit (hornReg die k 0x108) pos

/-- Record an error of a descriptor: fail word, done[31], halt, status and interrupt (R292, R298). -/
def State.hornFail (s : State) (die k pos slot code : Nat) : State :=
  let s1 := match s.reedAt die k pos with
    | none => s
    | some x =>
      (s.setRingWord die k x 0x408 (2 ^ 31 + code * 2 ^ 16 + slot)).setRingWord die k x 0x404
        (withBits (s.ringWord die k x 0x404) 31 31 1)
  let s2 := s1.setFld (hornReg die k 0x108) pos pos 1
  let st := hornReg die k 0x104
  let s3 := if s2.rbit st 30 then s2
    else (((s2.setFld st 30 30 1).setFld st 23 16 code).setFld st 12 8 pos).setFld st 3 0 slot
  let s4 := match s.reedAt die k pos with
    | none => s3
    | some x => if (s.reed x).busy then s3.stepCause (s.reed x).step 2 code 0 else s3
  s4.raise (hornReg die k 0) 0

/-- Clear the halt of a position and zero its post, done and fail words (R274, R296). -/
def State.ringInit (s : State) (die k pos : Nat) : State :=
  let h := s.horn die k
  let s1 := (s.setFld (hornReg die k 0x108) pos pos 0).setHorn die k
    { h with seen := SMap.set (fun _ => 0) h.seen pos 0, stopped := h.stopped.filter (fun p => decide (p ≠ pos))
             cut := h.cut.filter (fun p => decide (p ≠ pos)) }
  match s1.reedAt die k pos with
  | none => s1
  | some x => ((s1.setRingWord die k x 0x400 0).setRingWord die k x 0x404 0).setRingWord die k x 0x408 0

/-- Posts of a position that the Horn has seen. -/
def Horn.seenAt (h : Horn) (pos : Nat) : Nat := SMap.get (fun _ => 0) h.seen pos

/-- Descriptors seen and not completed, by serial-number arithmetic: none where the post lies behind (R271). -/
def State.ringLeft (s : State) (die k pos : Nat) : Nat :=
  match s.reedAt die k pos with
  | none => 0
  | some x =>
    let n := ((s.horn die k).seenAt pos + 2 ^ 24 - s.ringWord die k x 0x404 % 2 ^ 24) % 2 ^ 24
    if 2 ^ 23 ≤ n then 0 else n

/-- The Horn sees a post: an overrun halts the ring (R271). -/
def State.hornPost (s : State) (die k pos : Nat) : State :=
  match s.reedAt die k pos with
  | none => s
  | some x =>
    let h := s.horn die k
    let s1 := (s.ringSeen die k x 0x400 4).setHorn die k
      { h with seen := SMap.set (fun _ => 0) h.seen pos (s.ringWord die k x 0x400 % 2 ^ 24) }
    if 16 < s1.ringLeft die k pos ∧ s1.ringHalted die k pos = false then
      s1.hornFail die k pos (s1.ringWord die k x 0x404 % 16) 0x04
    else s1

/-- The reed of a position is pre-empted, or the Horn has stopped for it (R293, R294). -/
def State.ringStopped (s : State) (die k pos : Nat) : Bool :=
  (s.horn die k).stopped.contains pos ||
    (match s.reedAt die k pos with
     | some x => decide ((s.reed x).run = .preempted)
     | none => false)

/-- The position served next, in rotation after the one served last (R273); a descriptor of a pre-empted reed stays in its ring
(R294). -/
def State.hornNext (s : State) (die k : Nat) : Option Nat :=
  let h := s.horn die k
  ((List.range 16).map (fun i => (h.last + i) % 16)).find? (fun p =>
    !s.ringHalted die k p && !s.ringStopped die k p && decide (s.ringLeft die k p ≠ 0))

/-! ### Descriptors (R275, R276) -/

/-- The descriptor of 64 bytes. -/
def hdescOf (v : Nat) : HDesc :=
  let f (off n : Nat) : Nat := v / 256 ^ off % 256 ^ n
  { op := f 0 1, flags := f 1 1, kvFmt := f 2 1, outFmt := f 3 1, heads := f 4 1, qPerKv := f 5 1, width := f 6 2
    nQ := f 8 2, grain := f 10 1, rsvd := f 11 1, ctxFirst := f 12 4, ctxCount := f 16 4, qPos0 := f 20 4
    window := f 24 4, scale := BitVec.ofNat 32 (f 28 4), list := f 32 8, qOff := f 40 4, srcOff := f 44 4
    outOff := f 48 4, statsOff := f 52 4, scratchOff := f 56 4, nNew := f 60 2, progress := f 62 2 }

/-- The descriptor appends. -/
def HDesc.appends (d : HDesc) : Bool := decide (d.op = 3) || (decide (d.op = 0) && bit d.flags 1)
/-- n_new, where the op uses it. -/
def HDesc.new (d : HDesc) : Nat := if d.op = 0 ∧ d.appends = false then 0 else d.nNew
/-- Query rows. -/
def HDesc.rows (d : HDesc) : Nat := if d.op = 3 then 0 else d.nQ * d.heads * d.qPerKv
/-- partial_out. -/
def HDesc.part (d : HDesc) : Bool := bit d.flags 2 && decide (d.op ≤ 2)
/-- Statistics are written. -/
def HDesc.saves (d : HDesc) : Bool := bit d.flags 3 && !d.part && decide (d.op ≤ 2)
/-- Bytes of a partial record. -/
def HDesc.recBytes (d : HDesc) : Nat := 8 + 4 * d.width

/-- An area of reed SRAM is aligned and lies within it (R275). -/
def areaOk (off n : Nat) : Bool := decide (off % 64 = 0) && decide (off + n ≤ 2 ^ 22)

/-- The areas a descriptor names, with their sizes (R275 to R277). -/
def HDesc.areas (d : HDesc) : List (Nat × Nat) :=
  let kv := d.new * d.heads * d.width
  (if d.appends then [(d.srcOff, 8 * kv)]
   else if d.op = 1 then [(d.srcOff, 4 * kv)]
   else if d.op = 2 then [(d.srcOff, d.nNew * d.rows * d.recBytes)]
   else if d.op = 4 then [(d.srcOff, 32)] else []) ++
  (if d.op = 0 ∨ d.op = 1 ∨ d.op = 4 then [(d.qOff, d.rows * d.width * 4), (d.scratchOff, d.rows * 512)] else []) ++
  (if d.op ≤ 2 then [(d.outOff, d.rows * d.recBytes)] else []) ++
  (if d.saves ∨ d.op = 4 then [(d.statsOff, d.rows * 8)] else [])

/-- The request whose KV a descriptor appends to. -/
def State.hornOwner (s : State) (x : ReedRef) (d : HDesc) : Option (Nat × KvMap × Stretch × Nat) :=
  if d.appends then s.listOwner x.die (s.reed x).step d.list d.ctxFirst else none

/-- The checks made before anything is written, with their codes (R275, R276, R291). -/
def State.hornCheck (s : State) (x : ReedRef) (d : HDesc) : Option Nat :=
  let app := d.appends
  let q := decide (d.op ≠ 3)
  if d.rsvd ≠ 0 ∨ bits d.flags 7 5 ≠ 0 ∨ bits d.kvFmt 7 2 ≠ 0 then some 0x01
  else if 4 < d.op ∨ (d.op ≤ 2 ∧ d.part = false ∧ (d.outFmt < 5 ∨ 7 < d.outFmt)) ∨
      ((d.op = 0 ∨ d.op = 3) ∧ d.kvFmt = 3) ∨ ((d.op = 1 ∨ d.op = 4) ∧ d.kvFmt ≠ 0) ∨
      d.heads = 0 ∨ 64 < d.heads ∨ (q ∧ (d.qPerKv = 0 ∨ 64 < d.qPerKv ∨ d.nQ = 0 ∨ 2048 < d.nQ)) ∨
      d.width % 32 ≠ 0 ∨ d.width < 32 ∨ 512 < d.width ∨ 2048 < d.rows ∨ 8192 < d.heads * d.width ∨
      (app ∧ 256 < d.nNew) ∨ ((d.op = 1 ∨ d.op = 4) ∧ 4096 < d.nNew) ∨ (d.op = 2 ∧ 128 < d.nNew) ∨
      ((d.op = 0 ∨ d.op = 3) ∧ (d.grain < 13 ∨ 18 < d.grain)) ∨
      ((d.op = 1 ∨ d.op = 4) ∧ (d.ctxCount ≠ d.nNew ∨ d.ctxFirst ≠ 0)) ∨
      (d.op = 0 ∧ app ∧ (d.nQ ≠ d.nNew ∨ d.qPos0 ≠ d.ctxFirst + d.ctxCount)) then some 0x02
  else if 2 ^ 20 < d.rows * (d.width + 2) * 4 ∨ d.areas.all (fun a => areaOk a.1 a.2) = false then some 0x03
  else if (d.op = 0 ∨ d.op = 3) ∧ (d.ctxFirst % 2 ^ d.grain ≠ 0 ∨ 2 ^ d.grain < d.ctxCount + d.new) then some 0x05
  else if app ∧ s.beyond (s.hornOwner x d) (d.ctxFirst + d.ctxCount) (d.ctxFirst + d.ctxCount + d.nNew) then some 0x07
  else none

/-! ### Pages (R257, R258) -/

/-- Bits of a stored element of a KV format. -/
def kvBits (fmt : Nat) : Nat := if fmt = 0 then 16 else if fmt = 1 then 8 else 4
/-- Tiles of a scale section. -/
def HDesc.scaleTiles (d : HDesc) : Nat := if d.kvFmt = 0 then 0 else ceilDiv (128 * d.heads * (d.width / 32) * 2) 4096
/-- Tiles of an element section. -/
def HDesc.elemTiles (d : HDesc) : Nat := ceilDiv (128 * d.heads * d.width * kvBits d.kvFmt) 32768
/-- Tiles per page (R258). -/
def HDesc.pageTiles (d : HDesc) : Nat := 2 * (d.scaleTiles + d.elemTiles)
/-- Offset of the scale section of keys or values. -/
def HDesc.scaleOff (d : HDesc) (isV : Bool) : Nat := if isV then 4096 * (d.scaleTiles + d.elemTiles) else 0
/-- Offset of the element section of keys or values. -/
def HDesc.elemOff (d : HDesc) (isV : Bool) : Nat := d.scaleOff isV + 4096 * d.scaleTiles

/-- Element `e` of head `h`, slot `t` of a page held in a buffer, as FP32 (R257, R268). -/
def pageElem (d : HDesc) (buf : Memory) (isV : Bool) (h t e : Nat) : Word :=
  let i := (h * 128 + t) * d.width + e
  let o := d.elemOff isV
  let code := if d.kvFmt = 0 then buf.le (o + 2 * i) 2
    else if d.kvFmt = 1 then buf.le (o + i) 1 else buf.le (o + i / 2) 1 / 16 ^ (i % 2) % 16
  kvValue d.kvFmt code (buf.le (d.scaleOff isV + 2 * ((h * 128 + t) * (d.width / 32) + e / 32)) 2)

/-- One head of one slot. -/
def pageHead (d : HDesc) (buf : Memory) (isV : Bool) (h t : Nat) : List Word :=
  (List.range d.width).map (fun e => pageElem d buf isV h t e)

/-! ### Append (R266, R285, R287) -/

/-- FP32 words of a list of bytes. -/
def words32 (bs : List Byte) : Nat → List Word
  | 0 => []
  | n + 1 => BitVec.ofNat 32 (leOf (bs.take 4)) :: words32 (bs.drop 4) n

/-- The page address that entry `j` of the descriptor's list names, or a code (R262, R287). -/
def State.appendPage (s : State) (die k : Nat) (part : Option Nat) (d : HDesc) (j : Nat) : HornRes (Nat × State) :=
  let at' := d.list + 8 * (j - d.ctxFirst / 128)
  let s1 := s.noteDev (.horn die k) part false at' 8
  match s.readLe (.horn die k) part at' 8 with
  | .error .refused => .error (0x0A, s1)
  | .error .uncorrectable => .error (0x09, s1)
  | .ok e =>
    let a := bits e 47 0
    if e / 2 ^ 48 ≠ 0 ∨ a % 4096 ≠ 0 then .error (0x06, s1)
    else if decide (a / chanterBytes = die ∧ a < 4 * chanterBytes) || decide (ownBase ≤ a ∧ a < ownBase + chanterBytes) then .ok (a, s1)
    else if (s.dramAt (some die) a).isSome then .error (0x06, s1)
    else .error (0x0A, s1)

/-- The pages of an append, every one checked. -/
def State.appendPages (s : State) (die k : Nat) (part : Option Nat) (d : HDesc) (j0 : Nat) : Nat → HornRes (List Nat × State)
  | 0 => .ok ([], s)
  | n + 1 =>
    match State.appendPages s die k part d j0 n with
    | .error c => .error c
    | .ok (ps, s1) =>
      match s1.appendPage die k part d (j0 + n) with
      | .error c => .error c
      | .ok (p, s2) => .ok (ps ++ [p], s2)

/-- The bytes of 32 element codes. -/
def packGroup (fmt : Nat) (codes : List Nat) : List Byte :=
  if fmt = 0 then codes.flatMap (fun c => leBytes 2 c)
  else if fmt = 1 then codes.map (fun c => BitVec.ofNat 8 c)
  else (List.range (codes.length / 2)).map (fun i => BitVec.ofNat 8 (codes.getD (2 * i) 0 + 16 * codes.getD (2 * i + 1) 0))

/-- What one append stores: the writes, the FP32 values that enter attention, and the NaN inputs replaced. -/
structure Appended where
  writes : List (Nat × List Byte) := []
  fresh : List Word := []
  nans : Nat := 0
  deriving DecidableEq, Repr

/-- One group of an append: token `u`, key or value, head `h`, group `g`. -/
def appendGroup (d : HDesc) (pages : List Nat) (src : List Word) (u : Nat) (isV : Bool) (h g : Nat) (acc : Appended) : Appended :=
  let t := d.ctxFirst + d.ctxCount + u
  let page := pages.getD (t / 128 - (d.ctxFirst + d.ctxCount) / 128) 0
  let base := ((b2n isV * d.nNew + u) * d.heads + h) * d.width + 32 * g
  let r := storeGroup d.kvFmt ((src.drop base).take 32)
  let i := (h * 128 + t % 128) * d.width + 32 * g
  { writes := acc.writes ++ [(page + d.elemOff isV + i * kvBits d.kvFmt / 8, packGroup d.kvFmt r.1)] ++
      (if d.kvFmt = 0 then []
       else [(page + d.scaleOff isV + 2 * ((h * 128 + t % 128) * (d.width / 32) + g), leBytes 2 r.2.1)])
    fresh := acc.fresh ++ r.1.map (fun c => kvValue d.kvFmt c r.2.1)
    nans := acc.nans + r.2.2 }

/-- Every group of an append: values follow keys as R277 lays the source out, tokens in order. -/
def appendAll (d : HDesc) (pages : List Nat) (src : List Word) : Appended :=
  let per := d.heads * (d.width / 32)
  (List.range (2 * d.nNew * per)).foldl (fun acc i =>
    appendGroup d pages src (i / per % d.nNew) (decide (d.nNew * per ≤ i)) (i % per / (d.width / 32)) (i % (d.width / 32)) acc) {}

/-- What a descriptor's append will store, or a code; NaN inputs are counted as they are replaced (R266). -/
def State.appendOf (s : State) (die k : Nat) (x : ReedRef) (d : HDesc) : HornRes (Appended × State) :=
  let j0 := (d.ctxFirst + d.ctxCount) / 128
  let n := if d.nNew = 0 then 0 else (d.ctxFirst + d.ctxCount + d.nNew - 1) / 128 + 1 - j0
  match s.appendPages die k (s.reed x).part d j0 n with
  | .error c => .error c
  | .ok (pages, s1) =>
    match s1.hornRead die k x d.srcOff (8 * d.nNew * d.heads * d.width) with
    | .error c => .error c
    | .ok (bs, s2) =>
      let a := appendAll d pages (words32 bs (2 * d.nNew * d.heads * d.width))
      .ok (a, s2.hornNan die k a.nans)

/-- Write a list of pieces to device memory, or a code. -/
def State.hornDram (s : State) (die k : Nat) (x : ReedRef) : List (Nat × List Byte) → HornRes State
  | [] => .ok s
  | w :: ws =>
    match s.xlat (.horn die k) (s.reed x).part true w.1 w.2.length with
    | none => .error (0x0A, s.noteDev (.horn die k) (s.reed x).part true w.1 w.2.length)
    | some ps =>
      if s.partialBad ps then .error (0x09, s.notePartial ps)
      else State.hornDram (((s.notePartial ps).writePhys ps w.2).mirror (s.reed x).step w.1 w.2) die k x ws

/-- Store an append, count its tokens, and note what the layer's list holds now (R285, R287, R292). -/
def State.hornStore (s : State) (die k : Nat) (x : ReedRef) (d : HDesc) (a : Appended) : HornRes State :=
  match s.hornDram die k x a.writes with
  | .error c => .error c
  | .ok t => .ok ((t.hornCnt die k 0x048 d.nNew).noteAppend (s.reed x).step (s.hornOwner x d) (d.ctxFirst + d.ctxCount + d.nNew))

/-! ### Outputs (R277, R281, R282) -/

/-- A partial record. -/
def HRow.record (r : HRow) (w : Nat) : List Byte :=
  leBytes 4 r.m.toNat ++ leBytes 4 r.l.toNat ++ (List.range w).flatMap (fun e => leBytes 4 (r.o.getD e 0).toNat)

/-- The rows of partial records. -/
def rowsOf (bs : List Byte) (w : Nat) : Nat → List HRow
  | 0 => []
  | n + 1 =>
    let r : HRow := { m := BitVec.ofNat 32 (leOf (bs.take 4)), l := BitVec.ofNat 32 (leOf ((bs.drop 4).take 4)),
                      o := words32 (bs.drop 8) w }
    r :: rowsOf (bs.drop (8 + 4 * w)) w n

/-- Bytes of an output element. -/
def HDesc.outBytes (d : HDesc) : Nat := fmtBits d.outFmt / 8

/-- Write the results of the rows (R277, R281, R282). -/
def State.hornOutput (s : State) (die k : Nat) (x : ReedRef) (d : HDesc) (rows : List HRow) : HornRes State :=
  let out := if d.part then rows.flatMap (fun r => r.record d.width)
    else rows.flatMap (fun r => (List.range d.width).flatMap (fun e => leBytes d.outBytes (r.out d e)))
  match s.hornWrite die k x d.outOff out with
  | .error c => .error c
  | .ok s1 =>
    let s2 := s1.hornCnt die k 0x058 (rows.countP (fun r => r.empty))
    if d.saves then
      s2.hornWrite die k x d.statsOff (rows.flatMap (fun r => leBytes 4 r.stats.1.toNat ++ leBytes 4 r.stats.2.toNat))
    else .ok s2

/-- A matrix of FP32 rows in reed SRAM. -/
def State.hornMat (s : State) (die k : Nat) (x : ReedRef) (off rows w : Nat) : HornRes (List (List Word) × State) :=
  match s.hornRead die k x off (rows * w * 4) with
  | .error c => .error c
  | .ok (bs, t) => .ok ((List.range rows).map (fun r => words32 (bs.drop (r * w * 4)) w), t)

/-- Query rows of a descriptor. -/
def State.hornQueries (s : State) (die k : Nat) (x : ReedRef) (d : HDesc) : HornRes (List (List Word) × State) :=
  s.hornMat die k x d.qOff d.rows d.width

/-- Head of a row and position of a row (R277). -/
def HDesc.headOf (d : HDesc) (r : Nat) : Nat := r / d.qPerKv % d.heads
/-- Absolute position of a row. -/
def HDesc.posOf (d : HDesc) (r : Nat) : Nat := d.qPos0 + r / (d.heads * d.qPerKv)

/-- Write a row's slice of the score scratch, each token's word at its slot of the page (R280). -/
def State.hornScratch (s : State) (die k : Nat) (x : ReedRef) (off : Nat) : List (Nat × Word) → HornRes State
  | [] => .ok s
  | p :: ps =>
    match s.hornWrite die k x (off + 4 * (p.1 % 128)) (leBytes 4 p.2.toNat) with
    | .error c => .error c
    | .ok t => State.hornScratch t die k x off ps

/-- Fold one page of tokens into the rows from row `r` on (R280). `toks h` are the page's tokens as head `h` has them. -/
def State.foldFrom (s : State) (die k : Nat) (x : ReedRef) (d : HDesc) (qs : List (List Word)) (toks : Nat → List HTok) :
    Nat → List HRow → HornRes (State × List HRow)
  | _, [] => .ok (s, [])
  | r, row :: rows =>
    let (row', ps, nans) := foldPage d (qs.getD r []) (d.posOf r) (toks (d.headOf r)) row
    match (s.hornNan die k nans).hornScratch die k x (d.scratchOff + 512 * r) ps with
    | .error c => .error c
    | .ok t =>
      match State.foldFrom t die k x d qs toks (r + 1) rows with
      | .error c => .error c
      | .ok (u, rs) => .ok (u, row' :: rs)

/-- Fold one page of tokens into every row, and count the page (R280, R296). -/
def State.foldRows (s : State) (die k : Nat) (x : ReedRef) (d : HDesc) (qs : List (List Word)) (toks : Nat → List HTok)
    (rows : List HRow) : HornRes (State × List HRow) :=
  match s.foldFrom die k x d qs toks 0 rows with
  | .error c => .error c
  | .ok (t, rs) => .ok (t.hornCnt die k 0x040 1, rs)

/-! ### Ending a descriptor -/

/-- The busy bit of HORN_STATUS. -/
def State.hornBusy (s : State) (die k : Nat) (b : Bool) (pos : Nat) : State :=
  let s1 := s.setFld (hornReg die k 0x104) 31 31 (b2n b)
  if b && !s1.rbit (hornReg die k 0x104) 30 then s1.setFld (hornReg die k 0x104) 12 8 pos else s1

/-- The Horn leaves a descriptor of a position. -/
def State.hornLeave (s : State) (die k pos : Nat) : State :=
  let h := s.horn die k
  (s.setHorn die k { h with last := (pos + 1) % 16, job := none, cut := h.cut.filter (fun p => decide (p ≠ pos)) }).hornBusy die k false pos

/-- Complete a descriptor: done advances after everything is written (R272). -/
def State.hornDone (s : State) (die k pos : Nat) : State :=
  match s.reedAt die k pos with
  | none => s
  | some x =>
    let w := s.ringWord die k x 0x404
    ((s.setRingWord die k x 0x404 (withBits w 23 0 (w % 2 ^ 24 + 1))).hornCnt die k 0x038 1).hornLeave die k pos

/-- The pages of an append as far as the page list leads to them. -/
def State.undefinedPages (s : State) (die k : Nat) (part : Option Nat) (d : HDesc) (j0 n : Nat) : List (Option Nat) :=
  (List.range n).map (fun i => match s.appendPage die k part d (j0 + i) with
    | .ok (p, _) => some p
    | .error _ => none)

/-- The bytes that an append stores to in the pages that are known: device addresses and sizes (R257, R285). -/
def HDesc.slotRanges (d : HDesc) (pages : List (Option Nat)) : List (Nat × Nat) :=
  (List.range d.nNew).flatMap (fun u =>
    let t := d.ctxFirst + d.ctxCount + u
    match pages.getD (t / 128 - (d.ctxFirst + d.ctxCount) / 128) none with
    | none => []
    | some p => (List.range d.heads).flatMap (fun h => [false, true].flatMap (fun isV =>
        let row := h * 128 + t % 128
        (p + d.elemOff isV + row * d.width * kvBits d.kvFmt / 8, d.width * kvBits d.kvFmt / 8) ::
          (if d.kvFmt = 0 then [] else [(p + d.scaleOff isV + 2 * (row * (d.width / 32)), d.width / 32 * 2)]))))

/-- Leave an area of reed SRAM undefined. -/
def State.hornArea (s : State) (die k : Nat) (x : ReedRef) (off n : Nat) : State :=
  match s.hornRange die k x off n with
  | some ps => s.undefine ps
  | none => s

/-- Leave undefined what a late failure leaves undefined: the output area (the gradients of op 4), the statistics, and the
appended slots as far as the page list leads to them (R289, R292). -/
def State.hornUndefine (s : State) (die k : Nat) (x : ReedRef) (d : HDesc) : State :=
  let s1 := if d.op ≤ 2 then s.hornArea die k x d.outOff (d.rows * d.recBytes) else s
  let s2 := if d.saves then s1.hornArea die k x d.statsOff (d.rows * 8) else s1
  if d.op = 4 then
    (match s.hornRead die k x d.srcOff 32 with
     | .error _ => s2
     | .ok (pb, _) =>
       let f (i : Nat) : Nat := leOf ((pb.drop (4 * i)).take 4)
       let kv := d.nNew * d.heads * d.width
       ((s2.hornArea die k x (f 3) (d.rows * d.width * 4)).hornArea die k x (f 4) (4 * kv)).hornArea die k x (f 5) (4 * kv))
  else if d.appends then
    let j0 := (d.ctxFirst + d.ctxCount) / 128
    let n := if d.nNew = 0 then 0 else (d.ctxFirst + d.ctxCount + d.nNew - 1) / 128 + 1 - j0
    (d.slotRanges (s.undefinedPages die k (s.reed x).part d j0 n)).foldl (fun t w =>
      match t.xlat (.horn die k) (s.reed x).part true w.1 w.2 with
      | some ps => t.undefine ps
      | none => t) s2
  else s2

/-- Fail a descriptor with a code; from 0x08 on the failure is a late one (R291, R292). -/
def State.hornError (s : State) (die k pos : Nat) (x : ReedRef) (d : HDesc) (slot code : Nat) : State :=
  let s1 := if 0x08 ≤ code then s.hornUndefine die k x d else s
  (s1.hornFail die k pos slot code).hornLeave die k pos

/-! ### Paged attention (R278 to R281, R285, R293) -/

/-- What the Horn meets when it needs the next tile of engine A. -/
inductive TileRes where
  | got (bs : List Byte) (s : State)
  | wait
  | fail (e : Nat × State)
  deriving Repr

/-- Take and release the oldest tile of the posting reed's engine A (R278): its slot is reed SRAM, whose bank and words the access
meets (R291). -/
def State.hornTile (s : State) (die k : Nat) (x : ReedRef) : TileRes :=
  let r := s.reed x
  match r.a.tiles with
  | t :: _ =>
    if t.landed = false then .wait
    else if t.poison then .fail (0x09, s)
    else (match s.hornRead die k x t.slot 4096 with
      | .error e => .fail e
      | .ok (bs, u) => .got bs (u.releaseTiles x true 1))
  | [] =>
    if r.a.enable = false ∨ r.a.err ≠ 0 ∨ r.a.active = false ∨ r.a.done ∨ r.over then .fail (0x08, s) else .wait

/-- Pages of the range that tokens lie in, and those that engine A delivers. -/
def HDesc.pages (d : HDesc) : Nat := ceilDiv (d.ctxCount + d.new) 128
/-- Pages read through the engine. -/
def HDesc.readPages (d : HDesc) : Nat := ceilDiv d.ctxCount 128

/-- The tokens of page `j` of a job for head `h`: stored ones from the buffer, appended ones from the append. -/
def HornJob.toks (jb : HornJob) (j h : Nat) : List HTok :=
  let d := jb.d
  (List.range (min 128 (d.ctxCount + d.new - 128 * j))).map (fun i =>
    let n := 128 * j + i
    let slot := (d.ctxFirst + n) % 128
    if n < d.ctxCount then
      { t := d.ctxFirst + n, k := pageHead d jb.buf false h slot, v := pageHead d jb.buf true h slot }
    else
      let f (isV : Bool) : List Word :=
        (jb.fresh.drop (((b2n isV * d.nNew + (n - d.ctxCount)) * d.heads + h) * d.width)).take d.width
      { t := d.ctxFirst + n, k := f false, v := f true })

/-- Pages, blocks or parts that a descriptor works through (R280, R283, R293). -/
def HDesc.total (d : HDesc) : Nat := if d.op = 0 then d.pages else if d.op = 1 then ceilDiv d.nNew 128 else d.nNew

/-- The job in progress goes on later. -/
def State.hornKeep (s : State) (die k : Nat) (jb : HornJob) : State := s.setHorn die k { s.horn die k with job := some jb }

/-- The Horn has stopped for a pre-empted position. -/
def State.hornHalted (s : State) (die k pos : Nat) : State :=
  let h := s.horn die k
  if h.stopped.contains pos then s else s.setHorn die k { h with stopped := pos :: h.stopped }

/-- A job fails. -/
def State.hornBreak (die k : Nat) (x : ReedRef) (jb : HornJob) (e : Nat × State) : State :=
  e.2.hornError die k jb.pos x jb.d jb.slot e.1

/-- Stop at a page, block or part for a pre-emption: row states and progress are written, done stays (R293). -/
def State.hornStop (s : State) (die k : Nat) (x : ReedRef) (jb : HornJob) : State :=
  let d := jb.d
  let s1 := match s.hornWrite die k x d.outOff ((s.horn die k).rows.flatMap (fun r => r.record d.width)) with
    | .ok t => t
    | .error (_, t) => t
  let s2 := ((s1.setRingWord die k x (64 * jb.slot + 60) (d.nNew + 2 ^ 16 * jb.page)).hornLeave die k jb.pos).hornHalted die k jb.pos
  s2.setHorn die k { s2.horn die k with cut := jb.pos :: (s2.horn die k).cut }

/-- The last page, block or part is folded: the results are written and done advances. -/
def State.hornFinish (s : State) (die k : Nat) (x : ReedRef) (jb : HornJob) : State :=
  match s.hornOutput die k x jb.d (s.horn die k).rows with
  | .error e => State.hornBreak die k x jb e
  | .ok t =>
    let t1 := t.hornDone die k jb.pos
    if jb.stopping then t1.hornHalted die k jb.pos else t1

/-- The scale buffer after tile `i` of a page (R278): a scale tile is copied to its place in its section. -/
def HDesc.scalesWith (d : HDesc) (sc : Memory) (i : Nat) (bs : List Byte) : Memory :=
  let j := i % (d.scaleTiles + d.elemTiles)
  if j < d.scaleTiles then sc.setBytes (4096 * j) bs else sc

/-- Go on with a paged descriptor as far as its tiles allow. -/
def State.hornGo (s : State) (die k : Nat) (x : ReedRef) (qs : List (List Word)) : Nat → HornJob → State
  | 0, jb => s.hornKeep die k jb
  | n + 1, jb =>
    let d := jb.d
    if jb.stopping ∧ jb.tiles = 0 ∧ jb.page < d.pages then s.hornStop die k x jb
    else if d.pages ≤ jb.page then s.hornFinish die k x jb
    else if jb.page < d.readPages ∧ jb.tiles < d.pageTiles then
      match s.hornTile die k x with
      | .wait => s.hornKeep die k jb
      | .fail e => State.hornBreak die k x jb e
      | .got bs t =>
        let h := t.horn die k
        State.hornGo (t.setHorn die k { h with scales := d.scalesWith h.scales jb.tiles bs }) die k x qs n
          { jb with tiles := jb.tiles + 1, buf := jb.buf.setBytes (4096 * jb.tiles) bs }
    else
      match s.foldRows die k x d qs (fun h => jb.toks jb.page h) (s.horn die k).rows with
      | .error e => State.hornBreak die k x jb e
      | .ok (t, rows) =>
        State.hornGo (t.setHorn die k { t.horn die k with rows := rows }) die k x qs n
          { jb with page := jb.page + 1, tiles := 0, buf := [] }

/-- Steps that one command can take: every tile that has landed and every page. -/
def hornFuel (s : State) (x : ReedRef) (d : HDesc) : Nat := (s.reed x).a.tiles.length + d.pages + 2

/-- Dense keys or values, FP16: token `t` of head `h` (R277). -/
def denseHead (src : List Byte) (d : HDesc) (isV : Bool) (h t : Nat) : List Word :=
  (List.range d.width).map (fun e =>
    toFp32 false (fFP16.decode (leOf ((src.drop (2 * ((b2n isV * d.nNew * d.heads + h * d.nNew + t) * d.width + e))).take 2))))

/-- Read pieces of reed SRAM one after the other. -/
def State.hornReads (s : State) (die k : Nat) (x : ReedRef) : List (Nat × Nat) → HornRes (List (List Byte) × State)
  | [] => .ok ([], s)
  | a :: l =>
    match s.hornRead die k x a.1 a.2 with
    | .error e => .error e
    | .ok (bs, t) =>
      match State.hornReads t die k x l with
      | .error e => .error e
      | .ok (bss, u) => .ok (bs :: bss, u)

/-- Fold block `j` of dense keys and values, 128 tokens from token 128j (R280). -/
def State.denseBlock (s : State) (die k : Nat) (x : ReedRef) (d : HDesc) (j : Nat) : HornRes (State × List HRow) :=
  let n := min 128 (d.nNew - 128 * j)
  let piece (isV : Bool) (h : Nat) : Nat × Nat :=
    (d.srcOff + 2 * ((b2n isV * d.nNew * d.heads + h * d.nNew + 128 * j) * d.width), 2 * n * d.width)
  let hs := List.range d.heads
  match s.hornQueries die k x d, s.hornReads die k x (hs.map (piece false) ++ hs.map (piece true)) with
  | .error e, _ => .error e
  | _, .error e => .error e
  | .ok (qs, _), .ok (bss, t) =>
    let row (i m : Nat) : List Word := (List.range d.width).map (fun e =>
      toFp32 false (fFP16.decode (leOf (((bss.getD i []).drop (2 * (m * d.width + e))).take 2))))
    t.foldRows die k x d qs (fun h => (List.range n).map (fun m => { t := 128 * j + m, k := row h m, v := row (d.heads + h) m }))
      (t.horn die k).rows

/-- Merge part `p` into the rows (R283). -/
def State.mergeBlock (s : State) (die k : Nat) (x : ReedRef) (d : HDesc) (p : Nat) : HornRes (State × List HRow) :=
  let n := d.rows * d.recBytes
  match s.hornRead die k x (d.srcOff + p * n) n with
  | .error e => .error e
  | .ok (bs, t) => .ok (t, List.zipWith mergePart (t.horn die k).rows (rowsOf bs d.width d.rows))

/-- Go on with a dense or merge descriptor for at most `n` blocks or parts; the last one ends it (R280, R283). -/
def State.blockGo (s : State) (die k : Nat) (x : ReedRef) : Nat → HornJob → State
  | 0, jb =>
    if jb.d.total ≤ jb.page then s.hornFinish die k x jb
    else if jb.stopping then s.hornStop die k x jb else s.hornKeep die k jb
  | n + 1, jb =>
    if jb.d.total ≤ jb.page then s.hornFinish die k x jb
    else if jb.stopping then s.hornStop die k x jb
    else match (if jb.d.op = 1 then s.denseBlock die k x jb.d jb.page else s.mergeBlock die k x jb.d jb.page) with
      | .error e => State.hornBreak die k x jb e
      | .ok (t, rows) => State.blockGo (t.setHorn die k { t.horn die k with rows := rows }) die k x n { jb with page := jb.page + 1 }

/-- Go on with the job in progress: a paged one as far as its tiles allow, another for `n` blocks or parts, or to its end. -/
def State.hornResume (s : State) (die k : Nat) (n : Option Nat) (jb : HornJob) : State :=
  match s.reedAt die k jb.pos with
  | none => s
  | some x =>
    if jb.d.op = 0 then
      (match s.hornQueries die k x jb.d with
       | .error e => State.hornBreak die k x jb e
       | .ok (qs, _) => s.hornGo die k x qs (hornFuel s x jb.d) jb)
    else s.blockGo die k x (n.getD (jb.d.total + 1)) jb

/-- Begin a job: its rows are new, or the states that a pre-emption has written (R293). -/
def State.hornBegin (s : State) (die k : Nat) (x : ReedRef) (n : Option Nat) (jb : HornJob) : State :=
  let d := jb.d
  let go (u : State) (rows : List HRow) : State :=
    (u.setHorn die k { u.horn die k with rows := rows, job := some jb }).hornResume die k n jb
  let seen := if d.op = 2 then .ok ([], s) else s.hornQueries die k x d
  match seen with
  | .error e => State.hornBreak die k x jb e
  | .ok (_, s1) =>
    if d.progress = 0 then go s1 (List.replicate d.rows (HRow.start d.width))
    else match s1.hornRead die k x d.outOff (d.rows * d.recBytes) with
      | .error e => State.hornBreak die k x jb e
      | .ok (bs, t) => go t (rowsOf bs d.width d.rows)

/-- Start a descriptor of op 0, 1 or 2; an append comes first, unless it was made before a pre-emption (R285, R293). -/
def State.hornStart (s : State) (die k pos slot : Nat) (x : ReedRef) (d : HDesc) (n : Option Nat) : State :=
  let job (fresh : List Word) : HornJob := { pos := pos, slot := slot, d := d, page := d.progress, fresh := fresh }
  if d.appends then
    match s.appendOf die k x d with
    | .error e => State.hornBreak die k x (job []) e
    | .ok (a, s1) =>
      if (s.horn die k).cut.contains pos then s.hornBegin die k x n (job a.fresh)
      else match s1.hornStore die k x d a with
        | .error e => State.hornBreak die k x (job []) e
        | .ok t => t.hornBegin die k x n (job a.fresh)
  else s.hornBegin die k x n (job [])

/-! ### Ops 3 and 4 -/

/-- Op 3. -/
def State.hornAppend (s : State) (die k : Nat) (x : ReedRef) (d : HDesc) : HornRes State :=
  match s.appendOf die k x d with
  | .error e => .error e
  | .ok (a, t) => t.hornStore die k x d a

/-- Bytes of a list of FP32 words. -/
def bytes32 (ws : List Word) : List Byte := ws.flatMap (fun w => leBytes 4 w.toNat)

/-- The gradients of R290: dQ, dK and dV. `kk h t` and `vv h t` are the dense rows. -/
def backward (d : HDesc) (bscale : Word) (q dO o : List (List Word)) (lse : List Word) (kk vv : Nat → Nat → List Word) :
    List Word × List Word × List Word :=
  let rows := List.range d.rows
  let toks := List.range d.nNew
  let dd := rows.map (fun r => hdot (dO.getD r []) (o.getD r []))
  let pds := rows.map (fun r => toks.map (fun t =>
    if unmasked d (d.posOf r) t then
      let h := d.headOf r
      let sc := hmul d.scale (hdot (q.getD r []) (kk h t))
      let p := if lse.getD r 0 = negInf then 0 else hexp2 (hsub sc (lse.getD r 0))
      let dp := hdot (dO.getD r []) (vv h t)
      some (p, hmul p (hsub dp (dd.getD r 0)))
    else none))
  let at' (r t : Nat) : Option (Word × Word) := (pds.getD r []).getD t none
  let es := List.range d.width
  let dq := rows.flatMap (fun r => es.map (fun e => hmul bscale (toks.foldl (fun acc t =>
    match at' r t with | some x => hfma x.2 ((kk (d.headOf r) t).getD e 0) acc | none => acc) 0)))
  let sumRows (h t e : Nat) (f : Word × Word → Word) (m : List (List Word)) : Word :=
    rows.foldl (fun acc r => if d.headOf r = h then
      (match at' r t with | some x => hfma (f x) ((m.getD r []).getD e 0) acc | none => acc) else acc) 0
  let hs := List.range d.heads
  let dk := hs.flatMap (fun h => toks.flatMap (fun t => es.map (fun e => hmul bscale (sumRows h t e (fun x => x.2) q))))
  let dv := hs.flatMap (fun h => toks.flatMap (fun t => es.map (fun e => sumRows h t e (fun x => x.1) dO)))
  (dq, dk, dv)

/-- Op 4 (R289, R290). -/
def State.hornBackward (s : State) (die k : Nat) (x : ReedRef) (d : HDesc) : HornRes State := do
  let (pb, s1) ← s.hornRead die k x d.srcOff 32
  let f (i : Nat) : Nat := leOf ((pb.drop (4 * i)).take 4)
  let rw := d.rows * d.width * 4
  let kv := d.nNew * d.heads * d.width
  if f 7 ≠ 0 then .error (0x01, s1)
  else if [(f 0, 4 * kv), (f 1, rw), (f 2, rw), (f 3, rw), (f 4, 4 * kv), (f 5, 4 * kv)].all (fun a => areaOk a.1 a.2) = false
  then .error (0x03, s1)
  else
    let (q, s2) ← s1.hornQueries die k x d
    let (dO, s3) ← s2.hornMat die k x (f 1) d.rows d.width
    let (o, s4) ← s3.hornMat die k x (f 2) d.rows d.width
    let (st, s5) ← s4.hornMat die k x d.statsOff d.rows 2
    let (src, s6) ← s5.hornRead die k x (f 0) (4 * kv)
    let g := backward d (BitVec.ofNat 32 (f 6)) q dO o (st.map (fun r => r.getD 1 0))
      (fun h t => denseHead src d false h t) (fun h t => denseHead src d true h t)
    let s7 ← s6.hornWrite die k x (f 3) (bytes32 g.1)
    let s8 ← s7.hornWrite die k x (f 4) (bytes32 g.2.1)
    s8.hornWrite die k x (f 5) (bytes32 g.2.2)

/-! ### Serving (R271, R273, R292) -/

/-- Serve a descriptor that has passed its checks; `n` bounds the blocks or parts of ops 1 and 2. -/
def State.hornRun (s : State) (die k pos slot : Nat) (x : ReedRef) (d : HDesc) (n : Option Nat) : State :=
  let close (r : HornRes State) : State :=
    match r with
    | .ok t => t.hornDone die k pos
    | .error e => e.2.hornError die k pos x d slot e.1
  if d.op ≤ 2 then s.hornStart die k pos slot x d n
  else if d.op = 3 then close (s.hornAppend die k x d)
  else close (s.hornBackward die k x d)

/-- Serve one descriptor of op `op`, or go on with one in progress: the ring's next descriptor in rotation. A descriptor of
another op is left to its own command; a reserved op fails here. -/
def State.hornServe (s : State) (die k op : Nat) (n : Option Nat) : State :=
  match (s.horn die k).job with
  | some jb => if op = jb.d.op then s.hornResume die k n jb else s
  | none =>
    if s.rbit (hornReg die k 0x008) 0 = false then s
    else match s.hornNext die k with
      | none => s
      | some pos =>
        match s.reedAt die k pos with
        | none => s
        | some x =>
          let slot := s.ringWord die k x 0x404 % 16
          match (s.ringSeen die k x 0x404 4).hornRead die k x (s.ringBase die k + 64 * slot) 64 with
          | .error e => e.2.hornError die k pos x {} slot e.1
          | .ok (bs, s0) =>
            let d := hdescOf (leOf bs)
            if d.op ≤ 4 ∧ d.op ≠ op then s
            else
              let s1 := s0.hornBusy die k true pos
              match s1.hornCheck x d with
              | some c => s1.hornError die k pos x d slot c
              | none => s1.hornRun die k pos slot x d n

/-- Stop serving a position for a pre-emption: a job in progress goes on to the end of its page, block or part (R293, R294). -/
def State.hornPreempt (s : State) (die k pos : Nat) : State :=
  match (s.horn die k).job with
  | some jb => if jb.pos = pos then s.hornResume die k (some 0) { jb with stopping := true } else s.hornHalted die k pos
  | none => s.hornHalted die k pos

/-- One of the positions named by a ring reset (R296). -/
def State.ringReset1 (s : State) (who : Requester) (die k pos : Nat) : State :=
  match s.reedAt die k pos with
  | some x => if (s.reed x).busy then s.refuseAt who .horn die k 0x10C else s.ringInit die k pos
  | none => s.ringInit die k pos

/-- Whether a consort exists. -/
def consOk (die k : Nat) : Bool := decide (die < 4) && decide (k < 8)

/-! ### The commands -/

/-- HORN_POST (R271). -/
def execHornPost (die k pos : Nat) (s : State) : Res := .next (if consOk die k ∧ pos < 16 then s.hornPost die k pos else s)
/-- HORN_ATTEND_PAGED (R278 to R282, R285). -/
def execHornAttendPaged (die k : Nat) (s : State) : Res := .next (if consOk die k then s.hornServe die k 0 none else s)
/-- HORN_ATTEND_DENSE (R280 to R282): the descriptor, or `n` blocks of it. -/
def execHornAttendDense (die k : Nat) (s : State) (n : Option Nat := none) : Res := .next (if consOk die k then s.hornServe die k 1 n else s)
/-- HORN_MERGE (R283, R284): the descriptor, or `n` parts of it. -/
def execHornMerge (die k : Nat) (s : State) (n : Option Nat := none) : Res := .next (if consOk die k then s.hornServe die k 2 n else s)
/-- HORN_APPEND_ONLY (R287). -/
def execHornAppendOnly (die k : Nat) (s : State) : Res := .next (if consOk die k then s.hornServe die k 3 none else s)
/-- HORN_BACKWARD (R289, R290). -/
def execHornBackward (die k : Nat) (s : State) : Res := .next (if consOk die k then s.hornServe die k 4 none else s)
/-- HORN_PREEMPT_STOP (R293, R294). -/
def execHornPreemptStop (die k pos : Nat) (s : State) : Res :=
  .next (if consOk die k ∧ pos < 16 then s.hornPreempt die k pos else s)
/-- HORN_RING_RESET (R296). -/
def execHornRingReset (who : Requester) (die k : Nat) (value : Word) (s : State) : Res :=
  .next (s.gate who (Blk.horn.at die k 0x10C) (fun s =>
    (if consOk die k then
      (List.range 16).foldl (fun t pos => if value.getLsbD pos then t.ringReset1 who die k pos else t)
        (s.writeAt who .horn die k 0x10C value)
    else s)))

end Sys2Proof.Machine
end

