-- ==== Sys2Proof/Machine/ReedScalar.lean ====
section
/-! DEFINITION. The scalar, control and branch instructions of the reed (R114, R117, R118, R123). -/
namespace Sys2Proof.Machine

/-- A three-register scalar instruction: s[d] := f s[a] s[b]. -/
def scalarAB (x : RI) (s : State) (f : DWord → DWord → DWord) : State :=
  runReed x { d := true, a := true, b := true } s (pureBody (fun r => r.sset x.d (f (r.sget x.a) (r.sget x.b))))

/-- A register and immediate instruction: s[d] := f s[a]. -/
def scalarAI (x : RI) (s : State) (f : DWord → DWord) : State :=
  runReed x { d := true, a := true, imm := true } s (pureBody (fun r => r.sset x.d (f (r.sget x.a))))

/-- A shift by an immediate, 0 to 63; above it the instruction is illegal (R123, R125). -/
def shiftI (x : RI) (s : State) (f : DWord → Nat → DWord) : State :=
  runReed x { d := true, a := true, imm := true } s (fun s r =>
    if 63 < x.imm.toNat then .exc s 0x01 0 0 else .done s (r.sset x.d (f (r.sget x.a) x.imm.toNat)))

/-- A branch: when taken, pc := pc + imm * 8, computed exactly (R114, R123). -/
def branch (x : RI) (s : State) (taken : DWord → DWord → Bool) : State :=
  runReed x { a := true, b := true, imm := true } s (fun s r =>
    if taken (r.sget x.a) (r.sget x.b) then .jump s r ((r.pc : Int) + x.imm.toInt * 8) else .done s r)

/-- The low 6 bits of a shift amount (R123). -/
def sh6 (b : DWord) : Nat := b.toNat % 64

/-- NOP (R123). -/
def execNop (x : RI) (s : State) : Res := .next (runReed x {} s (pureBody id))

/-- ADD (R123). -/
def execAdd (x : RI) (s : State) : Res := .next (scalarAB x s (fun a b => a + b))

/-- SUB (R123). -/
def execSub (x : RI) (s : State) : Res := .next (scalarAB x s (fun a b => a - b))

/-- AND (R123). -/
def execAndR (x : RI) (s : State) : Res := .next (scalarAB x s (fun a b => a &&& b))

/-- OR (R123). -/
def execOrR (x : RI) (s : State) : Res := .next (scalarAB x s (fun a b => a ||| b))

/-- XOR (R123). -/
def execXorR (x : RI) (s : State) : Res := .next (scalarAB x s (fun a b => a ^^^ b))

/-- SHL (R123). -/
def execShl (x : RI) (s : State) : Res := .next (scalarAB x s (fun a b => a <<< sh6 b))

/-- SHR (R123). -/
def execShr (x : RI) (s : State) : Res := .next (scalarAB x s (fun a b => a >>> sh6 b))

/-- SRA (R123). -/
def execSra (x : RI) (s : State) : Res := .next (scalarAB x s (fun a b => a.sshiftRight (sh6 b)))

/-- MUL (R123). -/
def execMul (x : RI) (s : State) : Res := .next (scalarAB x s (fun a b => a * b))

/-- SLT (R123). -/
def execSlt (x : RI) (s : State) : Res := .next (scalarAB x s (fun a b => if a.slt b then 1 else 0))

/-- SLTU (R123). -/
def execSltu (x : RI) (s : State) : Res := .next (scalarAB x s (fun a b => if a.ult b then 1 else 0))

/-- MIN (R123). -/
def execMin (x : RI) (s : State) : Res := .next (scalarAB x s (fun a b => if a.slt b then a else b))

/-- MAX (R123). -/
def execMax (x : RI) (s : State) : Res := .next (scalarAB x s (fun a b => if a.slt b then b else a))

/-- ADDI (R123). -/
def execAddi (x : RI) (s : State) : Res := .next (scalarAI x s (fun a => a + RIimm x))

/-- ANDI (R123). -/
def execAndi (x : RI) (s : State) : Res := .next (scalarAI x s (fun a => a &&& RIimmZ x))

/-- ORI (R123). -/
def execOri (x : RI) (s : State) : Res := .next (scalarAI x s (fun a => a ||| RIimmZ x))

/-- XORI (R123). -/
def execXori (x : RI) (s : State) : Res := .next (scalarAI x s (fun a => a ^^^ RIimmZ x))

/-- SHLI (R123, R125). -/
def execShli (x : RI) (s : State) : Res := .next (shiftI x s (fun a n => a <<< n))

/-- SHRI (R123, R125). -/
def execShri (x : RI) (s : State) : Res := .next (shiftI x s (fun a n => a >>> n))

/-- SRAI (R123, R125). -/
def execSrai (x : RI) (s : State) : Res := .next (shiftI x s (fun a n => a.sshiftRight n))

/-- LUI (R123). -/
def execLui (x : RI) (s : State) : Res :=
  .next (runReed x { d := true, imm := true } s (pureBody (fun r => r.sset x.d (RIimm x <<< 24))))

/-- A control register (R117); none for a reserved number. -/
def Reed.cr (r : Reed) (n : Nat) : Option DWord :=
  match n with
  | 0 => some r.mode
  | 1 => some r.tcfg
  | 2 => some r.srSeed
  | 3 => some r.srStream
  | 4 => some r.srBase
  | 5 => some r.prog
  | 6 => some r.role
  | 7 => some r.statSrc
  | 8 => some r.statStride
  | _ => none

/-- Write a control register; none for a reserved number, a read-only register or a reserved bit (R117, R118). -/
def Reed.crw (r : Reed) (n : Nat) (v : DWord) : Option Reed :=
  match n with
  | 0 => if v.toNat < 8 then some { r with mode := v } else none
  | 2 => some { r with srSeed := v }
  | 3 => some { r with srStream := v }
  | 4 => some { r with srBase := v }
  | _ => none

/-- CRR (R117, R118). -/
def execCrr (x : RI) (s : State) : Res :=
  .next (runReed x { d := true, imm := true } s (fun s r =>
    match r.cr x.imm.toNat with
    | some v => .done s (r.sset x.d v)
    | none => .exc s 0x02 0 0))

/-- CRW (R117, R118). -/
def execCrw (x : RI) (s : State) : Res :=
  .next (runReed x { a := true, imm := true } s (fun s r =>
    match r.crw x.imm.toNat (r.sget x.a) with
    | some r' => .done s r'
    | none => .exc s 0x02 0 0))

/-- BEQ (R114, R123). -/
def execBeq (x : RI) (s : State) : Res := .next (branch x s (fun a b => decide (a = b)))

/-- BNE (R114, R123). -/
def execBne (x : RI) (s : State) : Res := .next (branch x s (fun a b => decide (a ≠ b)))

/-- BLT (R114, R123). -/
def execBlt (x : RI) (s : State) : Res := .next (branch x s (fun a b => a.slt b))

/-- BGE (R114, R123). -/
def execBge (x : RI) (s : State) : Res := .next (branch x s (fun a b => !(a.slt b)))

/-- BLTU (R114, R123). -/
def execBltu (x : RI) (s : State) : Res := .next (branch x s (fun a b => a.ult b))

/-- BGEU (R114, R123). -/
def execBgeu (x : RI) (s : State) : Res := .next (branch x s (fun a b => !(a.ult b)))

/-- JAL (R114, R123). -/
def execJal (x : RI) (s : State) : Res :=
  .next (runReed x { d := true, imm := true } s (fun s r =>
    .jump s (r.sset x.d (BitVec.ofNat 64 (r.pc + 8))) ((r.pc : Int) + x.imm.toInt * 8)))

/-- JR: the target is the whole register as a signed value (R114, R123). -/
def execJr (x : RI) (s : State) : Res :=
  .next (runReed x { a := true } s (fun s r => .jump s r (r.sget x.a).toInt))

/-- END (R115, R144). -/
def execEndProg (x : RI) (s : State) : Res :=
  .next (let r := s.reed x.reed
    if r.run ≠ .running then s
    else if 8 * r.ibuf.length ≤ r.pc then s.fetchExc x.reed
    else if Uses.ok {} x = false then s.reedExc x.reed 0x01 0 0
    else s.endReed x.reed)

/-- TRAP: the software exception, imm[7:0] reported (R123, R148, R149). -/
def execTrap (x : RI) (s : State) : Res :=
  .next (runReed x { imm := true } s (fun s _ => .exc s 0x09 (x.imm.toNat % 256) 0))

/-- BRK (R123, R149). -/
def execBrk (x : RI) (s : State) : Res := .next (runReed x {} s (fun s _ => .exc s 0x0A 0 0))

end Sys2Proof.Machine
end

