-- ==== Sys2Proof/Machine/Rng.lean ====
section
/-! DEFINITION. The random number function (R455 to R459): a pure function of seed, stream and element index. -/
namespace Sys2Proof.Machine

/-- The multiplier A of R455. -/
def rngA : DWord := 0xD1342543DE82EF95

/-- The loop of R459 on the low `fuel` bits of `m`. -/
def rngLoop : Nat → Nat → DWord → DWord → DWord → DWord
  | 0, _, _, _, x => x
  | fuel + 1, m, a, b, x =>
    rngLoop fuel (m / 2) (a * a) ((a + 1) * b) (if m % 2 = 1 then a * x + b else x)

/-- x(n) for a seed, a stream and an element index taken modulo 2^64 (R455, R458, R459). -/
def rngState (seed stream : DWord) (n : Nat) : DWord :=
  rngLoop 64 ((n + 1) % 2 ^ 64) rngA ((stream <<< 1) ||| 1) seed

/-- The 32-bit output of a state (R456). -/
def rngOut (x : DWord) : Word :=
  let t := x ^^^ (x >>> 29)
  let t := t * 0xbf58476d1ce4e5b9
  let t := t ^^^ (t >>> 32)
  t.setWidth 32

/-- The output for element `n` (R455, R456). -/
def rng (seed stream : DWord) (n : Nat) : Word := rngOut (rngState seed stream n)

end Sys2Proof.Machine
end

