-- ==== Sys2Proof/Machine/Flags.lean ====
section
/-! DEFINITION. Lane arithmetic and the mask results of the vector unit (R124, R126, R133 to R136, R176 to R185). The reed
has no flag register: its comparisons write mask registers. -/
namespace Sys2Proof.Machine

/-- The generator's output for element `e` where cr0 selects stochastic rounding (R133, R186, R188). -/
def Reed.rnd (r : Reed) (e : Nat) : Option Nat :=
  if r.stoch then some (rng r.srSeed r.srStream ((r.srBase.toNat + e) % 2 ^ 64)).toNat else none

/-- One lane of VOP (R124, R176, R177, R179). -/
def vop (fn fmt : Nat) (ieee wrapMode : Bool) (a b : Word) : Word :=
  if fmt = 7 then
    (if fn = 0 then fadd32 ieee a b
     else if fn = 1 then fsub32 ieee a b
     else if fn = 2 then fmul32 ieee a b
     else if fn = 3 then BitVec.ofNat 32 (fMaxMin fFP32 false a.toNat b.toNat)
     else if fn = 4 then BitVec.ofNat 32 (fMaxMin fFP32 true a.toNat b.toNat)
     else if fn = 11 then (if (fp32 a).isNan then nan32 else a &&& 0x7FFFFFFF)
     else (if (fp32 a).isNan then nan32 else a ^^^ 0x80000000))
  else
    let n := b.toNat % 32
    if fn = 0 then int32 wrapMode (a.toInt + b.toInt)
    else if fn = 1 then int32 wrapMode (a.toInt - b.toInt)
    else if fn = 2 then int32 wrapMode (a.toInt * b.toInt)
    else if fn = 3 then (if b.slt a then b else a)
    else if fn = 4 then (if a.slt b then b else a)
    else if fn = 5 then a &&& b
    else if fn = 6 then a ||| b
    else if fn = 7 then a ^^^ b
    else if fn = 8 then a <<< n
    else if fn = 9 then a >>> n
    else if fn = 10 then a.sshiftRight n
    else if fn = 11 then int32 wrapMode (if a.toInt < 0 then -a.toInt else a.toInt)
    else int32 wrapMode (-a.toInt)

/-- One lane of VFMA (R124, R176, R177). -/
def vfma (fmt : Nat) (ieee wrapMode : Bool) (a b c : Word) : Word :=
  if fmt = 7 then fma32 ieee a b c else int32 wrapMode (a.toInt * b.toInt + c.toInt)

/-- One lane of VCMP (R124, R180). -/
def vcmp (fn fmt : Nat) (a b : Word) : Bool :=
  if fmt = 7 then
    (if fn = 0 then (fp32 a).eqv (fp32 b)
     else if fn = 1 then !((fp32 a).eqv (fp32 b))
     else if fn = 2 then (fp32 a).lt (fp32 b)
     else (fp32 a).lt (fp32 b) || (fp32 a).eqv (fp32 b))
  else if fn = 0 then decide (a = b)
  else if fn = 1 then decide (a ≠ b)
  else if fn = 2 then a.slt b
  else a.sle b

/-- The word whose bit `e` is `f e` where the mask enables it, and the old bit elsewhere. -/
def maskBits (mask old : Word) (f : Nat → Bool) : Nat → Word
  | 0 => 0
  | n + 1 => maskBits mask old f n |||
      (if (if mask.getLsbD n then f n else old.getLsbD n) then (1 : Word) <<< n else 0)

/-- One combination of a reduction: 0 sum, 1 maximum, 2 minimum, in INT32 or FP32 (R85, R92, R176, R179). -/
def combine (fn : Nat) (int : Bool) (ieee wrapMode : Bool) (a b : Word) : Word :=
  if fn = 0 then vop 0 (if int then 2 else 7) ieee wrapMode a b
  else if fn = 1 then vop 4 (if int then 2 else 7) ieee wrapMode a b
  else vop 3 (if int then 2 else 7) ieee wrapMode a b

/-- Combine two partials, an empty one yielding the other (R92). -/
def combine? (fn : Nat) (int ieee wrapMode : Bool) : Option Word → Option Word → Option Word
  | none, b => b
  | some a, none => some a
  | some a, some b => some (combine fn int ieee wrapMode a b)

/-- The tree of R92 over the partials of `2^n` lanes from lane `i`: level by level, neighbours first. -/
def redTree (fn : Nat) (int ieee wrapMode : Bool) (p : Nat → Option Word) : Nat → Nat → Option Word
  | 0, i => p i
  | n + 1, i => combine? fn int ieee wrapMode (redTree fn int ieee wrapMode p n i)
      (redTree fn int ieee wrapMode p n (i + 2 ^ n))

/-- The result of a reduction of no elements in a format (R93). -/
def emptyRed (fn fmt : Nat) : Word :=
  if fmtIsInt fmt then
    (let w := fmtBits fmt
     if fn = 0 then 0
     else if fn = 1 then BitVec.ofNat 32 (wrap 32 (-((2 ^ (w - 1) : Nat) : Int)))
     else BitVec.ofNat 32 (2 ^ (w - 1) - 1))
  else if fn = 0 then 0
  else if fn = 1 then 0xFF800000
  else 0x7F800000

/-- A produced FP32 word: every NaN that an instruction produces is the canonical one (R164). -/
def canonNan (w : Word) : Word := if bits w.toNat 30 23 = 255 ∧ bits w.toNat 22 0 ≠ 0 then 0x7FC00000 else w

/-- The whole reduction of 32 lane partials (R92, R93): a NaN result is canonical, also where one partial alone has reached the
root of the tree (R164, R176). -/
def reduce (fn fmt : Nat) (ieee wrapMode : Bool) (p : Nat → Option Word) : Word :=
  match redTree fn (fmtIsInt fmt) ieee wrapMode p 5 0 with
  | some w => if fmtIsInt fmt then w else canonNan w
  | none => emptyRed fn fmt

end Sys2Proof.Machine
end

