-- ==== Sys2Proof/Machine/ReedVector.lean ====
section
/-! DEFINITION. The memory, vector and mask instructions of the reed (R123 to R126, R132 to R137). -/
namespace Sys2Proof.Machine

/-- Count generator outputs drawn at a consort (R467). -/
def State.drew (s : State) (x : ReedRef) (n : Nat) : State :=
  if n = 0 then s else s.cntAdd .sng x.die x.k 0x030 n

/-- Count errors corrected or met by a read, and the uncorrectable word as a fault of the reed (R212, R213). -/
def State.noteRead (s : State) (x : ReedRef) (a n : Nat) : State := s.eccReedRead x (wordsOf a n)

/-- Count the errors that a store corrects in the words it covers only in part (R196, R213). -/
def State.noteStore (s : State) (x : ReedRef) (a n : Nat) : State :=
  s.notePartial ((List.range n).map (fun i => reedSram x (a + i)))

/-- What a refused access leaves behind: an uncorrectable word is counted and recorded (R212), an access that a bank's
owner does not admit adds to the refused-access counter (R198). -/
def State.noteExc (s : State) (x : ReedRef) (code a n : Nat) : State :=
  if code = 7 then s.noteRead x a n
  else if code = 4 ∧ a + n ≤ 2 ^ 22 ∧
      (List.range n).any (fun i => decide (s.reedBank x (bits (a + i) 21 19) ≠ (0, 1))) = true then
    s.cntAdd .reed x.die (17 * x.k + x.r) 0x070 1
  else s

/-! ### Scalar loads and stores (R123) -/

/-- A scalar load of `n` bytes. -/
def load (x : RI) (s : State) (n : Nat) (f : Nat → DWord) : State :=
  runReed x { d := true, a := true, imm := true } s (fun s r =>
    let a := (r.sget x.a + RIimm x).toNat
    match s.sramCheck x.reed false a n n with
    | .exc c => .exc (s.noteExc x.reed c a n) c 0 (a % 2 ^ 48)
    | .wait => .hold s r (s.waitFor x.reed a n)
    | .ok => .done (s.noteRead x.reed a n) (r.sset x.d (f (s.sramRead x.reed a n))))

/-- A scalar store of `n` bytes. -/
def store (x : RI) (s : State) (n : Nat) : State :=
  runReed x { a := true, b := true, imm := true } s (fun s r =>
    let a := (r.sget x.a + RIimm x).toNat
    match s.storeCheck x.reed a n n with
    | .exc c => .exc (s.noteExc x.reed c a n) c 0 (a % 2 ^ 48)
    | .wait => .hold s r (s.waitFor x.reed a n)
    | .ok => .done ((s.noteStore x.reed a n).sramWrite x.reed a n (r.sget x.b).toNat) r)

/-- LD (R123). -/
def execLd (x : RI) (s : State) : Res := .next (load x s 8 (fun v => BitVec.ofNat 64 v))
/-- LW (R123). -/
def execLw (x : RI) (s : State) : Res := .next (load x s 4 (fun v => (BitVec.ofNat 32 v).signExtend 64))
/-- ST (R123, R142). -/
def execSt (x : RI) (s : State) : Res := .next (store x s 8)
/-- SW (R123, R142). -/
def execSw (x : RI) (s : State) : Res := .next (store x s 4)

/-! ### Vector loads and stores (R132) -/

/-- Where element `e` lies: byte address, bytes, and bit offset of an INT4 nibble (R160, R161). -/
def elemAt (fmt base stride e : Nat) : Nat × Nat × Nat :=
  if fmt = 0 then (base + e / 2, 1, 4 * (e % 2)) else ((base + e * stride) % 2 ^ 64, fmtBits fmt / 8, 0)

/-- Alignment of an element (R132). -/
def elemAlign (fmt : Nat) : Nat := if fmt = 0 then 1 else fmtBits fmt / 8

/-- The first enabled element below `n` whose access does not proceed, with what it meets and its address. -/
def firstBad (ok : Nat → SramRes) (addr : Nat → Nat) (mask : Word) : Nat → Option (SramRes × Nat)
  | 0 => none
  | n + 1 =>
    match firstBad ok addr mask n with
    | some e => some e
    | none => if mask.getLsbD n && decide (ok n ≠ .ok) then some (ok n, addr n) else none

/-- The raw element `e` of a vector in reed SRAM. -/
def State.elemRead (s : State) (x : ReedRef) (fmt base stride e : Nat) : Nat :=
  let (a, n, sh) := elemAt fmt base stride e
  s.sramRead x a n / 2 ^ sh % 2 ^ fmtBits fmt

/-- Write the raw element `e`; a nibble is merged into its byte (R160, R196). -/
def State.elemWrite (s : State) (x : ReedRef) (fmt base stride e v : Nat) : State :=
  let (a, n, sh) := elemAt fmt base stride e
  if fmt = 0 then s.sramWrite x a 1 (withBits (s.sramRead x a 1) (sh + 3) sh v) else s.sramWrite x a n v

/-- Write the enabled elements below `n` in ascending order (R132). -/
def State.elemsWrite (s : State) (x : ReedRef) (fmt base stride : Nat) (mask : Word) (f : Nat → Nat) : Nat → State
  | 0 => s
  | n + 1 =>
    let s1 := State.elemsWrite s x fmt base stride mask f n
    if mask.getLsbD n then s1.elemWrite x fmt base stride n (f n) else s1

/-- The words that the enabled elements below `n` lie in, each once. -/
def elemWords (fmt base stride : Nat) (mask : Word) : Nat → List Nat
  | 0 => []
  | n + 1 =>
    let l := elemWords fmt base stride mask n
    if mask.getLsbD n then l ++ (wordsOf (elemAt fmt base stride n).1 (elemAt fmt base stride n).2.1).filter (fun w => !l.contains w)
    else l

/-- Note the reads of the enabled elements below `n`, word by word (R213). -/
def State.elemsNote (s : State) (x : ReedRef) (fmt base stride : Nat) (mask : Word) (n : Nat) : State :=
  s.eccReedRead x (elemWords fmt base stride mask n)

/-- VLD and VLDS: 32 elements widened into the enabled lanes (R132, R181). VLDS and VSTS "do not accept INT4": the spec names no
exception, and the model raises the illegal operand 0x02, as for every other format an opcode does not take (DESIGN CHOICE, log
entry 185). -/
def vload (x : RI) (u : Uses) (strided : Bool) (s : State) : State :=
  runReed x u s (fun s r =>
    let base := (r.sget x.a + RIimm x).toNat
    let stride := if strided then (r.sget x.c).toNat else elemAlign x.fmt
    let mask := r.mget x.m
    if strided ∧ x.fmt = 0 then .exc s 0x02 0 0
    else if base % elemAlign x.fmt ≠ 0 then .exc s 0x04 0 (base % 2 ^ 48)
    else
      let addr (e : Nat) : Nat := (elemAt x.fmt base stride e).1
      match firstBad (fun e => s.sramCheck x.reed false (addr e) (elemAt x.fmt base stride e).2.1 (elemAlign x.fmt)) addr mask 32 with
      | some (.exc c, a) => .exc (s.noteExc x.reed c a 1) c 0 (a % 2 ^ 48)
      | some (_, a) => .hold s r (s.waitFor x.reed a 1)
      | none => .done (s.elemsNote x.reed x.fmt base stride mask 32)
          (r.vwrite x.d mask (fun e => widen x.fmt (s.elemRead x.reed x.fmt base stride e))))

/-- VST and VSTS: the enabled lanes narrowed and written in ascending order (R132, R133, R182 to R188); every word that they
write in part is read and corrected, once (R196, R213). -/
def vstore (x : RI) (u : Uses) (strided : Bool) (s : State) : State :=
  runReed x u s (fun s r =>
    let base := (r.sget x.a + RIimm x).toNat
    let stride := if strided then (r.sget x.c).toNat else elemAlign x.fmt
    let mask := r.mget x.m
    if strided ∧ x.fmt = 0 then .exc s 0x02 0 0
    else if base % elemAlign x.fmt ≠ 0 then .exc s 0x04 0 (base % 2 ^ 48)
    else
      let addr (e : Nat) : Nat := (elemAt x.fmt base stride e).1
      match firstBad (fun e => s.storeCheck x.reed (addr e) (elemAt x.fmt base stride e).2.1 (elemAlign x.fmt)) addr mask 32 with
      | some (.exc c, a) => .exc (s.noteExc x.reed c a 1) c 0 (a % 2 ^ 48)
      | some (_, a) => .hold s r (s.waitFor x.reed a 1)
      | none =>
        let conv := decide (3 ≤ x.fmt) && decide (x.fmt ≤ 6) && r.stoch
        .done (((s.elemsNote x.reed x.fmt base stride mask 32).elemsWrite x.reed x.fmt base stride mask
            (fun e => narrow x.fmt r.ieee (r.rnd e) (r.vget x.b e)) 32).drew x.reed
            (if conv then popcount 32 mask.toNat else 0)) r)

/-- VLD (R132). -/
def execVld (x : RI) (s : State) : Res :=
  .next (vload x { d := true, a := true, imm := true, fmt := true, m := true } false s)
/-- VLDS (R132). -/
def execVlds (x : RI) (s : State) : Res :=
  .next (vload x { d := true, a := true, c := true, imm := true, fmt := true, m := true } true s)
/-- VST (R132, R142). -/
def execVst (x : RI) (s : State) : Res :=
  .next (vstore x { a := true, b := true, imm := true, fmt := true, m := true } false s)
/-- VSTS (R132, R142). -/
def execVsts (x : RI) (s : State) : Res :=
  .next (vstore x { a := true, b := true, c := true, imm := true, fmt := true, m := true } true s)

/-! ### Lane arithmetic (R124) -/

/-- Whether `fmt` is INT32 or FP32, the formats of vector arithmetic (R124). -/
def arithFmt (fmt : Nat) : Bool := decide (fmt = 2) || decide (fmt = 7)

/-- VOP (R124, R125, R176, R177, R179). -/
def execVop (x : RI) (s : State) : Res :=
  .next (runReed x { d := true, a := true, b := true, fmt := true, m := true, fn := true } s (fun s r =>
    if 13 ≤ x.fn then .exc s 0x01 0 0
    else if 11 ≤ x.fn ∧ x.b ≠ 0 then .exc s 0x01 0 0
    else if arithFmt x.fmt = false ∨ (x.fmt = 7 ∧ 5 ≤ x.fn ∧ x.fn ≤ 10) then .exc s 0x02 0 0
    else .done s (r.vwrite x.d (r.mget x.m) (fun e => vop x.fn x.fmt r.ieee r.wrapMode (r.vget x.a e) (r.vget x.b e)))))

/-- VFMA (R124, R176, R177). -/
def execVfma (x : RI) (s : State) : Res :=
  .next (runReed x { d := true, a := true, b := true, c := true, fmt := true, m := true } s (fun s r =>
    if arithFmt x.fmt = false then .exc s 0x02 0 0
    else .done s (r.vwrite x.d (r.mget x.m)
      (fun e => vfma x.fmt r.ieee r.wrapMode (r.vget x.a e) (r.vget x.b e) (r.vget x.c e)))))

/-- VCMP (R124, R125, R180). -/
def execVcmp (x : RI) (s : State) : Res :=
  .next (runReed x { d := true, a := true, b := true, fmt := true, m := true, fn := true } s (fun s r =>
    if 4 ≤ x.fn ∨ x.d = 0 ∨ 8 ≤ x.d then .exc s 0x01 0 0
    else if arithFmt x.fmt = false then .exc s 0x02 0 0
    else .done s (r.mset x.d (maskBits (r.mget x.m) (r.mget x.d)
      (fun e => vcmp x.fn x.fmt (r.vget x.a e) (r.vget x.b e)) 32))))

/-- VSEL: every lane is written (R124). -/
def execVsel (x : RI) (s : State) : Res :=
  .next (runReed x { d := true, a := true, b := true, m := true } s (pureBody (fun r =>
    r.vwrite x.d 0xFFFFFFFF (fun e => if r.lane x.m e then r.vget x.a e else r.vget x.b e))))

/-- VFN (R124, R126, R178). -/
def execVfn (x : RI) (s : State) : Res :=
  .next (runReed x { d := true, a := true, m := true, fn := true } s (fun s r =>
    if 10 ≤ x.fn then .exc s 0x01 0 0
    else .done s (r.vwrite x.d (r.mget x.m) (fun e => vfn x.fn r.ieee (r.vget x.a e)))))

/-- VCVT (R124, R133, R185). -/
def execVcvt (x : RI) (s : State) : Res :=
  .next (runReed x { d := true, a := true, m := true, fmt := true, fn := true } s (fun s r =>
    if 3 ≤ x.fn ∨ (x.fn ≤ 1 ∧ x.fmt ≠ 0) then .exc s 0x01 0 0
    else .done (s.drew x.reed (if r.stoch then popcount 32 (r.mget x.m).toNat else 0))
      (r.vwrite x.d (r.mget x.m) (fun e => vcvt x.fn x.fmt r.ieee (r.rnd e) (r.vget x.a e)))))

/-- VBCAST (R124). -/
def execVbcast (x : RI) (s : State) : Res :=
  .next (runReed x { d := true, a := true, m := true } s (pureBody (fun r =>
    r.vwrite x.d (r.mget x.m) (fun _ => (r.sget x.a).setWidth 32))))

/-- VGET (R124). -/
def execVget (x : RI) (s : State) : Res :=
  .next (runReed x { d := true, a := true, b := true } s (pureBody (fun r =>
    r.sset x.d ((r.vget x.a ((r.sget x.b).toNat % 32)).signExtend 64))))

/-- VIDX (R124). -/
def execVidx (x : RI) (s : State) : Res :=
  .next (runReed x { d := true, a := true, m := true } s (pureBody (fun r =>
    r.vwrite x.d (r.mget x.m) (fun e => BitVec.ofNat 32 ((r.sget x.a).toNat + e)))))

/-- VRAND (R134, R458). -/
def execVrand (x : RI) (s : State) : Res :=
  .next (runReed x { d := true, a := true, b := true, c := true, m := true } s (fun s r =>
    .done (s.drew x.reed (popcount 32 (r.mget x.m).toNat))
      (r.vwrite x.d (r.mget x.m) (fun e => rng (r.sget x.a) (r.sget x.b) (((r.sget x.c).toNat + e) % 2 ^ 64)))))

/-- VPERM (R124). -/
def execVperm (x : RI) (s : State) : Res :=
  .next (runReed x { d := true, a := true, b := true, m := true } s (pureBody (fun r =>
    r.vwrite x.d (r.mget x.m) (fun e => r.vget x.a ((r.vget x.b e).toNat % 32)))))

/-- VMOV (R124). -/
def execVmov (x : RI) (s : State) : Res :=
  .next (runReed x { d := true, a := true, m := true } s (pureBody (fun r =>
    r.vwrite x.d (r.mget x.m) (fun e => r.vget x.a e))))

/-- Lane 0 takes a value and lanes 1 to 31 become 0 (R135, R136). -/
def Reed.lane0 (r : Reed) (d : Nat) (w : Word) : Reed :=
  r.vwrite d 0xFFFFFFFF (fun e => if e = 0 then w else 0)

/-- VREDL (R92, R93, R135). -/
def execVredl (x : RI) (s : State) : Res :=
  .next (runReed x { d := true, a := true, fmt := true, m := true, fn := true } s (fun s r =>
    if 3 ≤ x.fn then .exc s 0x01 0 0
    else if arithFmt x.fmt = false then .exc s 0x02 0 0
    else .done s (r.lane0 x.d (reduce x.fn x.fmt r.ieee r.wrapMode
      (fun e => if r.lane x.m e then some (r.vget x.a e) else none)))))

/-- One group of up to 32 elements folded into the lane partials held in v[d] (R92, R136). -/
def vredGroup (s : State) (x : RI) (r : Reed) (base e cnt : Nat) : Reed :=
  r.vwrite x.d (BitVec.ofNat 32 (2 ^ cnt - 1)) (fun l =>
    let w := widen x.fmt (s.elemRead x.reed x.fmt base (elemAlign x.fmt) (e + l))
    if e = 0 then w else combine x.fn (fmtIsInt x.fmt) r.ieee r.wrapMode (r.vget x.d l) w)

/-- A pre-emption request has reached the step of a reed and not been taken (R153, R591). -/
def State.preAsked (s : State) (r : Reed) : Bool := s.steps.any (fun e => decide (e.uid = r.step) && e.stopping)

/-- VRED from element `e` on: each whole group commits its partials and its progress; under a pre-emption request it stops at
the progress point (R136, R153). -/
def vredLoop (x : RI) (base n : Nat) : Nat → Nat → State → Reed → RRes
  | 0, _, s, r => .done s r
  | fuel + 1, e, s, r =>
    if n ≤ e then
      .done s { (r.lane0 x.d (reduce x.fn x.fmt r.ieee r.wrapMode
        (fun l => if l < n then some (r.vget x.d l) else none))) with prog := 0 }
    else
      let cnt := min 32 (n - e)
      let a := (elemAt x.fmt base (elemAlign x.fmt) e).1
      let bytes := if fmtBits x.fmt = 4 then (cnt + 1) / 2 else cnt * (fmtBits x.fmt / 8)
      match s.sramCheck x.reed false a bytes 1 with
      | .exc c => .exc ((s.noteExc x.reed c a bytes).setReed x.reed r) c 0 (a % 2 ^ 48)
      | .wait => .hold s r (s.waitFor x.reed a bytes)
      | .ok =>
        let r1 := vredGroup s x r base e cnt
        let r2 := if cnt = 32 then { r1 with prog := BitVec.ofNat 64 (e + cnt) } else r1
        if cnt = 32 ∧ s.preAsked r = true then .hold (s.noteRead x.reed a bytes) r2 .none
        else vredLoop x base n fuel (e + cnt) (s.noteRead x.reed a bytes) r2

/-- VRED (R125, R136). -/
def execVred (x : RI) (s : State) : Res :=
  .next (runReed x { d := true, a := true, b := true, fmt := true, m := true, fn := true } s (fun s r =>
    let n := (r.sget x.b).toNat
    let base := (r.sget x.a).toNat
    if x.m ≠ 0 then .exc s 0x01 0 0
    else if 3 ≤ x.fn ∨ 4194304 < n then .exc s 0x02 0 0
    else if n ≠ 0 ∧ base % elemAlign x.fmt ≠ 0 then .exc s 0x04 0 (base % 2 ^ 48)
    else vredLoop x base n (n / 32 + 3) r.prog.toNat s r))

/-! ### Accumulators and masks (R124, R137) -/

/-- VAR (R137). -/
def execVar (x : RI) (s : State) : Res :=
  .next (runReed x { d := true, a := true, b := true, m := true } s (fun s r =>
    let row := (r.sget x.b).toNat
    let arr := (r.sget x.a).toNat % 32
    if 1023 < row + 3 then .exc s 0x03 0 0
    else .done s (r.vwrite x.d (r.mget x.m) (fun e => r.accGet arr (row + e / 8) (e % 8)))))

/-- Write the enabled lanes of v[c] to accumulator entries. -/
def Reed.vaw (r : Reed) (c arr row : Nat) (mask : Word) : Nat → Reed
  | 0 => r
  | n + 1 =>
    let r' := Reed.vaw r c arr row mask n
    if mask.getLsbD n then r'.accSet arr (row + n / 8) (n % 8) (r.vget c n) else r'

/-- VAW (R137). -/
def execVaw (x : RI) (s : State) : Res :=
  .next (runReed x { a := true, b := true, c := true, m := true } s (fun s r =>
    let row := (r.sget x.b).toNat
    let arr := (r.sget x.a).toNat % 32
    if 1023 < row + 3 then .exc s 0x03 0 0
    else .done s (r.vaw x.c arr row (r.mget x.m) 32)))

/-- MOP (R124, R125). -/
def execMop (x : RI) (s : State) : Res :=
  .next (runReed x { d := true, a := true, b := true, fn := true } s (fun s r =>
    if 4 ≤ x.fn ∨ x.d = 0 ∨ 8 ≤ x.d ∨ 8 ≤ x.a ∨ 8 ≤ x.b ∨ (x.fn = 3 ∧ x.b ≠ 0) then .exc s 0x01 0 0
    else
      let a := r.mget x.a
      let b := r.mget x.b
      .done s (r.mset x.d (if x.fn = 0 then a &&& b else if x.fn = 1 then a ||| b else if x.fn = 2 then a ^^^ b else ~~~ a))))

/-- MSET (R124, R125). -/
def execMset (x : RI) (s : State) : Res :=
  .next (runReed x { d := true, a := true } s (fun s r =>
    if x.d = 0 ∨ 8 ≤ x.d then .exc s 0x01 0 0 else .done s (r.mset x.d ((r.sget x.a).setWidth 32))))

/-- MGET (R124, R125). -/
def execMget (x : RI) (s : State) : Res :=
  .next (runReed x { d := true, a := true } s (fun s r =>
    if 8 ≤ x.a then .exc s 0x01 0 0 else .done s (r.sset x.d ((r.mget x.a).setWidth 64))))

end Sys2Proof.Machine
end

