-- ==== Sys2Proof/Machine/ReedTensor.lean ====
section
/-! DEFINITION. The tensor instructions of the reed (R79 to R90, R127 to R131, R172 to R175). -/
namespace Sys2Proof.Machine

/-- Stream format of tcfg (R127). -/
def tSfmt (t : Nat) : Nat := bits t 2 0
/-- Stationary format. -/
def tTfmt (t : Nat) : Nat := bits t 5 3
/-- Stationary weight when true. -/
def tSw (t : Nat) : Bool := bit t 6
/-- Group count. -/
def tG (t : Nat) : Nat := bits t 12 8 + 1
/-- Cascade length. -/
def tL (t : Nat) : Nat := 2 ^ bits t 15 13
/-- INT4 × INT4. -/
def t44 (t : Nat) : Bool := decide (tSfmt t = 0) && decide (tTfmt t = 0)

/-- The checks of TCFG (R84, R86, R87, R127). -/
def tcfgOk (t : Nat) : Bool :=
  decide (bits t 63 16 = 0) && decide (bits t 15 13 ≤ 5) && !bit t 7 &&
  decide (tSfmt t ≠ 2) && decide (tSfmt t ≠ 7) && decide (tTfmt t ≠ 2) && decide (tTfmt t ≠ 7) &&
  decide (fmtIsInt (tSfmt t) = fmtIsInt (tTfmt t)) && decide (tG t * tL t ≤ 32)

/-- TCFG (R127). -/
def execTcfg (x : RI) (s : State) : Res :=
  .next (runReed x { a := true } s (fun s r =>
    if tcfgOk (r.sget x.a).toNat then .done s { r with tcfg := r.sget x.a } else .exc s 0x02 0 0))

/-- Bytes of one stationary block (R128). -/
def blockBytes (t : Nat) : Nat :=
  if tTfmt t = 0 then (if t44 t && tSw t then 64 else 32) else 8 * fmtBits (tTfmt t)

/-- The raw content of cell (k, c) of a block at an address (R128). -/
def State.cellRead (s : State) (x : ReedRef) (t base k c : Nat) : Nat :=
  let i := 8 * k + c
  if t44 t && tSw t then s.sramRead x (base + i) 1
  else if tTfmt t = 0 then s.sramRead x (base + i / 2) 1 / 2 ^ (4 * (i % 2)) % 16
  else
    let n := fmtBits (tTfmt t) / 8
    s.sramRead x (base + n * i) n

/-- Load the 64 cells of one array. -/
def loadCells (s : State) (x : ReedRef) (t arr base : Nat) : Nat → Reed → Reed
  | 0, r => r
  | n + 1, r =>
    let r' := loadCells s x t arr base n r
    { r' with stat := SMap.set (fun _ => 0) r'.stat (64 * arr + n) (s.cellRead x t base (n / 8) (n % 8)) }

/-- Load the blocks of arrays `0 .. n-1`. -/
def loadArrays (s : State) (x : ReedRef) (t src stride : Nat) : Nat → Reed → Reed
  | 0, r => r
  | n + 1, r => loadCells s x t n ((src + n * stride) % 2 ^ 64) 64 (loadArrays s x t src stride n r)

/-- The access check of a whole TLOAD: the first array whose block is not readable. -/
def tloadBad (s : State) (x : ReedRef) (t src stride : Nat) : Option (Nat × Nat) :=
  (List.range (tG t * tL t)).findSome? (fun i =>
    let a := (src + i * stride) % 2 ^ 64
    match s.sramCheck x false a (blockBytes t) 1 with
    | .exc c => some (c, a)
    | _ => none)

/-- Note the reads of the blocks of arrays `0 .. n-1` (R213). -/
def noteArrays (s : State) (x : ReedRef) (t src stride : Nat) : Nat → State
  | 0 => s
  | n + 1 => (noteArrays s x t src stride n).noteRead x ((src + n * stride) % 2 ^ 64) (blockBytes t)

/-- A block of a TLOAD lies in a bank that is being handed over to the reed: the access waits (R200). -/
def tloadWait (s : State) (x : ReedRef) (t src stride : Nat) : Bool :=
  (List.range (tG t * tL t)).any (fun i => decide (s.sramCheck x false ((src + i * stride) % 2 ^ 64) (blockBytes t) 1 = .wait))

/-- TLOAD (R79, R128). -/
def execTload (x : RI) (s : State) : Res :=
  .next (runReed x { a := true, b := true } s (fun s r =>
    let t := r.tcfg.toNat
    let src := (r.sget x.a).toNat
    let stride := (r.sget x.b).toNat
    let al := if blockBytes t = 32 then 32 else 64
    if src % al ≠ 0 ∨ stride % al ≠ 0 then .exc s 0x02 0 0
    else match tloadBad s x.reed t src stride with
      | some (c, a) => .exc (s.noteExc x.reed c a (blockBytes t)) c 0 (a % 2 ^ 48)
      | none =>
        if tloadWait s x.reed t src stride then .hold s r .bank
        else
        let r1 := loadArrays s x.reed t src stride (tG t * tL t) r
        .done ((noteArrays s x.reed t src stride (tG t * tL t)).cntAdd .reed x.reed.die (17 * x.reed.k + x.reed.r) 0x040 1)
          { r1 with statSrc := r.sget x.a, statStride := r.sget x.b }))

/-- One product of a stationary and a stream operand added to a partial sum (R85, R172 to R174). -/
def accumulate (sfmt tfmt : Nat) (ieee wrapMode : Bool) (acc : Word) (st w : Nat) : Word :=
  if fmtIsInt sfmt then
    int32 wrapMode (acc.toInt + signed (fmtBits tfmt) st * signed (fmtBits sfmt) w)
  else match ffmt? sfmt, ffmt? tfmt with
    | some fs, some ft => toFp32 ieee ((fp32 acc).add ((ft.decode st).mul (fs.decode w)))
    | _, _ => acc

/-- Columns of one stream-layout tile (R244). -/
def tileCols (sfmt : Nat) : Nat := if sfmt = 0 then 1024 else 4096 / fmtBits sfmt

/-- Element (k, j) of a stream-layout tile in reed SRAM (R244). -/
def State.tileElem (s : State) (x : ReedRef) (sfmt base k j : Nat) : Nat :=
  if sfmt = 0 then s.sramRead x (base + 512 * k + j / 2) 1 / 2 ^ (4 * (j % 2)) % 16
  else
    let n := fmtBits sfmt / 8
    s.sramRead x (base + 512 * k + n * j) n

/-- The packed element `i` of a token at an address (R129, R160). -/
def State.tokElem (s : State) (x : ReedRef) (sfmt base i : Nat) : Nat := s.elemRead x sfmt base (fmtBits sfmt / 8) i

/-- Fold the eight cells of one column of one array, in ascending input feature; `op k` gives the stream operands of
row k. In INT4 × INT4 stationary weight each cell makes two products, the low nibble first (R85, R129). -/
def foldCells (r : Reed) (t arr c : Nat) (op : Nat → Nat) (op2 : Nat → Nat) (acc : Word) : Nat → Word
  | 0 => acc
  | k + 1 =>
    let a := foldCells r t arr c op op2 acc k
    let st := SMap.get (fun _ => 0) r.stat (64 * arr + 8 * k + c)
    if t44 t && tSw t then
      let a1 := accumulate 0 0 r.ieee r.wrapMode a (st % 16) (op k)
      accumulate 0 0 r.ieee r.wrapMode a1 (st / 16) (op2 k)
    else accumulate (tSfmt t) (tTfmt t) r.ieee r.wrapMode a st (op k)

/-- Fold a cascade's arrays `0 .. l-1` of group `g` (R86, R129). -/
def foldCascade (r : Reed) (t g c : Nat) (op op2 : Nat → Nat → Nat) (acc : Word) : Nat → Word
  | 0 => acc
  | p + 1 => foldCells r t (g * tL t + p) c (op p) (op2 p) (foldCascade r t g c op op2 acc p) 8

/-- Add one beat's products into one accumulator row of every group: `n` counts (group, column) pairs. -/
def beatRow (r0 : Reed) (t row : Nat) (op op2 : Nat → Nat → Nat → Nat) : Nat → Reed → Reed
  | 0, r => r
  | n + 1, r =>
    let r' := beatRow r0 t row op op2 n r
    let g := n / 8
    let c := n % 8
    r'.accSet (g * tL t) row c (foldCascade r0 t g c (op g) (op2 g) (r'.accGet (g * tL t) row c) (tL t))

/-- What a beat meets: it is done, it waits, or it raises an exception. -/
inductive BeatRes where
  | ok (s : State) (r : Reed)
  | stall (w : Wait)
  | exc (code detail addr : Nat)
  /-- An access of `n` bytes at `a` refused with a code. -/
  | badMem (code a n : Nat)
  deriving Repr

/-- The tiles of the current row of the W stream, when they can be consumed (R95, R101, R130). -/
def wRow (r : Reed) (t : Nat) : BeatRes ⊕ List Tile :=
  let e := r.w
  let row := e.tiles.take (tL t)
  if row.length < tL t then
    (if e.err ≠ 0 ∧ row.length + e.readsLeft < tL t ∧ row.all (fun u => u.landed) then .inl (.exc 0x06 e.err 0) else .inl (.stall .tile))
  else if row.all (fun u => u.landed) = false then .inl (.stall .tile)
  else if row.any (fun u => u.poison) then .inl (.exc 0x07 0 0)
  else .inr row

/-- One stationary-activation beat: the next column (two in INT4 × INT4) of the W stream (R129, R130). The row's tiles are
freed with its last column (R90). -/
def saBeat (s : State) (x : ReedRef) (r : Reed) (row : Nat) : BeatRes :=
  let t := r.tcfg.toNat
  match wRow r t with
  | .inl b => b
  | .inr tiles =>
    let col := r.w.col
    let el (j _g p k : Nat) : Nat :=
      match tiles[p]? with
      | some u => s.tileElem x (tSfmt t) u.slot k j
      | none => 0
    let r1 := beatRow r t row (el col) (el col) (8 * tG t) r
    let r2 := if t44 t then beatRow r t (row + 1) (el (col + 1)) (el (col + 1)) (8 * tG t) r1 else r1
    let col' := col + (if t44 t then 2 else 1)
    if tileCols (tSfmt t) ≤ col' then
      let s1 := (s.setReed x r2).releaseTiles x false (tL t)
      let r3 := s1.reed x
      .ok s1 { r3 with w := { r3.w with col := 0 } }
    else .ok s { r2 with w := { r2.w with col := col' } }

/-- One stationary-weight beat: token `j` of every group (R129). -/
def swBeat (s : State) (x : ReedRef) (r : Reed) (row j n src stride : Nat) : BeatRes :=
  let t := r.tcfg.toNat
  let per := if t44 t then 16 else 8
  let need := (tL t * per * fmtBits (tSfmt t) + 7) / 8
  let bad := (List.range (tG t)).findSome? (fun g =>
    let a := (src + (g * n + j) * stride) % 2 ^ 64
    match s.sramCheck x false a need 1 with
    | .exc c => some (some (c, a))
    | .wait => some none
    | .ok => none)
  match bad with
  | some (some (c, a)) => .badMem c a need
  | some none => .stall .bank
  | none =>
    let el (o g p k : Nat) : Nat :=
      s.tokElem x (tSfmt t) ((src + (g * n + j) * stride) % 2 ^ 64) (if t44 t then 16 * p + 2 * k + o else 8 * p + k)
    let s1 := (List.range (tG t)).foldl (fun (u : State) g => u.noteRead x ((src + (g * n + j) * stride) % 2 ^ 64) need) s
    .ok s1 (beatRow r t row (el 0) (el 1) (8 * tG t) r)

/-- The consumption point of engine W: the oldest tile, else the next one to issue, with the column (R130, R601). -/
def Engine.pointCol (e : Engine) : Nat × Nat × Nat × Nat × Nat :=
  match e.tiles with
  | t :: _ => (t.desc, t.row, t.idx, t.num, e.col)
  | [] => (e.desc, e.row, e.idx, e.num, e.col)

/-- A reed about to begin an 8-row block: engine W keeps its consumption point at the block's first column (R153). -/
def Reed.openBlock (r : Reed) : Reed :=
  match r.held with
  | some a => { r with acc := a, held := none }
  | none => { r with w := { r.w with blk := some r.w.pointCol } }

/-- A reed whose block has committed up to row `j` (R129). -/
def Reed.commitBlock (r : Reed) (j : Nat) : Reed :=
  { r with prog := BitVec.ofNat 64 j, held := none, sub := 0, w := { r.w with blk := none } }

/-- A reed whose block is incomplete: `r0` is the reed before the block, and the rows so far are kept aside (R153). -/
def Reed.keepBlock (r : Reed) (r0 : Reed) (rows : Nat) : Reed := { r with acc := r0.acc, held := some r.acc, sub := rows }

/-- A reed whose incomplete block is discarded: engine W's record keeps the block's first column (R153). -/
def Reed.dropBlock (r : Reed) (r0 : Reed) : Reed := { r with acc := r0.acc, held := none, sub := 0 }

/-- What a block of a sweep comes to: it commits, it waits with the rows it has done, or it raises an exception. -/
inductive BlockRes where
  | ok (s : State) (r : Reed)
  | stall (s : State) (r : Reed) (rows : Nat) (w : Wait)
  | exc (s : State) (r : Reed) (code detail addr : Nat)
  deriving Repr

/-- The beats of one 8-row block from row `j` of the sweep, `b` rows of the block done before it (R129). -/
def sweepBlock (x : ReedRef) (n row0 src stride : Nat) : Nat → Nat → Nat → State → Reed → BlockRes
  | 0, _, _, s, r => .ok s r
  | fuel + 1, b, j, s, r =>
    let t := r.tcfg.toNat
    let rpb := if t44 t && !tSw t then 2 else 1
    match (if tSw t then swBeat s x r (row0 + j) j n src stride else saBeat s x r (row0 + j)) with
    | .ok s1 r1 =>
      if (j + rpb) % 8 = 0 ∨ n ≤ j + rpb then .ok s1 r1 else sweepBlock x n row0 src stride fuel (b + rpb) (j + rpb) s1 r1
    | .stall w => .stall s r b w
    | .exc c d a => .exc s r c d a
    | .badMem c a k => .exc (s.noteExc x c a k) r c 0 (a % 2 ^ 48)

/-- Cycles per beat (R145). The table of R83 gives 1,024 cycles for a 4 KiB tile of INT4 × INT8 either way round; an INT8 stream
over an INT4 stationary operand has 512 columns in its tile, at one cycle each by R145, and REED_ACTIVE_CYC counts those 512
(DESIGN CHOICE, log entry 186). -/
def cyclesPerBeat (t : Nat) : Nat := if fmtBits (tSfmt t) = 16 ∨ fmtBits (tTfmt t) = 16 then 2 else 1

/-- The blocks of a sweep from row `prog`: each commits whole. A wait keeps the rows of its block aside, an exception discards
them, and under a pre-emption request the sweep stops at the block's end (R129, R147, R153). -/
def sweepLoop (x : ReedRef) (n row0 src stride : Nat) : Nat → Nat → State → Reed → RRes
  | 0, _, s, r => .done s { r with prog := 0 }
  | fuel + 1, j, s, r =>
    if n ≤ j then .done s { r with prog := 0 }
    else
      let t := r.tcfg.toNat
      let rpb := if t44 t && !tSw t then 2 else 1
      match sweepBlock x n row0 src stride 8 r.sub (j + r.sub) s r.openBlock with
      | .ok s1 r1 =>
        let j' := min n (j + 8)
        let s2 := s1.cntAdd .reed x.die (17 * x.k + x.r) 0x030 (ceilDiv (j' - j) rpb * cyclesPerBeat t)
        if j' < n ∧ s.preAsked r = true then .hold s2 (r1.commitBlock j') .none
        else sweepLoop x n row0 src stride fuel j' s2 (r1.commitBlock j')
      | .stall s1 r1 rows w => .hold s1 (r1.keepBlock r rows) w
      | .exc s1 r1 c d a => .exc (s1.setReed x (r1.dropBlock r)) c d a

/-- TSWEEP (R85 to R90, R128 to R130). Of a stationary-weight sweep that breaks both the alignment and the row range the spec
gives no order: the model raises the illegal operand 0x02 before the range exception 0x03, as the operation of R129 tests its
operands (DESIGN CHOICE, log entry 187). -/
def execTsweep (x : RI) (s : State) : Res :=
  .next (runReed x { d := true, a := true, b := true, c := true } s (fun s r =>
    let t := r.tcfg.toNat
    let n := (r.sget x.a).toNat
    let row0 := (r.sget x.b).toNat
    let src := (r.sget x.c).toNat
    let stride := (r.sget x.d).toNat
    if tSw t = false ∧ (x.c ≠ 0 ∨ x.d ≠ 0) then .exc s 0x01 0 0
    else if n = 0 ∨ 1024 < n ∨ (t44 t = true ∧ tSw t = false ∧ n % 2 = 1) then .exc s 0x02 0 0
    else if tSw t = true ∧ (src % 64 ≠ 0 ∨ stride % 64 ≠ 0) then .exc s 0x02 0 0
    else if 1024 < row0 + n then .exc s 0x03 0 0
    else sweepLoop x.reed n row0 src stride 130 r.prog.toNat s r))

/-- TCLR: the rows of all 32 accumulator files become 0 (R131). -/
def execTclr (x : RI) (s : State) : Res :=
  .next (runReed x { a := true, b := true } s (fun s r =>
    let n := (r.sget x.a).toNat
    let row := (r.sget x.b).toNat
    if n = 0 ∨ 1024 < n then .exc s 0x02 0 0
    else if 1023 < row + n - 1 then .exc s 0x03 0 0
    else .done s { r with acc := SMap.keep (fun k => !(decide (row ≤ k % 8192 / 8) && decide (k % 8192 / 8 < row + n))) r.acc }))

end Sys2Proof.Machine
end

