-- ==== Sys2Proof/Machine/Steps.lean ====
section
/-! DEFINITION. Steps: finding them, retiring them, their records and what they leave to their requests (R45, R46, R58 to
R62, R512, R513). -/
namespace Sys2Proof.Machine

/-- A register of BRTH_ on bellows-A. -/
def brthA (off : Nat) : Nat := Blk.brth.at 4 4 off

/-- The step of a serial number. -/
def State.stepOf (s : State) (uid : Nat) : Option Step := s.steps.find? (fun e => decide (e.uid = uid))

/-- Change a step. -/
def State.modStep (s : State) (uid : Nat) (f : Step → Step) : State :=
  { s with steps := s.steps.map (fun e => if e.uid = uid then f e else e) }

/-- The step that runs in a slot of a die (R45). -/
def State.stepIn (s : State) (die slot : Nat) : Option Step :=
  s.steps.find? (fun e => e.active && decide (e.desc.die = die) && e.desc.mask.testBit slot)

/-- The running steps of a step's group, itself included (R45, R590). -/
def State.groupOf (s : State) (e : Step) : List Step :=
  if e.desc.group = 0 then [e]
  else s.steps.filter (fun f => f.active && decide (f.desc.group = e.desc.group) && decide (f.breath = e.breath))

/-- Consorts of a step's mask, ascending. -/
def StepDesc.consorts (d : StepDesc) : List Nat :=
  if d.die < 4 then (List.range 8).filter (fun k => d.mask.testBit k) else []

/-- Unit slots of a step's mask, ascending. -/
def StepDesc.units (d : StepDesc) : List Nat :=
  (List.range 16).filter (fun k => d.mask.testBit k && (decide (4 ≤ d.die) || decide (8 ≤ k)))

/-- The reeds that belong to a step: their numbers. -/
def State.reedsOf (s : State) (uid : Nat) : List Nat :=
  (s.reeds.filter (fun e => decide (e.2.step = uid) && decide (e.2.run ≠ .idle))).map (fun e => e.1)

/-! ### Step records (R58, R59) -/

/-- Byte 15 of a record. -/
def Step.recFlags (e : Step) (dropped : Bool) : Nat :=
  b2n e.overrun + 2 * b2n e.deferred + 4 * b2n e.fault + 8 * b2n e.preempted + 16 * b2n e.throttled +
    32 * b2n e.late + 64 * b2n dropped

/-- The 32 bytes of a record; the DRAM traffic is at least the program bytes that the reeds have copied (R112). -/
def Step.record (e : Step) (finish dram stall : Nat) (dropped : Bool) : List Byte :=
  leBytes 8 e.breath ++ leBytes 4 e.desc.stepId ++ leBytes 2 e.desc.group ++ leBytes 1 e.desc.die ++
    leBytes 1 (e.recFlags dropped) ++ leBytes 4 (min finish (2 ^ 32 - 1)) ++ leBytes 4 e.desc.predNs ++
    leBytes 4 (min (max dram (ceilDiv e.progBytes 1024)) (2 ^ 32 - 1)) ++ leBytes 2 (min stall 65535) ++ leBytes 1 (min e.overBreaths 255) ++ [0]

/-- Discard a record (R59). -/
def State.recLost (s : State) : State := (s.cntAdd .brth 4 4 0x040 1).raise (brthA 0) 2

/-- Write a record to the ring, while `rec_enable` is set (R59, R70). -/
def State.recWrite (s : State) (bs : List Byte) : State :=
  let head := (s.reg (brthA 0x13C)).toNat
  let tail := (s.reg (brthA 0x140)).toNat
  let n := 2 ^ s.fld (brthA 0x138) 4 0
  let base := s.fld (brthA 0x130) 31 12 * 4096 + s.fld (brthA 0x134) 15 0 * 2 ^ 32
  if s.rbit (brthA 0x008) 1 = false then s
  else if n ≤ serialDiff head tail then s.recLost
  else match s.physRange .dma none (base + head % n * 32) 32 with
    | none => s.recLost
    | some ps =>
      if s.partialBad ps ∨ sramBase ≤ base then s.recLost
      else (s.writePhys ps bs).setReg (brthA 0x13C) (BitVec.ofNat 32 (head + 1))

/-! ### What a retired step leaves to its requests (R512, R513) -/

/-- The recoverable faults of R512; source 0 is a fence, a die quiesce or a failed save. -/
def recoverable (src code detail : Nat) : Bool :=
  decide (src = 0) ||
  decide (src = 1 ∧ (code = 0x07 ∨ (code = 0x06 ∧ (detail = 0x05 ∨ detail = 0x08)))) ||
  decide (src = 2 ∧ (code = 0x08 ∨ code = 0x09)) || decide (src = 3 ∧ code = 4) || decide (src = 4 ∧ code = 4) ||
  decide (src = 5 ∧ code = 3)

/-- Leave each request of a retired step its outcome: a recovery (0), a failure (5), a solo rerun, which the
planner then makes, or a clean retirement (7). A step that retires pre-empted has not completed and leaves none, with an exception too, which
its restored reed raises again (R595, R596). -/
def State.stepOutcomes (s : State) (e : Step) : State :=
  let (src, code, detail) := e.cause.getD (0, 0, 0)
  let rec0 := recoverable src code detail && !e.updates
  e.reqs.foldl (fun t q =>
    if e.preempted then t
    else if e.fault = false then (t.reqOutcome q.1 e.uid 7 0 0).modReq q.1 (fun r => { r with solo := false })
    else if e.desc.die = 4 ∨ e.desc.die = 5 then t
    else if rec0 then t.reqOutcome q.1 e.uid 0 src code
    else if e.updates = true ∨ e.reqs.length ≤ 1 then t.reqOutcome q.1 e.uid 5 src code
    else if (t.req q.1).live then t.modReq q.1 (fun r => { r with solo := true })
    else t) s

/-- An engine after its reed's pre-emption: its tiles are discarded, and the list counts as ended, as after a flush, with the
error kept (R102, R602; DESIGN CHOICE, log entry 189). -/
def Engine.discard (e : Engine) : Engine := { e.flush with err := e.err, blk := none }

/-- The ended or saved reeds of a step are idle again; a reed that holds an exception keeps its state (R150). -/
def State.freeReeds (s : State) (uid : Nat) : State :=
  let f (x : Nat × Reed) : Nat × Reed :=
    if x.2.step = uid ∧ x.2.run = .preempted then
      (x.1, { x.2 with run := .idle, wait := .none, w := x.2.w.discard, a := x.2.a.discard })
    else if x.2.step = uid ∧ x.2.run = .ended then (x.1, { x.2 with run := .idle, wait := .none }) else x
  { s with reeds := (s.reeds.map f).filter (fun x => decide (x.2 ≠ Reed.blank x.1)) }

/-- Retire a step (R46, R58, R292, R329, R362): its versions are released, its slots and reeds are free, its requests' lengths
advance where it carries neither `fault` nor `pre-empted`, and its record is written. -/
def State.retire (s : State) (uid finish dram stall : Nat) (dropped : Bool) : State :=
  match s.stepOf uid with
  | none => s
  | some e =>
    let d := e.desc.die
    let s1 := if d < 4 then (((s.releaseVers 0 d uid).releaseVers 1 d uid).panpRetire d uid)
      else if d < 6 then (s.releaseVers 2 d uid).releaseVers 3 d uid else s
    let s2 := e.desc.units.foldl (fun t k => match t.runOf d k with
      | some r => if r.uid = uid then t.setRun d k none else t
      | none => t) s1
    let s3 := s2.freeReeds uid
    let s4 := ((if e.fault ∨ e.preempted then s3 else s3.lengthAdvance e).stepOutcomes e).modStep uid (fun f => { f with retired := true, held := false, stopping := false })
    let s5 := match e.resumes with
      | some u => if e.fault ∨ e.preempted then s4 else s4.modStep u (fun f => { f with completed := true })
      | none => s4
    s5.recWrite (e.record finish dram stall dropped)

/-- Every reed of a step is over, and every unit of it has ended its list (R58, R115). -/
def State.stepDone (s : State) (e : Step) : Bool :=
  (s.reedsOf e.uid).all (fun n => (SMap.get Reed.blank s.reeds n).over) &&
  e.desc.units.all (fun k => match s.runOf e.desc.die k with
    | some r => decide (r.uid ≠ e.uid) || r.ended
    | none => true)

/-- Retire a group together, each step with the measures of its place in the list (R45). -/
def State.retireAll (s : State) : List Step → List (Nat × Nat × Nat) → State
  | [], _ => s
  | e :: es, ms =>
    let (f, d, t) := ms.headD (0, 0, 0)
    State.retireAll (s.retire e.uid f d t false) es ms.tail

/-- A chain step whose last link has not ended does not retire (R625). -/
def Step.lastLink (e : Step) : Bool := decide (e.chain.length ≤ e.link + 1)

/-- A group with a chain step of which a link has failed: every step carries `fault`, with the first failure (R627). -/
def State.chainFail (s : State) (g : List Step) : State :=
  if g.any (fun f => decide (f.chain ≠ [])) && g.any (fun f => f.fault) then
    let c := (g.find? (fun f => f.fault)).bind (fun f => f.cause)
    let (src, code, detail) := c.getD (0, 0, 0)
    g.foldl (fun (t : State) f => t.stepFault f.uid src code detail) s
  else s

/-- STEP_RETIRE (R45, R58, R115, R625, R627): the step in a slot has ended on all its units, as has its group; the group
retires together. `meas` gives, for each step of the group in order of dispatch, finish_ns, dram_kib and stall_us as
measured. -/
def execStepRetire (die slot : Nat) (meas : List (Nat × Nat × Nat)) (s : State) : Res :=
  .next (match s.stepIn die slot with
    | none => s
    | some e =>
      let g := s.groupOf e
      if g.all (fun f => s.stepDone f) && (g.all (fun f => f.lastLink) || g.any (fun f => f.fault)) then
        let s1 := s.chainFail g
        s1.retireAll (g.filterMap (fun f => s1.stepOf f.uid)) meas
      else s)

end Sys2Proof.Machine
end

