-- ==== Sys2Proof/Machine/Partitions.lean ====
section
/-! DEFINITION. Pre-emption of step groups, context images and resume steps (R590 to R611), and the bandwidth regulators
(R578 to R585). -/
namespace Sys2Proof.Machine

/-! ### Pre-emption (R590 to R597) -/

/-- Keep `busy` of PART_PREEMPT_STATUS on every die: a step of the die, or of a write on the die, is being pre-empted. -/
def State.preBusy (s : State) : State :=
  (List.range 8).foldl (fun (t : State) d =>
    t.setFld (partA d 0x144) 31 31 (b2n (t.steps.any (fun (e : Step) =>
      e.stopping && (decide (e.desc.die = d) || decide (e.preBy = d)))))) s

/-- The steps of the groups that a slot mask of a die names, without those already being pre-empted (R590, R591). -/
def State.preNamed (s : State) (die mask : Nat) : List Nat :=
  ((s.steps.filter (fun e => e.active && decide (e.desc.die = die) && decide (e.desc.mask &&& mask % 65536 ≠ 0))).flatMap
    (fun e => (s.groupOf e).filter (fun f => f.active && !f.stopping))).map (fun e => e.uid)

/-- Keep the units of a step from starting another descriptor, or let them (R398, R446, R593). -/
def State.holdUnits (s : State) (e : Step) (h : Bool) : State :=
  e.desc.units.foldl (fun (t : State) k =>
    match t.runOf e.desc.die k with
    | some r => if r.uid = e.uid then t.setRun e.desc.die k (some { r with hold := h }) else t
    | none => t) s

/-- Start the pre-emption of the named steps and their groups (R590, R591). The save list of a die holds a block for each
consort of the written mask and of the steps being pre-empted there (R591, R603). -/
def State.preempt (s : State) (die mask : Nat) : State :=
  let us := s.preNamed die mask
  let cons (d : Nat) : Nat :=
    (s.steps.filter (fun (e : Step) => us.contains e.uid && decide (e.desc.die = d))).foldl (fun a e => a ||| (e.desc.mask % 256))
      (if d = die then mask % 256 else 0)
  let s1 := { s with steps := s.steps.map (fun (e : Step) =>
    if us.contains e.uid then { e with stopping := true, preBy := die, saveMask := cons e.desc.die } else e) }
  let s2 := (s1.steps.filter (fun (e : Step) => us.contains e.uid)).foldl (fun t e => t.holdUnits e true) s1
  (s2.setFld (partA die 0x144) 15 0 0).preBusy

/-- PART_PREEMPT (R590, R591). -/
def execPartPreempt (who : Requester) (die : Nat) (value : Word) (s : State) : Res :=
  .next (s.gate who (Blk.part.at die die 0x140) (fun s =>
    (if 8 ≤ die then s
    else if s.rbit (partA die 0x144) 31 then s.refuseWrite who .part die die 0x140 value
    else (s.writeAt who .part die die 0x140 value).preempt die value.toNat)))

/-- PREEMPT_TAKE (R152 to R156, R602): a running reed stops; a wait is abandoned, the rows of a block that is not complete are
discarded, and engine A completes the write tiles it has issued. -/
def execPreemptTake (die slot r : Nat) (s : State) : Res :=
  let x : ReedRef := ⟨die, slot, r⟩
  let y := s.reed x
  .next (if 4 ≤ die ∨ 8 ≤ slot ∨ 17 ≤ r ∨ y.run ≠ .running ∨
      s.steps.any (fun (e : Step) => decide (e.uid = y.step) && e.stopping) = false then s
    else
      let s1 := s.drainWrites x true
      let r := s1.reed x
      s1.setReed x { r with run := .preempted, wait := .none, held := none, sub := 0, a := r.a.settle })

/-! ### The context image (R598 to R602) -/

/-- The banks of a reed that its image saves (R598). -/
def State.localBanks (s : State) (x : ReedRef) : List Nat :=
  (List.range 8).filter (fun n => decide (s.reedBank x n = (0, 1)))

/-- Size of an image of `b` banks (R598). -/
def imageSize (b : Nat) : Nat := 1126400 + 524288 * b

/-- A mask of the numbers of a list. -/
def maskOf (ns : List Nat) : Nat := ns.foldl (fun a n => a ||| 2 ^ n) 0

/-- Words 1024 j to 1024 j + 1023 of a sparse map, little-endian. -/
def mapTile (m : SMap Word) (j : Nat) : List Byte :=
  (List.range 1024).flatMap (fun i => leBytes 4 (SMap.get (fun _ => (0 : Word)) m (1024 * j + i)).toNat)

/-- The consumption point of an engine: descriptor, row, tile, number and column of the block in progress (R153), else of the
oldest tile not released, else of the next one to issue; past the last descriptor where the list has ended (R601). -/
def Engine.point (e : Engine) : Nat × Nat × Nat × Nat × Nat :=
  match e.blk, e.tiles with
  | some p, _ => p
  | none, t :: _ => (t.desc, t.row, t.idx, t.num, e.col)
  | none, [] => if e.done then (e.desc + 32, 0, 0, e.num, e.col) else (e.desc, e.row, e.idx, e.num, e.col)

/-- The record of an engine (R601). -/
def Engine.record (e : Engine) (isA : Bool) (qbase : Nat) : List Byte :=
  let p := e.point
  leBytes 1 (b2n e.enable + 2 * b2n (decide (e.err ≠ 0))) ++ leBytes 1 e.slots ++ leBytes 1 e.look ++ leBytes 1 e.err ++
    leBytes 4 qbase ++ leBytes 4 e.list ++ leBytes 4 p.1 ++ leBytes 4 p.2.1 ++ leBytes 4 p.2.2.1 ++
    leBytes 4 (if isA then 0 else p.2.2.2.2) ++ leBytes 4 p.2.2.2.1 ++ leBytes 4 (if isA then e.permits else 0) ++
    leBytes 4 (if isA then e.issuedW else 0) ++ List.replicate 24 0

/-- A reed's exception report: valid, code, detail (R148). -/
def State.excOf (s : State) (x : ReedRef) : Bool × Nat × Nat :=
  let a := Blk.reed.at x.die (17 * x.k + x.r) 0x01C
  (s.rbit a 31, s.fld a 23 16, s.fld a 15 8)

/-- The core-state tile (R600). -/
def State.coreTile (s : State) (x : ReedRef) : List Byte :=
  let r := s.reed x
  let (v, code, det) := s.excOf x
  (List.range 32).flatMap (fun i => leBytes 8 (r.sget i).toNat) ++
    (List.range 16).flatMap (fun i => leBytes 8 ((r.cr i).getD 0).toNat) ++
    (List.range 8).flatMap (fun i => leBytes 4 (r.mget i).toNat) ++
    leBytes 2 r.pc ++ leBytes 1 (if v then code else 0) ++ leBytes 1 (if v then det else 0) ++
    (List.range 3).flatMap (fun i => leBytes 4 (SMap.get (fun _ => 0) r.bars i)) ++ List.replicate 80 0 ++
    r.w.record false (s.qbase x false) ++ r.a.record true (s.qbase x true) ++ List.replicate 3456 0

/-- The header tile (R599). -/
def State.headTile (s : State) (x : ReedRef) (pos : Nat) (e : Step) : List Byte :=
  let r := s.reed x
  let bs := s.localBanks x
  let horn := (s.horn x.die x.k).cut.contains pos
  leBytes 4 0x52435458 ++ leBytes 2 1 ++ leBytes 1 (b2n (s.excOf x).1 + 2 * b2n horn) ++ leBytes 1 (maskOf bs) ++
    leBytes 4 (imageSize bs.length) ++ leBytes 1 pos ++ leBytes 1 (bits r.role.toNat 11 8) ++ leBytes 1 e.desc.part ++ [0] ++
    leBytes 4 e.desc.stepId ++ leBytes 2 e.desc.group ++ leBytes 1 32 ++ [0] ++ leBytes 8 s.breath.number ++
    List.replicate 4064 0

/-- Tile `i` of an image, from tile 1 (R598). -/
def State.imageTile (s : State) (x : ReedRef) (i : Nat) : List Byte :=
  let r := s.reed x
  if i = 1 then s.coreTile x
  else if i = 2 then mapTile r.v 0
  else if i < 19 then (List.range 512).flatMap (fun j => leBytes 8 (r.ibuf.getD (512 * (i - 3) + j) 0).toNat)
  else if i < 275 then mapTile r.acc (i - 19)
  else
    let b := (s.localBanks x).getD ((i - 275) / 128) 0
    s.readPhys ((List.range 4096).map (fun j => reedSram x (2 ^ 19 * b + 4096 * ((i - 275) % 128) + j)))

/-- Tiles of an image after the header. -/
def State.imageTiles (s : State) (x : ReedRef) : Nat := 274 + 128 * (s.localBanks x).length

/-- A bank that an image saves holds an uncorrectable word. -/
def State.bankBad (s : State) (x : ReedRef) (n : Nat) : Bool :=
  s.flip.any (fun e => decide (reedSram x (2 ^ 19 * n) ≤ 8 * e.1 ∧ 8 * e.1 < reedSram x (2 ^ 19 * n) + 2 ^ 19) &&
    (eccClass (syndrome e.2)).bad)

/-- The reeds of a step that are not fenced, with their logical positions, by consort and position. -/
def State.saveReeds (s : State) (e : Step) : List (ReedRef × Nat) :=
  e.desc.consorts.flatMap (fun k => (List.range 16).filterMap (fun p =>
    match s.physOf e.desc.die k p with
    | none => none
    | some r => if (s.reed ⟨e.desc.die, k, r⟩).step = e.uid ∧ (s.reed ⟨e.desc.die, k, r⟩).run ≠ .idle
      then some (⟨e.desc.die, k, r⟩, p) else none))

/-- The address a save list gives a reed, or the code of R611. -/
def State.saveEntry (s : State) (e : Step) (x : ReedRef) (pos : Nat) : Except Nat Nat :=
  let d := x.die
  let base := s.fld (partA d 0x148) 31 6 * 64 + s.fld (partA d 0x14C) 15 0 * 2 ^ 32
  let size := imageSize (s.localBanks x).length
  match s.readLe (.unit d) none (base + 128 * popcount x.k e.saveMask + 8 * pos) 8 with
  | .error .refused => .error 1
  | .error .uncorrectable => .error 2
  | .ok v =>
    if v = 0 ∨ bits v 63 48 ≠ 0 ∨ v % 4096 ≠ 0 then .error 1
    else if s.windowsAdmit d e.desc.part true (windowAddr (some d) v) size = false ∨
        (s.physRange (.unit d) none v size).isNone then .error 1
    else if (s.localBanks x).any (fun n => s.bankBad x n) then .error 2
    else .ok v

/-- Write the body of one image, and its header. -/
def State.writeImage (s : State) (e : Step) (x : ReedRef) (pos a : Nat) : State :=
  let put (t : State) (i : Nat) (bs : List Byte) : State := t.writeSeen (.unit x.die) none (a + 4096 * i) bs
  let s1 := (List.range (s.imageTiles x)).foldl (fun (t : State) i => put t (i + 1) (s.imageTile x (i + 1))) s
  put s1 0 (s.headTile x pos e)

/-- The save list entries of a step's reeds, or the first code of a failure (R596, R611). -/
def State.saveJobs (s : State) (e : Step) : Except Nat (List (ReedRef × Nat × Nat)) :=
  if e.saveErr ≠ 0 then .error e.saveErr
  else (s.saveReeds e).foldl (fun (acc : Except Nat (List (ReedRef × Nat × Nat))) q =>
    match acc with
    | .error c => .error c
    | .ok js =>
      match s.saveEntry e q.1 q.2 with
      | .error c => .error c
      | .ok a => .ok (js ++ [(q.1, q.2, a)])) (.ok [])

/-- What a save counts and records of the words it reads: its save list, and the banks (R212, R213). -/
def State.noteSave (s : State) (e : Step) : State :=
  (s.saveReeds e).foldl (fun (t : State) q =>
    let d := q.1.die
    let base := s.fld (partA d 0x148) 31 6 * 64 + s.fld (partA d 0x14C) 15 0 * 2 ^ 32
    (s.localBanks q.1).foldl (fun (u : State) n => u.noteRange (reedSram q.1 (2 ^ 19 * n)) (2 ^ 19))
      (t.noteDev (.unit d) none false (base + 128 * popcount q.1.k e.saveMask + 8 * q.2) 8)) s

/-- Leave undefined the bodies of the images of a failed save, where they were being written (R596). -/
def State.undefineImages (s : State) (e : Step) : State :=
  (s.saveReeds e).foldl (fun (t : State) q =>
    match s.saveEntry e q.1 q.2 with
    | .ok a =>
      (match t.physRange (.unit q.1.die) none (a + 4096) (4096 * s.imageTiles q.1) with
       | some ps => t.undefine ps
       | none => t)
    | .error _ => t) s

/-- Every reed and unit of a step has stopped: its Horns serve no descriptor of it, its units are between descriptors
(R593). -/
def State.preStopped (s : State) (e : Step) : Bool :=
  (s.reedsOf e.uid).all (fun n => decide ((SMap.get Reed.blank s.reeds n).run ≠ .running)) &&
  e.desc.consorts.all (fun k => (s.horn e.desc.die k).job.isNone) &&
  e.desc.units.all (fun k =>
    if 4 ≤ e.desc.die then true
    else if k = 8 then (s.serp e.desc.die).job.isNone
    else if k = 9 then (s.panp e.desc.die).tiles.isEmpty && (s.panp e.desc.die).need.isNone
    else true)

/-- Descriptors that the unit of a step has completed (R604). -/
def State.unitProgress (s : State) (e : Step) : Nat :=
  match e.desc.units.filterMap (fun k => match s.runOf e.desc.die k with
    | some r => if r.uid = e.uid then some r.idx else none
    | none => none) with
  | i :: _ => i
  | [] => 0

/-- After a step of a pre-emption has retired: `busy`, and `preempt_done` with the last step of the write (R597). -/
def State.preClose (s : State) (die : Nat) : State :=
  let s1 := s.preBusy
  if s1.steps.any (fun (e : Step) => e.stopping && decide (e.preBy = die)) then s1 else s1.raise (partA die 0) 0

/-- CONTEXT_SAVE_DONE (R594 to R597): the images of a stopped step are written, headers last, and it retires `pre-empted`;
a failed save retires it with `fault`. -/
def execContextSaveDone (die slot finish dram stall : Nat) (s : State) : Res :=
  .next (match s.stepIn die slot with
    | none => s
    | some e =>
      if e.stopping = false ∨ s.preStopped e = false then s
      else
        let sn := s.noteSave e
        match s.saveJobs e with
        | .error c =>
          let s1 := ((sn.undefineImages e).stepFault e.uid 0 0 0).retire e.uid finish dram stall false
          (((s1.setFld (partA die 0x144) 23 16 c).raise (partA die 0) 1)).preClose e.preBy
        | .ok js =>
          let s1 := js.foldl (fun (t : State) j => t.writeImage e j.1 j.2.1 j.2.2) sn
          let p := s1.unitProgress e
          let s2 := ((s1.modStep e.uid (fun f => { f with
            preempted := true, progress := p, images := js.map (fun j => j.2.2) })).retire e.uid finish dram stall
            false).cntAdd .part die die 0x048 1
          let st := partA die 0x144
          let s3 := if e.preBy = die then s2.setFld st 15 0 (s2.fld st 15 0 ||| e.desc.mask % 65536) else s2
          s3.preClose e.preBy)

/-! ### Restoring (R603 to R611) -/

/-- Read `n` tiles of an image. -/
def State.readTiles (s : State) (die a : Nat) : Nat → Option (List (List Byte))
  | 0 => some []
  | n + 1 =>
    match State.readTiles s die a n, s.readDev (.unit die) none (a + 4096 * n) 4096 with
    | some ts, .ok t => some (ts ++ [t])
    | _, _ => none

/-- A little-endian field of a tile. -/
def fieldOf (t : List Byte) (off n : Nat) : Nat := leOf ((t.drop off).take n)

/-- A header is valid (R599, R611). -/
def headOk (h : List Byte) : Bool :=
  decide (fieldOf h 0 4 = 0x52435458) && decide (fieldOf h 4 2 = 1) && decide (fieldOf h 6 1 < 4) &&
    decide (fieldOf h 8 4 = imageSize (popcount 8 (fieldOf h 7 1))) && decide (fieldOf h 12 1 < 16) &&
    decide (fieldOf h 14 1 < 64) && decide (fieldOf h 15 1 = 0) && decide (fieldOf h 23 1 = 0) &&
    (h.drop 32).all (fun b => decide (b = 0))

/-- An engine record is valid (R611). -/
def engineOk (c : List Byte) (off : Nat) : Bool :=
  decide (fieldOf c off 1 < 4) && decide (2 ≤ fieldOf c (off + 1) 1 ∧ fieldOf c (off + 1) 1 ≤ 16) &&
    decide (1 ≤ fieldOf c (off + 2) 1 ∧ fieldOf c (off + 2) 1 ≤ 64) && decide (fieldOf c (off + 40) 24 = 0)

/-- One image that a resume list names: the reed that takes it, and its tiles. -/
structure Image where
  x : ReedRef
  pos : Nat
  tiles : List (List Byte)
  deriving DecidableEq, Repr

/-- Check and read the image of an entry, for the block of order `i` (consort `k`) and position `n` (R611). -/
def State.readImage (s : State) (d : StepDesc) (i k n v : Nat) : Except Nat Image :=
  if bits v 63 48 ≠ 0 ∨ v % 4096 ≠ 0 then .error 0x10
  else match s.readDev (.unit d.die) none v 4096 with
    | .error _ => .error 0x14
    | .ok h =>
      if headOk h = false then .error 0x10
      else if fieldOf h 14 1 ≠ d.part then .error 0x11
      else match s.physOf d.die k n with
        | none => .error 0x12
        | some r =>
          let x : ReedRef := ⟨d.die, k, r⟩
          let bm := fieldOf h 7 1
          if fieldOf h 12 1 ≠ n ∨ fieldOf h 13 1 ≠ i then .error 0x12
          else if (List.range 8).any (fun b => bm.testBit b && !(s.localBanks x).contains b) then .error 0x13
          else match s.readTiles d.die v (275 + 128 * popcount 8 bm) with
            | none => .error 0x14
            | some ts => if engineOk (ts.getD 1 []) 0x200 && engineOk (ts.getD 1 []) 0x240 then .ok ⟨x, n, ts⟩ else .error 0x10

/-- The images of a resume step, or the first code of R611. -/
def State.resumeImages (s : State) (d : StepDesc) : Except Nat (List Image) :=
  (d.consorts.zipIdx.flatMap (fun q => (List.range 16).map (fun n => (q.2, q.1, n)))).foldl
    (fun (acc : Except Nat (List Image)) q =>
      match acc with
      | .error c => .error c
      | .ok js =>
        match s.readLe (.unit d.die) none (d.work + 128 * q.1 + 8 * q.2.2) 8 with
        | .error _ => .error 0x14
        | .ok v =>
          if v = 0 then .ok js
          else match s.readImage d q.1 q.2.1 q.2.2 v with
            | .error c => .error c
            | .ok im => .ok (js ++ [im])) (.ok [])

/-- What a resume counts and records of the words it reads: its list, and the images the list names (R212, R213). -/
def State.noteResume (s : State) (d : StepDesc) : State :=
  (d.consorts.zipIdx.flatMap (fun q => (List.range 16).map (fun n => 128 * q.2 + 8 * n))).foldl (fun (t : State) o =>
    let t1 := t.noteDev (.unit d.die) none false (d.work + o) 8
    match s.readLe (.unit d.die) none (d.work + o) 8 with
    | .error _ => t1
    | .ok 0 => t1
    | .ok v =>
      let t2 := t1.noteDev (.unit d.die) none false v 4096
      match s.readDev (.unit d.die) none v 4096 with
      | .error _ => t2
      | .ok h => if headOk h then t2.noteDev (.unit d.die) none false (v + 4096) (fieldOf h 8 4 - 4096) else t2) s

/-- Write tiles of the list that lie before a point, walking from a descriptor; and whether the point lies past a last
descriptor. -/
def State.walkWrites (s : State) (x : ReedRef) (desc row tile : Nat) : Nat → Nat → Nat
  | 0, _ => 0
  | fuel + 1, off =>
    match s.tongueDesc x true off with
    | .error _ => 0
    | .ok d =>
      if off = desc then (if d.kind = 2 then row * d.inner + tile else 0)
      else (if d.kind = 2 then d.inner * d.outer else 0) + (if d.last then 0 else State.walkWrites s x desc row tile fuel (off + 32))

/-- The engine that an engine record restarts (R156, R601). A list ended where its point lies past a last descriptor. -/
def State.loadEngine (s : State) (x : ReedRef) (isA : Bool) (c : List Byte) (off : Nat) : Engine :=
  let f (o n : Nat) : Nat := fieldOf c (off + o) n
  let list := f 8 4
  let desc := f 12 4
  let ended := decide (list < desc) && decide (desc ≤ 2 ^ 22) && bit (s.sramRead x (desc - 32) 32) 168
  let en := bit (f 0 1) 0
  { enable := en, slots := f 1 1, look := f 2 1, err := if bit (f 0 1) 1 then f 3 1 else 0
    active := (en || bit (f 0 1) 1 || decide (desc ≠ list)) && !ended, flushed := !en, list := list
    desc := if ended then desc - 32 else desc, row := f 16 4, idx := f 20 4, done := ended, num := f 28 4
    permits := if isA then f 32 4 else 0, issuedW := if isA then f 36 4 else 0
    wnum := if isA then s.walkWrites x desc (f 16 4) (f 20 4) 131072 list else 0, col := if isA then 0 else f 24 4 }

/-- A sparse map of words from tiles of an image. -/
def tileMap (ts : List (List Byte)) : SMap Word :=
  ts.zipIdx.flatMap (fun t => (List.range 1024).filterMap (fun i =>
    let v := fieldOf t.1 (4 * i) 4
    if v = 0 then none else some (1024 * t.2 + i, BitVec.ofNat 32 v)))

/-- Write the saved banks of an image into a reed. -/
def State.loadBanks (s : State) (im : Image) : State :=
  let bm := fieldOf (im.tiles.getD 0 []) 7 1
  ((List.range 8).filter (fun b => bm.testBit b)).zipIdx.foldl (fun (t : State) q =>
    (List.range 128).foldl (fun (u : State) j =>
      u.writePhys ((List.range 4096).map (fun i => reedSram im.x (2 ^ 19 * q.1 + 4096 * j + i)))
        (im.tiles.getD (275 + 128 * q.2 + j) [])) t) s

/-- The exception that the reload of the stationary registers raises: that of a `TLOAD` from stat_src and stat_stride (R156).
A program that has run no `TLOAD`, whose two registers hold 0, has nothing to reload (DEDUCED, log entry 112). -/
def State.reloadBad (s : State) (x : ReedRef) (r : Reed) : Option (Nat × Nat) :=
  if r.statSrc = 0 ∧ r.statStride = 0 then none else tloadBad (s.setReed x r) x r.tcfg.toNat r.statSrc.toNat r.statStride.toNat

/-- Reload the stationary registers as a `TLOAD` from stat_src and stat_stride would; a block that cannot be read leaves
them cleared (R156). -/
def State.reloadStat (s : State) (x : ReedRef) (r : Reed) : Reed :=
  let t := r.tcfg.toNat
  match tloadBad (s.setReed x r) x t r.statSrc.toNat r.statStride.toNat with
  | some _ => r
  | none => loadArrays s x t r.statSrc.toNat r.statStride.toNat (tG t * tL t) r

/-- The words of an instruction buffer up to the last one that is not 0. The image saves 64 KiB and no instruction count: a word
0 traps wherever it is run, so those that trail are taken to lie past the program's end (DESIGN CHOICE, log entry 188). -/
def trimWords (ws : List DWord) : List DWord := (ws.reverse.dropWhile (fun w => decide (w = 0))).reverse

/-- The exception report of an image: code and detail (R599, R600). -/
def Image.redo (im : Image) : Option (Nat × Nat) :=
  let c := im.tiles.getD 1 []
  if bit (fieldOf (im.tiles.getD 0 []) 6 1) 0 then some (fieldOf c 0x1A2 1, fieldOf c 0x1A3 1) else none

/-- Load one image into its reed (R605). -/
def State.loadImage (s : State) (uid part : Nat) (im : Image) : State :=
  let x := im.x
  let s0 := if (s.reed x).part = some part then s else s.clearLocal x
  let s1 := s0.loadBanks im
  let c := im.tiles.getD 1 []
  let q (isA : Bool) : Nat := if isA then 0x240 else 0x200
  let setQ (t : State) (isA : Bool) : State :=
    let e := t.loadEngine x isA c (q isA)
    (t.setFld (Blk.reed.at x.die (17 * x.k + x.r) (if isA then 0x140 else 0x120)) 21 12 (fieldOf c (q isA + 4) 4 / 4096)).setReg
      (Blk.reed.at x.die (17 * x.k + x.r) (engCtrl isA)) (BitVec.ofNat 32 (b2n e.enable + e.look * 2 ^ 8 + e.slots * 2 ^ 16))
  let s2 := setQ (setQ s1 false) true
  let word (i : Nat) : DWord := BitVec.ofNat 64 (fieldOf c (0x100 + 8 * i) 8)
  let nz {α : Type} [DecidableEq α] (z : α) (n : Nat) (f : Nat → α) : SMap α :=
    (List.range n).filterMap (fun i => if f i = z then none else some (i, f i))
  let r : Reed :=
    { run := .running, step := uid, part := some part
      s := nz 0 32 (fun i => if i = 0 then 0 else BitVec.ofNat 64 (fieldOf c (8 * i) 8))
      v := tileMap [im.tiles.getD 2 []]
      m := nz 0 8 (fun i => if i = 0 then 0 else BitVec.ofNat 32 (fieldOf c (0x180 + 4 * i) 4))
      mode := word 0, tcfg := word 1, srSeed := word 2, srStream := word 3, srBase := word 4, prog := word 5, role := word 6
      statSrc := word 7, statStride := word 8, pc := fieldOf c 0x1A0 2
      ibuf := trimWords (((im.tiles.drop 3).take 16).flatMap (fun t =>
        (List.range 512).map (fun i => BitVec.ofNat 64 (fieldOf t (8 * i) 8))))
      redo := im.redo
      acc := tileMap ((im.tiles.drop 19).take 256)
      bars := nz 0 3 (fun i => fieldOf c (0x1A4 + 4 * i) 4) }
  let s3 := s2.setReed x (s2.reloadStat x r)
  let s4 := s3.setReed x { s3.reed x with w := s3.loadEngine x false c 0x200, a := s3.loadEngine x true c 0x240 }
  let h := s4.horn x.die x.k
  let cut := bit (fieldOf (im.tiles.getD 0 []) 6 1) 1
  let seen := match s4.reedAt x.die x.k im.pos with
    | none => 0
    | some y => s4.ringWord x.die x.k y 0x400 % 2 ^ 24
  let s5 := s4.setHorn x.die x.k { h with
    stopped := h.stopped.filter (fun p => decide (p ≠ im.pos))
    cut := h.cut.filter (fun p => decide (p ≠ im.pos)) ++ (if cut then [im.pos] else [])
    seen := SMap.set (fun _ => 0) h.seen im.pos seen }
  let s6 := (s5.setFld (hornReg x.die x.k 0x108) im.pos im.pos (b2n (bit (match s5.reedAt x.die x.k im.pos with
    | some y => s5.ringWord x.die x.k y 0x404
    | none => 0) 31))).cntAdd .part x.die x.die 0x050 1
  match s2.reloadBad x r with
  | some (c, a) => (s6.noteExc x c a (blockBytes r.tcfg.toNat)).reedExc x c 0 (a % 2 ^ 48)
  | none => s6

/-- The pre-empted step that an image's header names (R599, R606): the newest one not yet completed. -/
def State.suspended (s : State) (stepId group : Nat) : Option Step :=
  (s.steps.filter (fun e => e.preempted && e.retired && !e.completed && decide (e.desc.stepId = stepId) &&
    decide (e.desc.group = group))).getLast?

/-- Dispatch a resume step on consorts: its images load and its reeds run on, or it fails (R605, R611). The answer tells
whether it failed. -/
def State.restore (s : State) (e : Step) : Bool × State :=
  match s.resumeImages e.desc with
  | .error c =>
    let d := e.desc.die
    (true, (((s.noteResume e.desc).stepFault e.uid 0 0 0).setFld (partA d 0x144) 23 16 c).raise (partA d 0) 2)
  | .ok ims =>
    let s1 := ims.foldl (fun (t : State) im => t.loadImage e.uid e.desc.part im) (s.noteResume e.desc)
    let old := match ims with
      | [] => none
      | im :: _ => let h := im.tiles.getD 0 []; s.suspended (fieldOf h 16 4) (fieldOf h 20 2)
    let root := old.map (fun o => o.resumes.getD o.uid)
    (false, s1.modStep e.uid (fun f => { f with resume := true, resumes := root }))

/-- Bytes of a descriptor in the list of a step's units: 32 for the Bell and the Keywork, 64 for every other unit (R44). -/
def listStride (die mask : Nat) : Nat := if 4 ≤ die ∧ (mask = 2 ∨ mask = 4) then 32 else 64

/-- The slots and work address of the link of a step that is in progress (R45, R624). -/
def Step.current (e : Step) : Nat × Nat :=
  match e.chain[e.link]? with
  | some l => (l.mask, l.work)
  | none => (e.desc.mask, e.desc.work)

/-- A unit step, or link 0 of a chain step, on the slots `mask` that goes on where a pre-empted step stopped: same unit slots and
partition, and its list starts at the first descriptor that did not complete (R604, R628). -/
def State.unitResumes (s : State) (d : StepDesc) (mask work : Nat) : Option Nat :=
  ((s.steps.filter (fun e => e.preempted && e.retired && !e.completed && decide (e.desc.die = d.die) &&
    decide (e.current.1 = mask) && decide (e.desc.part = d.part) && decide (0 < mask) &&
    decide (work = e.current.2 + listStride d.die mask * e.progress))).getLast?).map (fun e => e.resumes.getD e.uid)

/-! ### Bandwidth regulators (R578 to R584) -/

/-- BUCKET_GRANT (R580 to R583): the transfers that wait on a resource are given as (partition, bytes), each partition's
next one. One of them is admitted in rotation: first a transfer its own bucket admits, else a borrowing one. `cycles` is the
time that transfers waited. -/
def execBucketGrant (die bkt : Nat) (waiting : List (Nat × Nat)) (cycles : Nat) (s : State) : Res :=
  let ask (p : Nat) : Option (Nat × Nat) := waiting.find? (fun w => decide (w.1 = p))
  let own := s.bktNext die bkt (fun p => (ask p).isSome && s.bktAdmits die p bkt)
  let borrow := s.bktNext die bkt (fun p => (ask p).isSome && s.rbit (bktA die p bkt 0x110) 1)
  let take (t : State) (p : Nat) : State :=
    let t1 := t.bktCharge die p bkt ((ask p).getD (0, 0)).2
    { t1 with bktLast := SMap.set (fun _ => 0) t1.bktLast (16 * die + bkt) ((p + 1) % 64) }
  .next (if bucketsOf die ≤ bkt then s
    else
      let s1 := s.cntAdd .part die die 0x030 cycles
      match own, borrow with
      | some p, _ => take s1 p
      | none, some p => take (s1.cntAdd .part die die 0x038 1) p
      | none, none => s1)

end Sys2Proof.Machine
end

