-- ==== Sys2Proof/Machine/Planner.lean ====
section
/-! DEFINITION. The contract of the step planner and the batch former (R54 to R57, R60, R65 to R67, R240, R250, R261, R264, R318,
R585, R587, R588, R608): it binds like hardware, so a plan outside it is never committed. -/
namespace Sys2Proof.Machine

/-! ### What the planner knows -/

/-- The period in µs of the breath `t` (R36). -/
def State.periodOf (s : State) (t : Nat) : Nat :=
  ((s.breath.pendPeriod.filter (fun p => decide (p.1 ≤ t))).foldl (fun (a : Nat × Nat) p => if a.1 ≤ p.1 then p else a)
    (0, s.breath.period)).2

/-- The budget in ns of a breath of `us` µs (R52). -/
def State.budgetNs (s : State) (us : Nat) : Nat := (us - s.fld (Blk.brth.at 4 4 0x108) 9 0) * 1000

/-- The rate of a link of R22 in bytes per ns. -/
def linkRate (l : Nat) : Nat := if l < 4 then 1600 else if l < 8 then 800 else if l = 8 then 400 else 200

/-- Consorts that a chanter offers to the planner: those not withdrawn, less those the power cap takes back, never below 4
of them (R588, R809). -/
def State.planOffer (s : State) (c : Nat) : Nat :=
  if s.online c then max (min 4 (s.offered c)) (s.offered c - s.pwr.fewer) else 0

/-- rsv_cons of a partition on a chanter (R586, R615). -/
def State.rsvCons (s : State) (c p : Nat) : Nat := s.fld (bank (partA c 0x124) p) 3 0
/-- lim_cons. -/
def State.limCons (s : State) (c p : Nat) : Nat := s.fld (bank (partA c 0x124) p) 19 16

/-- The reservation that the planner honours for a partition: in ascending partition number while consorts are left (R588). -/
def State.honoured (s : State) (c p : Nat) : Nat :=
  min (s.rsvCons c p) (s.planOffer c - ((List.range p).map (fun q => s.rsvCons c q)).sum)

/-- A chanter that offers fewer consorts than its partitions reserve raises `reservation_short`; an offline chanter's reservations
have lapsed (R588). -/
def State.rsvShort (s : State) : State :=
  (List.range 4).foldl (fun (t : State) c =>
    if t.online c ∧ t.planOffer c < ((List.range 64).map (fun q => t.rsvCons c q)).sum then t.raise (partA c 0) 4 else t) s

/-- The ratio of measured to predicted time of a record that the planner has read (R60). The record gives one duration of each
kind, `finish_ns` and `pred_ns`: the model takes their ratio for that of the DRAM times (DEDUCED, log entry 198). -/
def ratioMax (a b : Nat × Nat) : Nat × Nat := if a.1 * b.2 < b.1 * a.2 then b else a

/-- corr of a chanter: numerator and denominator (R60). -/
def State.corr (s : State) (c : Nat) : Nat × Nat :=
  (s.breath.recs.filter (fun r => decide (r.1 = c) && decide (s.breath.number < r.2.1 + 64) && decide (r.2.2.2 ≠ 0))).foldl
    (fun a r => ratioMax a (r.2.2.1, r.2.2.2)) (1, 1)

/-- One record of the ring as the planner reads it: chanter, breath of retirement, finish_ns, pred_ns; nothing where it cannot be
read, or where it is of a step that never ran. -/
def State.recRead (s : State) (i : Nat) : List (Nat × Nat × Nat × Nat) :=
  let base := s.fld (Blk.brth.at 4 4 0x130) 31 12 * 4096 + s.fld (Blk.brth.at 4 4 0x134) 15 0 * 2 ^ 32
  let n := 2 ^ s.fld (Blk.brth.at 4 4 0x138) 4 0
  match s.readDev (.fife 4 0) none (base + i % n * 32) 32 with
  | .error _ => []
  | .ok b =>
    let f (o k : Nat) : Nat := fieldOf b o k
    if f 14 1 < 4 ∧ f 16 4 ≠ 0 then [(f 14 1, f 0 8 + f 30 1, f 16 4, f 20 4)] else []

/-- Firmware moves the tail of the record ring: it has read the records that the tail passes (R59, R60). -/
def State.recsRead (s : State) (old new : Nat) : State :=
  let head := s.fld (Blk.brth.at 4 4 0x13C) 31 0
  let k := min (serialDiff new old) (min (serialDiff head old) (2 ^ s.fld (Blk.brth.at 4 4 0x138) 4 0))
  let got := (List.range k).flatMap (fun i => s.recRead (old + i))
  let base := s.fld (Blk.brth.at 4 4 0x130) 31 12 * 4096 + s.fld (Blk.brth.at 4 4 0x134) 15 0 * 2 ^ 32
  let s1 := (List.range k).foldl (fun (t : State) i =>
    t.noteDev (.fife 4 0) none false (base + (old + i) % 2 ^ s.fld (Blk.brth.at 4 4 0x138) 4 0 * 32) 32) s
  { s1 with breath := { s1.breath with recs := (s.breath.recs ++ got).filter (fun r => decide (s.breath.number < r.2.1 + 64)) } }

/-! ### The cost model (R54, R608) -/

/-- The slowest clock in MHz of the consorts that a mask names. -/
def State.slowMhz (s : State) (die mask : Nat) : Nat :=
  ((List.range 8).filter (fun k => mask.testBit k)).foldl (fun m k => min m (codeMhz (s.consortPoint die k).1)) 1800

/-- DRAM bytes of a step, of all its links: what the compiler counted, or what its descriptor predicts if that is more. -/
def CandStep.dram (x : CandStep) : Nat := max (x.use.demand.dram + (x.use.more.map (fun u => u.dram)).sum) (x.predDram * 1024)

/-- Bytes that a step sends over each link, of all its links. -/
def CandStep.sends (x : CandStep) : List (Nat × Nat) := x.use.demand.links ++ x.use.more.flatMap (fun u => u.links)

/-- Windway bytes sent from a step's die. -/
def CandStep.sent (x : CandStep) : Nat := x.use.demand.sent + (x.use.more.map (fun u => u.sent)).sum

/-- The cost of one link in ns at most: the largest of the terms of R54, each rounded up; `n / d` is the chanter's corr, and
`image` the ns of reading context images, which come before the DRAM traffic (R608). -/
def linkCost (mhz n d image dram : Nat) (u : Demand) : Nat :=
  ([ceilDiv (u.cycles * 1000) mhz, image + ceilDiv (dram * n) (6000 * d), u.unitNs] ++
    u.links.map (fun l => ceilDiv l.2 (linkRate l.1))).foldl max 0

/-- A step's predicted duration is within `b` ns: its cost, a chain step's that of all its links and 1 µs for each boundary, and
its descriptor's prediction (R54, R629). -/
def State.stepFits (s : State) (b : Nat) (x : CandStep) : Bool :=
  let (n, d) := if x.die < 4 then s.corr x.die else (1, 1)
  let mhz := s.slowMhz x.die x.mask
  let more := (x.use.more.map (fun u => linkCost mhz n d 0 u.dram u + 1000)).sum
  decide (x.predNs ≤ b) && decide (linkCost mhz n d x.imageNs (if x.use.more = [] then x.dram else x.use.demand.dram) x.use.demand + more ≤ b) &&
    decide (x.dram * n ≤ 6000 * d * b)

/-- The total demand of a plan on each chanter's DRAM and on each link is within `b` ns (R54). -/
def State.planFits (s : State) (b : Nat) (xs : List CandStep) : Bool :=
  xs.all (fun x => s.stepFits b x) &&
    (List.range 4).all (fun c =>
      let (n, d) := s.corr c
      decide (((xs.filter (fun x => decide (x.die = c))).map (fun x => x.dram)).sum * n ≤ 6000 * d * b)) &&
    (List.range 11).all (fun l =>
      decide ((((xs.flatMap CandStep.sends).filter (fun p => decide (p.1 = l))).map (fun p => p.2)).sum ≤ linkRate l * b))

/-- Nanoseconds in which a resume step reads its images: 256 bytes per cycle of a consort, at the slowest clock of its consorts, four
consorts at once (R594, R608). -/
def State.imageNs (s : State) (d : StepDesc) : Nat :=
  if 4 ≤ d.die ∨ bit d.flags 0 ∨ d.consorts = [] then 0
  else match s.resumeImages d with
    | .error _ => 0
    | .ok ims =>
      let bytes := (ims.map (fun im => im.tiles.length * 4096)).sum
      ceilDiv (bytes * 1000) (256 * s.slowMhz d.die d.mask * min 4 d.consorts.length)

/-- The steps of a plan as the cost model takes them. -/
def State.candOf (s : State) (uses : List StepUse) (ds : List (Nat × StepDesc)) : List CandStep :=
  ds.map (fun x => { die := x.2.die, mask := x.2.mask, part := x.2.part, model := x.2.model, predNs := x.2.predNs
                     predDram := x.2.predDram, imageNs := s.imageNs x.2
                     use := (uses.find? (fun u => decide (u.idx = x.1))).getD { idx := x.1 } })

/-! ### Reduction (R55) -/

/-- Requests that the steps of a candidate serve. -/
def candReqs (xs : List CandStep) : List Nat := xs.flatMap (fun x => x.use.reqs.map (fun q => q.1) ++ x.use.groups.flatMap (fun g => g.map (fun m => m.1)))

/-- Tokens that a candidate appends to a request. -/
def candTokens (xs : List CandStep) (i : Nat) : Nat :=
  ((xs.flatMap (fun x => x.use.grows)).filter (fun g => decide (g.1 = i))).foldl (fun a g => max a g.2) 0

/-- One reduction of a candidate to the next one: a shorter phrase cut at the first phrase of a token, fewer tokens of a chunk, or
request groups left to the next breath, none of a higher priority than one that stays. -/
def State.reduces (s : State) (a b : List CandStep) (k : PlanCut) : Bool :=
  let ra := candReqs a
  let rb := candReqs b
  let same := ra.all (fun i => rb.contains i) && rb.all (fun i => ra.contains i)
  match k with
  | .phrase =>
    let pairs := a.filterMap (fun x => (b.find? (fun y => decide (y.use.idx = x.use.idx))).map (fun y => (x.use.layers, y.use.layers)))
    same && pairs.any (fun p => decide (p.2.2 < p.1.2)) &&
      pairs.all (fun p => decide (p.1 = p.2) || (decide (p.1.1 = 0) && decide (p.2.1 = 0) && decide (p.2.2 < p.1.2)))
  | .tokens =>
    same && ra.any (fun i => decide (candTokens b i < candTokens a i)) && ra.all (fun i => decide (candTokens b i ≤ candTokens a i))
  | .groups =>
    let moved := ra.filter (fun i => !rb.contains i)
    !moved.isEmpty && rb.all (fun i => ra.contains i) &&
      moved.all (fun i => rb.all (fun j => decide (bits (s.req i).prio 2 0 ≤ bits (s.req j).prio 2 0)))

/-- The place of a reduction in the order of R55. -/
def PlanCut.rank : PlanCut → Nat
  | .phrase => 0
  | .tokens => 1
  | .groups => 2

/-- The candidates before a plan: none fits, each is reduced to the next, and the reductions come in the order of R55. -/
def State.triedOk (s : State) (b : Nat) (final : List CandStep) : List (List CandStep × PlanCut) → Bool
  | [] => true
  | (x, k) :: rest =>
    !s.planFits b x && s.reduces x ((rest.head?.map (fun p => p.1)).getD final) k &&
      (match rest with
       | [] => true
       | p :: _ => decide (k.rank ≤ p.2.rank)) && s.triedOk b final rest

/-- Partitions of the requests whose groups a plan has left to the next breath (R55, R507). -/
def State.movedParts (s : State) (plan : PlanCase) : List Nat :=
  let kept := plan.uses.flatMap (fun u => u.reqs.map (fun q => q.1) ++ u.groups.flatMap (fun g => g.map (fun m => m.1)))
  let cut := (plan.tried.filter (fun t => decide (t.2 = .groups))).flatMap (fun t => candReqs t.1)
  ((cut.filter (fun i => !kept.contains i)).map (fun i => (s.req i).part)).eraseDups

/-! ### Groups (R65, R67) -/

/-- What every request of a group has in common: model, partition, KV format, number format settings (R65). -/
def State.groupKey (s : State) (m : Nat × Nat) : Nat × Nat × Option Nat × Nat :=
  ((s.req m.1).runs, (s.req m.1).part, (s.kvMap m.1).map (fun k => k.shape.fmt), m.2)

/-- A request group of a step (R65); a request that is to be rerun alone is the step's only one (R513). -/
def State.groupOk (s : State) (x : CandStep) (g : List (Nat × Nat)) : Bool :=
  match g with
  | [] => false
  | m :: _ =>
    decide (g.length ≤ 8) && g.all (fun n => decide (s.groupKey n = s.groupKey m)) && decide ((s.req m.1).runs = x.model) &&
      decide ((s.req m.1).part = x.part) && g.all (fun n => x.use.reqs.any (fun q => decide (q.1 = n.1))) &&
      g.all (fun n => !(s.req n.1).solo || decide (x.use.reqs.length = 1))

/-- A request comes before another in the fill order: priority, deadline (none is the latest), readiness, id (R67). -/
def State.fillBefore (s : State) (ready : List Nat) (i j : Nat) : Bool :=
  let key (k : Nat) : List Nat :=
    [7 - bits (s.req k).prio 2 0, if (s.req k).deadline = 0 then 2 ^ 64 else (s.req k).deadline, ready.idxOf k, reqId k (s.req k)]
  key i ≤ key j

/-- The groups of one kind in a step: members in the fill order, every group but the last one full (R67). -/
def State.filled (s : State) (ready : List Nat) : List (List (Nat × Nat)) → Bool
  | [] => true
  | [g] => (List.zip g (g.drop 1)).all (fun p => s.fillBefore ready p.1.1 p.2.1)
  | g :: h :: rest =>
    decide (g.length = 8) && (List.zip g (g.drop 1 ++ h.take 1)).all (fun p => s.fillBefore ready p.1.1 p.2.1) && s.filled ready (h :: rest)

/-- The groups of a step keep R65 and R67. -/
def State.groupsOk (s : State) (ready : List Nat) (x : CandStep) : Bool :=
  let keyOf (g : List (Nat × Nat)) : Option (Nat × Nat × Option Nat × Nat) := g.head?.map (fun m => s.groupKey m)
  x.use.groups.all (fun g => s.groupOk x g) &&
    x.use.groups.all (fun g => s.filled ready (x.use.groups.filter (fun h => decide (keyOf h = keyOf g))))

/-! ### What a step needs (R240, R250, R261, R264, R318) -/

/-- An object is present in the tier a step reads (R240). -/
def State.objPresent (s : State) (id : Nat) : Bool :=
  match s.obj id with
  | none => false
  | some o => !o.lost && !o.parked && (o.addr.isSome || (oFlash o.flags && !oLocal o.flags && !oInter o.flags))

/-- A request can grow by `n` tokens in layers: within the limits, with the pages of its tail stretch in every layer's list (R261,
R264). An entry of 0 names no page (DEDUCED, log entry 199). -/
def State.growOk (s : State) (i n : Nat) (layers : Nat × Nat) : Bool :=
  decide (n = 0) ||
    (match s.kvMap i with
     | none => false
     | some m =>
       match m.tail? with
       | none => false
       | some x =>
         s.kvMapOk m && decide (m.length + n ≤ min 1048576 s.tokenLimit) && decide (m.length + n ≤ x.first + stretchMax) &&
           (List.range layers.2).all (fun l =>
             match s.pageListOf x (layers.1 + l) with
             | none => false
             | some a => (List.range ((m.length + n - 1) / 128 + 1 - m.length / 128)).all (fun j =>
                 match s.pageEntry x.chanter a (m.length / 128 + j - x.first / 128) with
                 | some p => decide (p ≠ 0)
                 | none => false)))

/-- A step names only what is there: its objects, among them the copy of its model on its chanter, where the model is ready; its
requests' pages; and requests that run (R240, R250, R264, R431). -/
def State.stepReady (s : State) (x : CandStep) : Bool :=
  x.use.objs.all (fun o => s.objPresent o) &&
    (decide (4 ≤ x.die) || decide (x.model = 0xFFFF) ||
      (decide (s.modelSt x.model x.die = 2) && (s.model x.model).copies.all (fun id => x.use.objs.contains id ||
        !((s.obj id).any (fun o => (oMask o.flags).testBit x.die))))) &&
    x.use.grows.all (fun g => s.growOk g.1 g.2 x.use.layers) &&
    x.use.groups.all (fun g => g.all (fun m => decide ((s.req m.1).state = 1 ∨ (s.req m.1).state = 2 ∨ (s.req m.1).state = 3)))

/-- No plan has two steps of which one updates a table version that the other looks up or updates (R318). -/
def tablesApart : List CandStep → Bool
  | [] => true
  | x :: xs => xs.all (fun y => x.use.tables.all (fun a => y.use.tables.all (fun b => decide (a.1 ≠ b.1) || (!a.2 && !b.2)))) &&
      tablesApart xs

/-! ### Reservations and regulators (R585, R587) -/

/-- Consorts that a plan gives a partition on a chanter. -/
def consHeld (xs : List CandStep) (c p : Nat) : Nat :=
  ((xs.filter (fun x => decide (x.die = c) && decide (x.part = p))).map (fun x => popcount 8 x.mask)).sum

/-- Predicted demand of a partition on a chanter's bucket in units of 64 bytes (R578, R585). -/
def bucketDemand (xs : List CandStep) (c p b : Nat) : Nat :=
  ceilDiv ((xs.filter (fun x => decide (x.die = c) && decide (x.part = p))).map (fun x => if b = 0 then x.dram else x.sent)).sum 64

/-- A bucket that regulates without borrowing cannot cover a demand at the coming edge's refill (R585). -/
def State.bucketShort (s : State) (c p b n : Nat) : Bool :=
  s.bktOn c p b && !s.rbit (bktA c p b 0x110) 1 && decide (n ≠ 0) &&
    decide (min (s.level c p b + (s.reg (bktA c p b 0x104)).toNat) ((s.reg (bktA c p b 0x108)).toNat : Int) < (n : Int))

/-- A plan keeps every partition within its limits and its buckets (R585, R587). -/
def State.sharesOk (s : State) (xs : List CandStep) : Bool :=
  (List.range 4).all (fun c =>
    decide (((xs.filter (fun x => decide (x.die = c))).map (fun x => popcount 8 x.mask)).sum ≤ s.planOffer c) &&
    (xs.filter (fun x => decide (x.die = c))).all (fun x =>
      decide (consHeld xs c x.part ≤ s.limCons c x.part) &&
        [0, 1].all (fun b => !s.bucketShort c x.part b (bucketDemand xs c x.part b))))

/-- A group is kept out by its partition's regulators or reservations (R585, R587). -/
def State.keptOk (s : State) (xs : List CandStep) (k : KeptGroup) : Bool :=
  k.reqs.all (fun i => decide ((s.req i).part = k.part)) && decide (k.die < 4) &&
    (s.bucketShort k.die k.part 0 (bucketDemand xs k.die k.part 0 + ceilDiv k.demand.dram 64) ||
     s.bucketShort k.die k.part 1 (bucketDemand xs k.die k.part 1 + ceilDiv k.demand.sent 64) ||
     decide (s.limCons k.die k.part < consHeld xs k.die k.part + k.consorts) ||
     (decide (s.planOffer k.die < ((xs.filter (fun x => decide (x.die = k.die))).map (fun x => popcount 8 x.mask)).sum + k.consorts) &&
       decide (s.honoured k.die k.part ≤ consHeld xs k.die k.part)))

/-! ### The contract -/

/-- A ready request may be left out of a plan: R55 moved its group, its partition's reservations or regulators keep it out, firmware
has paused it, or no step of it can be planned (R66). -/
def State.mayLeave (s : State) (plan : PlanCase) (xs : List CandStep) (i : Nat) : Bool :=
  plan.tried.any (fun t => decide (t.2 = .groups) && (candReqs t.1).contains i) ||
    plan.kept.any (fun k => k.reqs.contains i && s.keptOk xs k) || !(s.req i).live || decide ((s.req i).state = 5) ||
    plan.barred.any (fun r => decide (r.req = i) &&
      (!s.growOk i r.tokens r.layers || r.objs.any (fun o => !s.objPresent o) ||
        (List.range 4).all (fun c => !s.online c || decide (s.modelSt (s.req i).runs c ≠ 2))))

/-- A plan for the breath `t`, of steps `ds`, is one that the planner commits. -/
def State.planBound (s : State) (t : Nat) (plan : PlanCase) (ds : List (Nat × StepDesc)) : Bool :=
  let xs := s.candOf plan.uses ds
  let b := s.budgetNs (s.periodOf t)
  s.planFits b xs && s.triedOk b xs plan.tried && xs.all (fun x => s.groupsOk plan.ready x) && xs.all (fun x => s.stepReady x) &&
    tablesApart xs && s.sharesOk xs && plan.ready.all (fun i => (candReqs xs).contains i || s.mayLeave plan xs i)

/-- A registered model's shortest phrase fits the budget of a period (R56). -/
def State.modelsFit (s : State) (us : Nat) : Bool := s.models.all (fun m => decide (m.2.phraseNs ≤ s.budgetNs us))

end Sys2Proof.Machine
end

