-- ==== Sys2Proof/Machine/Requests.lean ====
section
/-! DEFINITION. The request table: admission, host commands, the deadline monitor, miss policies, pauses, ends and completion
records (R486 to R526). -/
namespace Sys2Proof.Machine

/-- A register of REQT_. -/
def reqtA (die off : Nat) : Nat := Blk.reqt.at die die off

/-- Miss policy of an entry (R489). -/
def Req.policy (r : Req) : Nat := bits r.prio 4 3

/-- Priority of an entry. -/
def Req.priority (r : Req) : Nat := bits r.prio 2 0

/-- Set one bit of the flags byte (R491). -/
def Req.flag (r : Req) (n : Nat) (v : Bool) : Req := { r with flags := withBits r.flags n n (b2n v) }

/-- The 128 bytes of an entry (R491). -/
def Req.bytes (i : Nat) (r : Req) : List Byte :=
  leBytes 4 (if r.gen = 0 then 0 else reqId i r) ++ leBytes 1 (r.state + 16 * r.resume) ++ leBytes 1 r.prio ++ leBytes 1 r.flags ++
    leBytes 1 r.endReason ++ leBytes 2 r.model ++ leBytes 2 r.fallback ++ leBytes 1 r.part ++
    leBytes 1 (r.retries + 16 * b2n r.byHost + 32 * b2n r.byShed + 64 * b2n r.byBlocked) ++ leBytes 2 r.fn ++
    leBytes 4 r.length ++ leBytes 4 r.generated ++ leBytes 4 r.maxNew ++ leBytes 4 r.kvRoot ++ leBytes 8 r.deadline ++
    leBytes 2 r.ttft ++ leBytes 2 r.tbt ++ leBytes 2 r.tbtMax ++ leBytes 2 r.tbtMiss ++ leBytes 8 r.arrival ++
    leBytes 8 r.firstToken ++ leBytes 8 r.lastToken ++ leBytes 8 r.etaToken ++ leBytes 8 r.etaDone ++ leBytes 8 r.sessionId ++
    leBytes 4 r.fbToken ++ leBytes 4 r.paused ++ List.replicate 24 0

/-! ### Admission (R488 to R490, R544, R589) -/

/-- The miss policy, priority and target block of R489 is allowed: no reserved bit, no policy 3, a fallback where the policy
is `FALLBACK`. -/
def policyOk (prio model fallback : Nat) : Bool :=
  decide (prio < 32) && decide (bits prio 4 3 ≠ 3) &&
    (decide (bits prio 4 3 ≠ 1) || (decide (fallback ≠ 0xFFFF) && decide (fallback ≠ model)))

/-- A request descriptor keeps R489 (R490 `INVALID`). -/
def reqDescOk (d : List Byte) : Bool :=
  let f (o n : Nat) : Nat := leOf ((d.drop o).take n)
  policyOk (f 4 1) (f 0 2) (f 2 2) && decide (f 5 1 < 2) && decide (f 10 2 = 0) && decide (f 20 4 = 0) && decide (f 56 8 = 0) &&
    decide (1 ≤ f 16 4 ∧ f 16 4 ≤ 1048576) && decide ((f 5 1 = 1) = (f 32 8 ≠ 0)) && decide (f 48 8 % 64 = 0)

/-- A positive normal FP32 value, or +0 (R621). -/
def tempOk (t : Nat) : Bool := decide (t = 0) || (decide (1 ≤ bits t 30 23) && decide (bits t 30 23 ≤ 254) && !bit t 31)

/-- A work description keeps R620 and R621, for a request of `maxNew` tokens. -/
def workOk (w : List Byte) (maxNew : Nat) : Bool :=
  let f (o n : Nat) : Nat := leOf ((w.drop o).take n)
  let st (n : Nat) : Bool := bit (f 5 1) n
  decide (f 0 4 = 0x50495045) && decide (f 4 1 = 1) && decide (f 5 1 < 32) && decide (f 6 1 < 4) && decide (f 7 1 < 16) &&
    decide (f 8 8 % 8 = 0) && decide (8 ≤ f 16 4 ∧ f 16 4 ≤ 1048576) && decide (f 20 1 < 4) && decide (f 21 1 < 4) &&
    (st 2 || decide (f 24 2 = 0xFFFF)) && decide (f 26 2 < 64) && decide (1 ≤ f 28 2 ∧ f 28 2 ≤ 4096) &&
    (decide (f 30 2 = 0) || decide (f 28 2 ≤ f 30 2 ∧ f 30 2 ≤ 8192)) && decide (1 ≤ f 32 2 ∧ f 32 2 ≤ 4096) &&
    decide (f 32 2 ≤ f 34 2 ∧ f 34 2 ≤ 4096) &&
    (if st 1 then decide (1 ≤ f 36 2 ∧ f 36 2 ≤ f 32 2) else decide (f 36 2 = 0)) && decide (f 38 2 ≤ 4096) &&
    decide (16 ≤ f 40 2 ∧ f 40 2 ≤ 512) && decide (1 ≤ f 42 2) && decide (1 ≤ f 44 4 ∧ f 44 4 + maxNew ≤ 1048576) &&
    decide (1 ≤ f 48 2) && decide (f 50 1 ≤ 2) && decide (f 51 1 = 0) && (st 2 || decide (f 54 2 = 0xFFFF)) &&
    decide (f 56 8 % 8 = 0) && (bit (f 21 1) 1 || decide (f 64 16 = 0)) && decide (f 80 8 % 8 = 0) && decide (f 98 2 ≤ 4096) &&
    tempOk (f 100 4) && decide (f 104 152 = 0) &&
    (st 0 || (!st 1 && !st 2)) && (st 1 || !st 2) && (st 3 || !st 4) && (st 3 || !bit (f 6 1) 1) &&
    (if st 2 then decide (f 38 2 ≤ f 36 2) else if st 0 && !st 1 then decide (f 38 2 ≤ f 32 2) else true) &&
    (!bit (f 6 1) 1 || decide (f 80 8 ≠ 0))

/-- Entries of a bellows that a partition holds. -/
def State.entriesOf (s : State) (die p : Nat) : Nat :=
  s.reqs.countP (fun e => decide (reqDie e.1 = die) && decide (e.2.state ≠ 0) && decide (e.2.part = p))

/-- Entries of a bellows that are not `FREE`. -/
def State.entriesUsed (s : State) (die : Nat) : Nat :=
  s.reqs.countP (fun e => decide (reqDie e.1 = die) && decide (e.2.state ≠ 0))

/-- rsv_req and lim_req of a partition (R615). -/
def State.rsvReq (s : State) (die p : Nat) : Nat × Nat :=
  let a := bank (Blk.part.at die die 0x124) p
  (s.fld a 15 0, s.fld a 31 16)

/-- A partition of a die is valid. -/
def State.partValid (s : State) (die p : Nat) : Bool := s.rbit (bank (Blk.part.at die die 0x120) p) 31

/-- Firmware admits one more entry of partition `p` (R488, R589). -/
def State.admits (s : State) (die p : Nat) : Bool :=
  let (rsv, lim) := s.rsvReq die p
  let held := s.entriesOf die p
  let free := 32768 - s.entriesUsed die
  let owed := (((List.range 64).filter (fun q => decide (q ≠ p) && s.partValid die q)).map (fun q =>
    (s.rsvReq die q).1 - s.entriesOf die q)).sum
  decide (0 < free) && decide (held < lim) && (decide (held < rsv) || decide (owed ≤ free - 1))

/-- The lowest `FREE` entry from an index (R488). -/
def State.freeEntry (s : State) : Nat → Nat → Nat
  | 0, i => i
  | n + 1, i => if (s.req i).state = 0 then i else State.freeEntry s n (i + 1)

/-- The model of a request cannot serve it (R490 `MODEL_UNAVAILABLE`). -/
def State.modelBad (s : State) (model fallback : Nat) : Bool :=
  !s.modelAnyReady model || s.modelUnloading model || (decide (fallback ≠ 0xFFFF) && s.modelUnloading fallback)

/-- The session status with which a turn is refused, if any (R544, R561). -/
def State.turnRefused (s : State) (id part : Nat) : Option Nat :=
  match s.sesNamed id with
  | none => some 3
  | some k =>
    let x := s.ses k
    if x.part ≠ part then some 5
    else if 8 ≤ x.queue.length then some 8
    else if x.queue = [] ∧ 16384 ≤ s.fld (sesA (sesDie k) 0x00C) 14 0 then some 8
    else none

/-- The entry of a new request (R489, R491); its generation advances (R487). -/
def Req.fresh (old : Req) (d : List Byte) (part fn arrival tag : Nat) : Req :=
  let f (o n : Nat) : Nat := leOf ((d.drop o).take n)
  { gen := if old.gen = 32767 then 1 else old.gen + 1
    state := 1, prio := f 4 1, flags := 64 * f 5 1, model := f 0 2, fallback := f 2 2, part := part, fn := fn
    maxNew := f 16 4, deadline := if f 12 4 = 0 then 0 else arrival + f 12 4, ttft := f 6 2, tbt := f 8 2
    arrival := arrival, sessionId := f 32 8, fbToken := 0xFFFFFFFF, seed := f 24 8, work := f 40 8, compl := f 48 8, tag := tag }

/-- Copy the Bell configuration of a request into its context, bytes 56 to 255 as 0 (R621). -/
def State.bellCopy (s : State) (die : Nat) (wd : WorkInfo) : State :=
  let bs := wd.bell.take 56 ++ List.replicate 200 0 ++ wd.bell.drop 256
  if wd.bell.length = 2304 then s.writeSeen (.fife die 0) none (bellowsSram die wd.bellOff) bs else s

/-- Refuse a submission (R490, R544). -/
def State.refuseReq (s : State) (c : HCmd) (status detail : Nat) : State :=
  (s.cntAdd .reqt (fnDie c.fn) (fnDie c.fn) 0x038 1).answer c status detail 0

/-- A turn is accepted by its session's home (R544, R545). -/
def State.acceptTurn (s : State) (c : HCmd) (i : Nat) : State :=
  let r := s.req i
  let id := reqId i r
  ((s.modSes r.ses (fun x => { x with queue := x.queue ++ [id] })).cntAdd .reqt (reqDie i) (reqDie i) 0x030 1).answer c 0 0 id

/-- Take an entry for a descriptor, or refuse it: the checks of R490 in the order `INVALID`, `TABLE_FULL`,
`MODEL_UNAVAILABLE`, `BAD_STATE`. A turn of the other bellows's session keeps its entry until the home has answered. -/
def State.submit (s : State) (c : HCmd) (wd : WorkInfo) (d : List Byte) : State :=
  let f (o n : Nat) : Nat := leOf ((d.drop o).take n)
  let die := fnDie c.fn
  let part := s.fnPart c.fn
  match wd.bytes with
  | none => s.answer c 0xF2 0 0
  | some w =>
    if reqDescOk d = false ∨ f 40 8 % 64 ≠ 0 ∨ workOk w (f 16 4) = false ∨ wd.known = false then s.refuseReq c 1 0
    else if s.admits die part = false then s.refuseReq c 2 0
    else if s.modelBad (f 0 2) (f 2 2) then s.refuseReq c 3 0
    else
      let home := sesDie (f 32 8 % 2 ^ 24)
      let turn := decide (f 5 1 = 1)
      let refused := if turn ∧ home = die then s.turnRefused (f 32 8) part else none
      match refused with
      | some st => (s.cntAdd .sess home home 0x068 1).refuseReq c 7 st
      | none =>
        let i := s.freeEntry 32768 (32768 * (die - 4))
        let old := s.req i
        let s1 := (s.setReq i (Req.fresh old d part c.fn s.breath.number c.tag)).bellCopy die wd
        if turn = false then (s1.cntAdd .reqt die die 0x030 1).answer c 0 0 (reqId i (s1.req i))
        else if home = die then s1.acceptTurn c i
        else { s1 with fwds := s1.fwds ++ [{ home := home, cmd := c, op := .turn i old.gen }] }

/-- REQ_SUBMIT (R489, R490, R620, R621). -/
def execReqSubmit (c : HCmd) (wd : WorkInfo) (s : State) : Res :=
  .next (s.hostRun c 64 false (fun s => s.submit c wd c.payload))

/-! ### Commands (R517, R518) -/

/-- The status with which a request command is refused at once, or the entry it names. -/
def State.reqCheck (s : State) (c : HCmd) (ok : Req → Bool) : Except Nat Nat :=
  match s.reqNamed (c.fld 0 4) with
  | none => .error 4
  | some i =>
    let r := s.req i
    if r.fn ≠ c.fn then .error 6
    else if r.terminal then .error 5
    else if ok r then .ok i else .error 7

/-- Accept a request command: its status comes with the edge that applies it (R494, R518). -/
def State.reqAccept (s : State) (c : HCmd) (ok : Req → Bool) (k : ReqCmdKind) (f : Req → Req) : State :=
  match s.reqCheck c ok with
  | .error st => s.answer c st 0 0
  | .ok i => s.modReq i (fun r => f { r with cmds := r.cmds ++ [(c, k)] })

/-- A request may be paused now. -/
def Req.pausable (r : Req) : Bool := decide (r.state = 1 ∨ r.state = 2 ∨ r.state = 3 ∨ r.state = 5)

/-- REQ_CANCEL (R517, R548). -/
def execReqCancel (c : HCmd) (s : State) : Res :=
  .next (s.hostRun c 8 false (fun s =>
    if c.fld 4 4 ≠ 0 then s.answer c 1 0 0 else s.reqAccept c (fun _ => true) .cancel (fun r => r.flag 7 true)))

/-- REQ_PAUSE (R505, R517). -/
def execReqPause (c : HCmd) (s : State) : Res :=
  .next (s.hostRun c 8 false (fun s =>
    if c.fld 4 4 ≠ 0 then s.answer c 1 0 0 else s.reqAccept c Req.pausable .pause id))

/-- REQ_RESUME (R505, R517). -/
def execReqResume (c : HCmd) (s : State) : Res :=
  .next (s.hostRun c 8 false (fun s =>
    if c.fld 4 4 ≠ 0 then s.answer c 1 0 0
    else s.reqAccept c (fun r => decide (r.state = 5) && r.byHost) .resume id))

/-- Bytes 4 to 15 of an update keep R489 for an entry; bytes 0 to 3 and 5 are ignored (R517, R518). -/
def updateOk (r : Req) (b : Nat) : Bool := policyOk (bits b 39 32) r.model r.fallback && decide (bits b 95 80 = 0)

/-- REQ_UPDATE (R517, R518). -/
def execReqUpdate (c : HCmd) (s : State) : Res :=
  .next (s.hostRun c 24 false (fun s =>
    match s.reqCheck c (fun _ => true) with
    | .error st => s.answer c (if c.fld 4 4 ≠ 0 then 1 else st) 0 0
    | .ok i =>
      if c.fld 4 4 ≠ 0 ∨ updateOk (s.req i) (c.fld 8 16) = false then s.answer c 1 0 0
      else s.modReq i (fun r => { r with cmds := r.cmds ++ [(c, .update (c.fld 8 16))] })))

/-- REQ_QUERY: a copy of the entry at once (R517). -/
def execReqQuery (c : HCmd) (s : State) : Res :=
  .next (s.hostRun c 16 false (fun s =>
    match s.reqNamed (c.fld 0 4) with
    | none => s.answer c 4 0 0
    | some i =>
      if c.fld 4 4 ≠ 0 then s.answer c 1 0 0
      else if (s.req i).fn ≠ c.fn then s.answer c 6 0 0
      else s.answerBlock c (c.fld 8 8) ((s.req i).bytes i) 0))

/-! ### Events (R500, R524) -/

/-- The interrupt of an event kind (R526). -/
def eventInt (kind : Nat) : Nat := if kind ≤ 3 then 0 else if kind ≤ 6 then 1 else if kind = 9 then 2 else 3

/-- Queue a monitor event and raise its interrupt; a full queue drops the event (R500, R526). -/
def State.reqEvent (s : State) (die id kind due : Nat) : State :=
  let q := SMap.get (fun _ => []) s.reqEvents die
  let s1 := s.raise (reqtA die 0) (eventInt kind)
  if 256 ≤ q.length then (s1.cntAdd .reqt die die 0x090 1).raise (reqtA die 0) 4
  else { s1 with reqEvents := SMap.set (fun _ => []) s1.reqEvents die (q ++ [{ id := id, kind := kind, due := due }]) }

/-- REQT_EVENT_LO: a read removes the oldest event (R524). -/
def execReqtEventLo (die : Nat) (s : State) : Res :=
  .next (if isBellows die = false then s
    else match SMap.get (fun _ => []) s.reqEvents die with
      | [] => { (s.setReg (reqtA die 0x110) 0).setReg (reqtA die 0x114) 0 with readData := 0 }
      | e :: es =>
        { ((s.setReg (reqtA die 0x110) (BitVec.ofNat 32 e.id)).setReg (reqtA die 0x114)
            (BitVec.ofNat 32 (2 ^ 31 + e.kind * 2 ^ 16 + e.due % 2 ^ 16))) with
          reqEvents := SMap.set (fun _ => []) s.reqEvents die es, readData := e.id })

/-! ### The entry window (R491, R492) -/

/-- Bits of word `n` of an entry that firmware writes (F), and bits that are reserved. -/
def entryMasks (n : Nat) : Nat × Nat :=
  if n = 1 then (0xFF00FFFF, 0)
  else if n = 2 ∨ n = 4 ∨ n = 6 ∨ n = 7 ∨ n = 8 ∨ n = 9 ∨ n = 10 then (0xFFFFFFFF, 0)
  else if n = 3 then (0x03FF703F, 0xFC0080C0)
  else if 18 ≤ n ∧ n ≤ 23 then (0xFFFFFFFF, 0)
  else if 26 ≤ n then (0, 0xFFFFFFFF)
  else (0, 0)

/-- Half `h` of a 64-bit field replaced. -/
def putHalf (x h v : Nat) : Nat := if h = 0 then x / 2 ^ 32 * 2 ^ 32 + v else x % 2 ^ 32 + v * 2 ^ 32

/-- An entry whose F fields of word `n` hold `v` (R491). -/
def Req.putWord (r : Req) (n v : Nat) : Req :=
  if n = 1 then { r with state := bits v 3 0, resume := bits v 7 4, prio := bits v 15 8, endReason := bits v 31 24 }
  else if n = 2 then { r with model := bits v 15 0, fallback := bits v 31 16 }
  else if n = 3 then { r with part := bits v 5 0, byHost := bit v 12, byShed := bit v 13, byBlocked := bit v 14, fn := bits v 25 16 }
  else if n = 4 then { r with length := v }
  else if n = 6 then { r with maxNew := v }
  else if n = 7 then { r with kvRoot := v, grown := [] }
  else if n = 8 ∨ n = 9 then { r with deadline := putHalf r.deadline (n - 8) v }
  else if n = 10 then { r with ttft := bits v 15 0, tbt := bits v 31 16 }
  else if n = 18 ∨ n = 19 then { r with etaToken := putHalf r.etaToken (n - 18) v }
  else if n = 20 ∨ n = 21 then { r with etaDone := putHalf r.etaDone (n - 20) v }
  else if n = 22 ∨ n = 23 then { r with sessionId := putHalf r.sessionId (n - 22) v }
  else r

/-- A terminal entry notes when it became so (R515). -/
def State.noteEnd (s : State) (i : Nat) (was : Req) : State :=
  if (s.req i).terminal ∧ was.terminal = false then
    s.modReq i (fun r => { r with endBreath := s.breath.number, endPeriod := s.breath.period })
  else s

/-- REQT_ENTRY_WRITE: a write of word `n` of the selected entry (R492, R520). Host writes are ignored and recorded; an H field
keeps its value, and a write that would change one is recorded, as is a reserved bit. -/
def execReqtEntryWrite (who : Requester) (die n : Nat) (value : Word) (s : State) : Res :=
  let off := 0x180 + 4 * n
  let i := 32768 * (die - 4) + s.fld (reqtA die 0x104) 14 0
  let r := s.req i
  let (fm, rm) := entryMasks n
  let old := leOf (((r.bytes i).drop (4 * n)).take 4)
  let v := value.toNat
  .next (s.gate who (reqtA die (0x180 + 4 * n)) (fun s =>
    (if isBellows die = false ∨ 32 ≤ n then s
    else
      let s1 := if v &&& rm ≠ 0 then s.err who .reqt (reqtA die off) .reservedWrite else s
      match who with
      | .host _ => s1.refuseAt who .reqt die die off
      | _ =>
        let s2 := if ((v ^^^ old) &&& (0xFFFFFFFF ^^^ fm ^^^ rm)) ≠ 0 then s1.refuseAt who .reqt die die off else s1
        (s2.setReq i (r.putWord n ((old &&& (0xFFFFFFFF ^^^ fm)) ||| (v &&& fm)))).noteEnd i r)))

/-! ### The completion record (R515) -/

/-- The 64 bytes of a completion record. -/
def Req.recordBytes (i : Nat) (r : Req) : List Byte :=
  let fl := b2n r.lateEver + 2 * b2n (bit r.flags 1) + 4 * b2n (bit r.flags 4) + 8 * b2n (bit r.flags 5) + 16 * b2n r.pausedEver +
    32 * b2n (decide (r.recoveries ≠ 0))
  let none := decide (r.firstToken = 0)
  leBytes 4 (reqId i r) ++ leBytes 1 r.state ++ leBytes 1 r.endReason ++ leBytes 1 fl ++ leBytes 1 r.errSrc ++ leBytes 1 r.errCode ++
    [0, 0, 0] ++ leBytes 4 r.generated ++ leBytes 4 (if none then r.length else r.prompt) ++
    leBytes 2 (if none then 0xFFFF else min (r.firstToken - r.arrival) 65535) ++ leBytes 2 r.tbtMax ++ leBytes 2 r.tbtMiss ++
    leBytes 2 (min r.recoveries 65535) ++ leBytes 4 r.paused ++ leBytes 8 r.arrival ++ leBytes 8 r.firstToken ++
    leBytes 8 r.endBreath ++ leBytes 4 r.fbToken ++ leBytes 2 r.endPeriod ++ [0, 0]

/-- COMPLETION_RECORD (R515, R516, R659): the record of a terminal entry, then its notice. -/
def execCompletionRecord (i : Nat) (s : State) : Res :=
  let r := s.req i
  .next (if r.terminal = false ∨ r.recDone = true ∨ s.isFatal = true ∨ 65536 ≤ i then s
    else if s.fnEnabled r.fn = false ∨ r.quiet = true then s.modReq i (fun q => { q with recDone := true })
    else if s.canWriteHost r.fn = false then s
    else
      let s1 := s.hostWrite r.fn r.compl (r.recordBytes i)
      (s1.modReq i (fun q => { q with recDone := true })).sendNotice r.fn { addr := r.compl, len := 64, tag := r.tag, flags := 0x3000 })

/-! ### Ends (R510 to R514) -/

/-- The entry can still end or fail by its steps: it is live and its turn has not ended (R493, R510). -/
def Req.going (r : Req) : Bool := r.live && decide (r.state ≠ 4) && decide (r.state ≠ 6)

/-- End a request (R510). A session turn that ends normally waits for its park. -/
def State.reqEnd (s : State) (i reason : Nat) : State :=
  let r := s.req i
  if r.going = false then s
  else if reason = 4 ∨ reason = 5 then
    (s.setReq i { r with state := 10, endReason := reason, endBreath := s.breath.number, endPeriod := s.breath.period }).turnOver i
  else if r.turn then s.setReq i { r with state := 4, endReason := reason }
  else s.setReq i { r with state := 9, endReason := reason, endBreath := s.breath.number, endPeriod := s.breath.period }

/-- Fail a request with a source and a code (R512, R514, R515). -/
def State.reqFail (s : State) (i src code : Nat) : State :=
  if (s.req i).going = false then s
  else ((s.modReq i (fun r => { r with errSrc := src, errCode := code })).reqEnd i 5).cntAdd .reqt (reqDie i) (reqDie i) 0x080 1

/-- Fail a request whose last recoverable fault has no code of its own (a fence, a quiesce, a failed save): source and code
are not stated. -/
def State.reqFailFree (s : State) (i : Nat) : State :=
  let (a, s1) := s.free 8
  let (b, s2) := s1.free 8
  s2.reqFail i a b

/-- Requests whose entries hold an uncorrectable word fail, and so do the turns queued in such records (R719). -/
def State.badRecords (s : State) (entries queues : List Nat) : State :=
  queues.foldl (fun (t : State) k => (t.ses k).queue.foldl (fun (u : State) q => u.reqFail (q % 65536) 9 0x10) t)
    (entries.foldl (fun (t : State) i => t.reqFail i 9 0x10) s)

/-- A recoverable fault: another try within the budget, or a failure (R514). -/
def State.reqRecover (s : State) (i src code : Nat) : State :=
  let r := s.req i
  let die := reqDie i
  if r.going = false then s
  else if s.fld (reqtA die 0x10C) 3 0 ≤ r.retries then (if src = 0 then s.reqFailFree i else s.reqFail i src code)
  else (s.setReq i { r with retries := r.retries + 1, recoveries := r.recoveries + 1 }).cntAdd .reqt die die 0x088 1

/-- Apply one outcome of a retired step or of a revive (R494, R510 to R514, R551). -/
def State.applyOutcome (s : State) (i : Nat) (o : Outcome) : State :=
  match o.reason with
  | 0 => s.reqRecover i o.src o.code
  | 5 => s.reqFail i o.src o.code
  | 6 => if (s.req i).state = 8 then s.modReq i (fun r => { r with state := 2 }) else s
  | 7 => if (s.req i).going then s.modReq i (fun r => { r with retries := 0 }) else s
  | n => if (s.req i).going then s.reqEnd i n else s

/-- The most tokens a request may hold while the online chanters are as they are (R261, R511). -/
def State.lengthLimit (s : State) : Nat :=
  if (List.range 4).countP (fun c => s.online c) < 4 then 786432 else 1048576

/-- The length limits (R511). -/
def State.reqLength (s : State) (i : Nat) : State :=
  let r := s.req i
  if r.going = false ∨ r.state = 8 then s
  else if s.lengthLimit < r.length ∧ r.firstToken = 0 then s.reqFail i 9 1
  else if (r.generated ≠ 0 ∧ r.maxNew ≤ r.generated) ∨ s.lengthLimit ≤ r.length then s.reqEnd i 3
  else s

/-- Outcomes of steps that have retired; those of steps still running wait (R494). -/
def State.reqOutcomes (s : State) (i : Nat) : State :=
  let now (o : Outcome) : Bool := o.uid = 0 || !(s.steps.any (fun e => decide (e.uid = o.uid) && !e.retired))
  let os := (s.req i).outcomes
  let s1 := s.modReq i (fun r => { r with outcomes := os.filter (fun o => !now o) })
  ((os.filter now).foldl (fun (t : State) o => t.applyOutcome i o) s1).reqLength i

/-! ### Host commands at an edge (R494, R505, R517, R518) -/

/-- Answer a command at an edge. -/
def State.edgeAnswer (s : State) (c : HCmd) (status : Nat) : State :=
  { s with edgeReplies := s.edgeReplies ++ [{ fn := c.fn, status := status }] }

/-- Apply one command to a live entry; the answer is its status, or none for a cancel held through a park (R548). -/
def State.applyCmd (s : State) (i : Nat) (k : ReqCmdKind) : Option Nat × State :=
  let r := s.req i
  if r.live = false then (some 5, s)
  else match k with
    | .cancel => if r.going then (some 0, s.reqEnd i 4) else (none, s)
    | .pause => if r.pausable then (some 0, s.setReq i { r with byHost := true }) else (some 7, s)
    | .resume => if r.state = 5 ∧ r.byHost = true then (some 0, s.setReq i { r with byHost := false }) else (some 7, s)
    | .update b =>
      if updateOk r b = false then (some 1, s)
      else (some 0, s.setReq i { r with
        prio := bits b 39 32, ttft := bits b 63 48, tbt := bits b 79 64
        deadline := if bits b 127 96 = 0 then 0 else r.arrival + bits b 127 96 })

/-- The commands of an entry, in the order of acceptance. -/
def State.reqCmds (s : State) (i : Nat) : State :=
  let cs := (s.req i).cmds
  let s1 := s.modReq i (fun r => { r with cmds := [] })
  cs.foldl (fun (t : State) c =>
    match t.applyCmd i c.2 with
    | (some st, u) => u.edgeAnswer c.1 st
    | (none, u) => u.modReq i (fun r => { r with cmds := r.cmds ++ [c] })) s1

/-- A function-level reset cancels the request, and nothing goes to the function (R516). A turn that is being parked parks
(R548). -/
def State.reqFlr (s : State) (i : Nat) : State :=
  let r := s.req i
  if (s.fn r.fn).flrEdge = false ∨ r.state = 0 then s
  else
    let s1 := s.modReq i (fun q => { (if q.going then q else q.flag 7 true) with quiet := true, finalDone := true, recDone := true })
    if r.going then s1.reqEnd i 4 else s1

/-! ### Dues and policies (R497 to R503) -/

/-- A due of an entry: its bit (0 TTFT, 1 TBT, 2 deadline), due breath and estimate. -/
structure Due where
  n : Nat
  d : Nat
  est : Nat
  deriving DecidableEq, Repr

/-- The active dues of an entry (R497). -/
def Req.dues (r : Req) : List Due :=
  (if r.ttft ≠ 0 ∧ r.firstToken = 0 ∧ (r.state = 1 ∨ r.state = 8 ∨ r.state = 2 ∨ r.state = 5) then
    [⟨0, r.arrival + r.ttft, r.etaToken⟩] else []) ++
  (if r.tbt ≠ 0 ∧ r.firstToken ≠ 0 ∧ (r.state = 2 ∨ r.state = 3 ∨ r.state = 5) then
    [⟨1, r.lastToken + r.tbt, r.etaToken⟩] else []) ++
  (if r.deadline ≠ 0 ∧ r.going = true ∧ (match r.finalBreath with | some b => decide (b ≤ r.deadline) | none => false) = false then
    [⟨2, r.deadline, r.etaDone⟩] else [])

/-- The TBT due starts anew with each token (R497). -/
def Req.newTbt (r : Req) : Req :=
  if r.tbtDue = r.lastToken then r
  else { r with tbtDue := r.lastToken, predicted := withBits r.predicted 1 1 0, found := withBits r.found 1 1 0 }

/-- A Bell step of the request dispatched at or before `d` still runs (R499). -/
def State.bellRuns (s : State) (i d : Nat) : Bool :=
  s.steps.any (fun e => e.active && decide (e.breath ≤ d) && decide (e.desc.die = reqDie i) && e.desc.mask.testBit 1 &&
    e.reqs.any (fun q => decide (q.1 = i)))

/-- What the monitor found of one due: nothing, a prediction, or a miss. -/
inductive Seen where
  | none | predicted | missed
  deriving DecidableEq, Repr

/-- The verdict of edge `b` on a due (R498, R499). -/
def State.judge (s : State) (i b : Nat) (r : Req) (u : Due) : Seen :=
  let die := reqDie i
  if bit r.found u.n then .none
  else if u.d < b then (if s.bellRuns i u.d then .none else .missed)
  else if s.rbit (reqtA die 0x008) 1 && !bit r.predicted u.n &&
      ((decide (u.est ≠ 0) && decide (u.d < u.est)) || (decide (u.est = 0) && decide (u.d ≤ b + 1))) then .predicted
  else .none

/-- Record a verdict in the entry, the counters and the event queue (R498 to R500). -/
def State.noteDue (s : State) (i : Nat) (u : Due) (v : Seen) : State :=
  let die := reqDie i
  let id := reqId i (s.req i)
  match v with
  | .none => s
  | .predicted =>
    ((s.modReq i (fun r => { r with predicted := withBits r.predicted u.n u.n 1 })).cntAdd .reqt die die 0x040 1).reqEvent die id
      (u.n + 1) u.d
  | .missed =>
    let f (r : Req) : Req :=
      let r1 := { r.flag 0 true with found := withBits r.found u.n u.n 1, lateEver := true }
      if u.n = 0 then r1.flag 4 true
      else if u.n = 2 then r1.flag 5 true
      else { r1 with tbtMiss := min (r1.tbtMiss + 1) 65535 }
    ((s.modReq i f).cntAdd .reqt die die (0x048 + 8 * u.n) 1).reqEvent die id (u.n + 4) u.d

/-- The fallback is `READY` where the request's tail stretch lies (R503); a request without a tail needs it anywhere. -/
def State.fallbackReady (s : State) (r : Req) (tail : Option Nat) : Bool :=
  match tail with
  | some c => s.online c && decide (s.modelSt r.fallback c = 2)
  | none => s.modelAnyReady r.fallback

/-- Switch to the fallback, or note that it is not there (R502, R503, R508). The new KV map that firmware builds for the fallback
holds no token yet (DEDUCED, log entry 92). -/
def State.reqSwitch (s : State) (i d : Nat) (tail : Option Nat) : State :=
  let r := s.req i
  let die := reqDie i
  let id := reqId i r
  if bit r.flags 1 then s
  else if s.fallbackReady r tail then
    let r1 : Req := { r.flag 1 true with fbToken := r.generated, length := 0, grown := [], kept := (0, 0) }
    let r2 := if r1.state = 3 then { r1 with state := 2 } else if r1.state = 5 ∧ r1.resume = 3 then { r1 with resume := 2 } else r1
    ((s.setReq i r2).cntAdd .reqt die die 0x060 1).reqEvent die id 7 d
  else (s.cntAdd .reqt die die 0x068 1).reqEvent die id 8 d

/-- The miss policy of an entry acts once (R494, R501). -/
def State.reqPolicy (s : State) (i : Nat) (tail : Option Nat) (vs : List (Due × Seen)) : State :=
  let r := s.req i
  let die := reqDie i
  let hit := vs.filter (fun v => decide (v.2 ≠ .none))
  let miss := vs.filter (fun v => decide (v.2 = .missed))
  if r.policy = 1 then (match hit with | v :: _ => s.reqSwitch i v.1.d tail | [] => s)
  else if r.policy = 2 then
    (match miss with
     | v :: _ => ((s.reqEnd i 4).cntAdd .reqt die die 0x078 1).reqEvent die (reqId i r) 9 v.1.d
     | [] => s)
  else s

/-- Evaluate the dues of an entry at edge `b`; the answer tells whether one was predicted or found missed (R494, R497 to
R503). -/
def State.reqDues (s : State) (i b : Nat) (tail : Option Nat) : Bool × State :=
  let die := reqDie i
  if s.rbit (reqtA die 0x008) 0 = false ∨ (s.req i).live = false then (false, s)
  else
    let s0 := s.modReq i Req.newTbt
    let r := s0.req i
    let vs := r.dues.map (fun u => (u, s0.judge i b r u))
    let s1 := vs.foldl (fun (t : State) v => t.noteDue i v.1 v.2) s0
    let s2 := s1.reqPolicy i tail vs
    let risk := (s2.req i).dues.any (fun u => bit (s2.req i).predicted u.n && !bit (s2.req i).found u.n)
    (vs.any (fun v => decide (v.2 ≠ .none)), s2.modReq i (fun q => q.flag 2 risk))

/-! ### Pauses (R505 to R509) -/

/-- by_blocked follows the Bell's `blocked` (R506). -/
def Req.blocking (r : Req) : Req :=
  if bit r.flags 3 = false then r
  else if r.heldChunk then { r with byBlocked := true }
  else { r.flag 3 false with byBlocked := false }

/-- Enter or leave `PAUSED` at an edge, after the edge has been counted (R505). -/
def Req.pausing (r : Req) : Req :=
  let p := r.byHost || r.byShed || r.byBlocked
  if p = true ∧ (r.state = 1 ∨ r.state = 2 ∨ r.state = 3) then { r with resume := r.state, state := 5, pausedEver := true }
  else if p = false ∧ r.state = 5 then { r with state := r.resume, resume := 0 }
  else r

/-- Edges passed in `PAUSED` (R505). -/
def Req.countPause (r : Req) : Req := if r.state = 5 then { r with paused := min (r.paused + 1) (2 ^ 32 - 1) } else r

/-- Requests of a partition that shedding may pause, in its order (R507). -/
def State.shedList (s : State) (die part below : Nat) : List Nat :=
  let top := s.fld (reqtA die 0x108) 2 0
  let es := s.reqs.filter (fun e => decide (reqDie e.1 = die) && decide (e.2.part = part) && decide (e.2.state = 2 ∨ e.2.state = 3) &&
    !e.2.byShed && decide (e.2.priority ≤ top) && decide (e.2.priority < below))
  let dl (r : Req) : Nat := if r.deadline = 0 then 2 ^ 64 else r.deadline
  (sortBy (fun (x y : Nat × Req) =>
    decide (x.2.priority < y.2.priority) || (decide (x.2.priority = y.2.priority) &&
      (decide (dl y.2 < dl x.2) || (decide (dl x.2 = dl y.2) && decide (y.1 < x.1))))) es).map (fun e => e.1)

/-- Shed load for partitions whose groups the plan moved and of which a request of priority `p` missed: (partition, p) pairs
(R507). -/
def State.shed (s : State) (die : Nat) (ps : List (Nat × Nat)) : State :=
  let most := s.fld (reqtA die 0x108) 15 8
  (ps.foldl (fun (acc : Nat × State) q =>
    let l := (acc.2.shedList die q.1 q.2).take (most - acc.1)
    (acc.1 + l.length,
     (l.foldl (fun (t : State) i => t.modReq i (fun r => { r with byShed := true })) acc.2).cntAdd .reqt die die 0x070 l.length))
    (0, s)).2

/-- The entry is at risk (R507, R525). -/
def Req.atRisk (r : Req) : Bool := decide (r.state ≠ 0) && (bit r.flags 2 || bit r.flags 0)

/-- Count clear edges of each partition of a bellows (R507), and at_risk (R525). -/
def State.shedEdge (s : State) (die : Nat) : State :=
  let es := s.reqs.filter (fun e => decide (reqDie e.1 = die))
  let s1 := (List.range 64).foldl (fun (t : State) p =>
    if es.any (fun e => decide (e.2.part = p) && e.2.atRisk) then { t with shedClear := SMap.set (fun _ => 0) t.shedClear (64 * die + p) 0 }
    else if es.any (fun e => decide (e.2.part = p) && e.2.byShed) then
      { t with shedClear := SMap.upd (fun _ => 0) t.shedClear (64 * die + p) (fun n => min (n + 1) 256) }
    else t) s
  s1.setFld (reqtA die 0x00C) 15 0 (es.countP (fun e => e.2.atRisk))

/-- SHED_RESUME (R507): after `resume_hold` clear edges, by_shedding clears in the reverse order, once at an edge. -/
def execShedResume (die part : Nat) (s : State) : Res :=
  let hold := s.fld (reqtA die 0x108) 23 16
  let most := s.fld (reqtA die 0x108) 15 8
  let n := SMap.get (fun _ => 0) s.shedClear (64 * die + part)
  let dl (r : Req) : Nat := if r.deadline = 0 then 2 ^ 64 else r.deadline
  let es := s.reqs.filter (fun e => decide (reqDie e.1 = die) && decide (e.2.part = part) && e.2.byShed && e.2.live)
  let l := (sortBy (fun (x y : Nat × Req) =>
    decide (y.2.priority < x.2.priority) || (decide (x.2.priority = y.2.priority) &&
      (decide (dl x.2 < dl y.2) || (decide (dl x.2 = dl y.2) && decide (x.1 < y.1))))) es).take most
  .next (if isBellows die = false ∨ 64 ≤ part ∨ n < hold then s
    else
      let s1 := l.foldl (fun (t : State) e => t.modReq e.1 (fun r => { r with byShed := false })) s
      { s1 with shedClear := SMap.set (fun _ => 0) s1.shedClear (64 * die + part) (hold - 1) })

/-! ### The edge (action 5 of R43) -/

/-- Note in the log of a compared run what depends on time: a switch to the fallback, an end by a cancel; and a failure (R479, R485). -/
def State.reproMark (s : State) (i : Nat) : State :=
  let r := s.req i
  s.reproLog (reqId i r) (fun g =>
    let g1 := if bit r.flags 1 then { g with cut := some (min (g.cut.getD r.fbToken) r.fbToken) } else g
    let g2 := if r.terminal = true ∧ r.endReason = 4 then { g1 with cut := some (min (g1.cut.getD g.toks.length) g.toks.length) } else g1
    if r.terminal = true ∧ r.endReason = 5 then { g2 with failed := true } else g2)

/-- One entry at edge `b` (R494, R505); the answer tells whether a due was predicted or found missed. -/
def State.reqEntry (s : State) (i b : Nat) (tail : Option Nat) : Bool × State :=
  let s1 := ((s.modReq i Req.countPause).reqOutcomes i).reqFlr i
  let s2 := s1.reqCmds i
  let (hit, s3) := s2.reqDues i b tail
  (hit, (s3.modReq i (fun r => r.blocking.pausing)).reproMark i)

/-- A terminal entry becomes `FREE` (R495): everything of it but its generation is gone. -/
def State.reqFree (s : State) (i : Nat) : State :=
  let r := s.req i
  if r.terminal && r.finalDone && r.recDone && !s.reqRunning i && r.cmds.isEmpty then s.setReq i { gen := r.gen } else s

/-- The chanter of a request's tail stretch, by its KV map (R260, R503); of a request without one, what firmware names. -/
def State.tailChanter (s : State) (i : Nat) (tails : List (Nat × Nat)) : Option Nat :=
  match (s.kvMap i).bind KvMap.tail? with
  | some x => some x.chanter
  | none => (tails.find? (fun t => decide (t.1 = i))).map (fun t => t.2)

/-- The monitor of one bellows at edge `b` (R494, R500, R507): `moved` partitions, tail chanters. -/
def State.reqEdge (s : State) (die b : Nat) (moved : List Nat) (tails : List (Nat × Nat)) : State :=
  let is := (s.reqs.filter (fun e => decide (reqDie e.1 = die) && decide (e.2.state ≠ 0))).map (fun e => e.1)
  let (hits, s1) := is.foldl (fun (acc : List Nat × State) i =>
    let (hit, t) := acc.2.reqEntry i b (acc.2.tailChanter i tails)
    (if hit then acc.1 ++ [i] else acc.1, t)) ([], s)
  let ps := moved.filterMap (fun p =>
    match hits.filter (fun i => decide ((s1.req i).part = p)) with
    | [] => none
    | l => some (p, l.foldl (fun a i => max a (s1.req i).priority) 0))
  let s2 := (s1.shed die ps).shedEdge die
  is.foldl (fun (t : State) i => t.reqFree i) s2

end Sys2Proof.Machine
end

