-- ==== Sys2Proof/Machine/Sessions.lean ====
section
/-! DEFINITION. Agent sessions: images, parks, moves, exports, imports, shared prefixes, forwarded commands and the
rebuild of the directory (R533 to R569). -/
namespace Sys2Proof.Machine

/-! ### Images (R537 to R540, R543) -/

/-- A field of an image's header. -/
def hdr (img : List Byte) (off n : Nat) : Nat := leOf ((img.drop off).take n)

/-- Width in bits of a KV format. -/
def kvFmtBits : Nat → Nat
  | 0 => 16
  | 1 => 8
  | _ => 4

/-- Bytes of a page (R258). -/
def KvShape.pageBytes (k : KvShape) : Nat :=
  4096 * (2 * ceilDiv (128 * k.heads * k.width * kvFmtBits k.fmt) 32768 +
    (if k.fmt = 0 then 0 else 2 * ceilDiv (128 * k.heads * (k.width / 32) * 2) 4096))

/-- The prefix that a `SHARED` image references, with its pages (R543). -/
def State.sharedOf (s : State) (mode : Nat) (src : ImageSrc) : Option Nat × Nat :=
  match src.pfx with
  | none => (none, 0)
  | some p =>
    match SMap.get (fun _ => none) s.pfxs p with
    | none => (none, 0)
    | some x =>
      if mode = 1 ∧ src.shared ≠ 0 ∧ 128 * src.shared ≤ x.ids.length ∧ 128 * src.shared ≤ src.hist.length ∧
          src.hist.take (128 * src.shared) = x.ids.take (128 * src.shared) then (some p, src.shared)
      else (none, 0)

/-- Pages of a request of `n` tokens. -/
def pagesOf (n : Nat) : Nat := ceilDiv n 128

/-- The bytes of a page, read where it lies. -/
def State.pageBytes (s : State) (c a n : Nat) : List Byte :=
  match s.physRange (.unit c) none a n with
  | some ps => s.readPhys ps
  | none => List.replicate n 0

/-- Bytes of a list, filled up to a whole number of tiles. -/
def tilesOf (bs : List Byte) : List Byte := bs ++ List.replicate (alignUp bs.length 4096 - bs.length) 0

/-- Assemble an image in clear (R537, R538): `keep` pages per layer come from a base object. The offset of an absent grammar
state is not stated: a free value. -/
def State.buildImage (s : State) (k mode : Nat) (src : ImageSrc) (keep base : Nat) : List Byte × State :=
  let x := s.ses k
  let toks := src.hist.length
  let (pfx, shared) := s.sharedOf mode src
  let first := shared + keep
  let per := if mode = 2 then 0 else pagesOf toks - first
  let pb := src.shape.pageBytes
  let hist := tilesOf (src.hist.flatMap (fun t => leBytes 4 t))
  let kw := match src.keywork with
    | some bs => tilesOf (bs.take 16 ++ List.replicate 8 0 ++ bs.drop 24)
    | none => []
  let pages := (List.range src.shape.layers).flatMap (fun l => (List.range per).flatMap (fun i =>
    s.pageBytes src.chanter (src.pages.getD (l * pagesOf toks + first + i) 0) pb))
  let kwOff := 4096 + hist.length
  let (fr, s1) := if src.keywork = none then s.free 32 else (kwOff, s)
  let total := kwOff + kw.length + pages.length
  let h := leBytes 4 0x53455353 ++ leBytes 2 1 ++ leBytes 1 mode ++
    leBytes 1 (2 * b2n (decide (base ≠ 0)) + 4 * b2n src.keywork.isSome) ++ leBytes 8 (sesId k x) ++ leBytes 4 (x.turns + 1) ++
    leBytes 4 toks ++ leBytes 2 src.model ++ leBytes 1 src.shape.fmt ++ leBytes 1 src.shape.grain ++ leBytes 1 src.shape.layers ++
    leBytes 1 src.shape.heads ++ leBytes 2 src.shape.width ++ leBytes 1 src.shape.qPerKv ++
    leBytes 1 (max 1 (ceilDiv toks 262144)) ++ [0, 0] ++ leBytes 4 (pfx.getD 0xFFFFFFFF) ++ leBytes 4 shared ++ leBytes 4 per ++
    leBytes 4 keep ++ leBytes 4 pb ++ leBytes 8 base ++ leBytes 8 total ++ leBytes 4 0x1000 ++ leBytes 4 fr ++
    leBytes 4 (kwOff + kw.length) ++ List.replicate 4012 0
  (h ++ hist ++ kw ++ pages, s1)

/-- The words of an image's pages that a park or revive reads from DRAM hold no uncorrectable word (R554). -/
def State.pagesBad (s : State) (as : List Nat) (n : Nat) : Bool :=
  as.any (fun a => match s.physRange (.unit (a / chanterBytes)) none a n with
    | some ps => s.anyBad ps
    | none => false)

/-- The stored bytes of an image object, in clear where they are wrapped; none where a tag fails or a slot is empty. -/
def State.imageOf (s : State) (id : Nat) : Option (List Byte) :=
  match s.obj id with
  | none => none
  | some o =>
    let bs := o.data.bytes 0 o.size
    if bit (hdr bs 7 1) 0 then s.openImage bs else some bs

/-- The header of an image keeps R537, but for the fields of a delta. -/
def imageFieldsOk (img : List Byte) : Bool :=
  let h (o n : Nat) : Nat := hdr img o n
  decide (4096 ≤ img.length) && decide (h 0 4 = 0x53455353) && decide (h 4 2 = 1) && decide (h 6 1 ≤ 2) && decide (h 7 1 < 8) &&
    decide (h 20 4 ≤ 1048576) && decide (h 26 1 ≤ 2) && decide (13 ≤ h 27 1 ∧ h 27 1 ≤ 18) &&
    decide (1 ≤ h 28 1) && decide (1 ≤ h 29 1 ∧ h 29 1 ≤ 64) && decide (32 ≤ h 30 2 ∧ h 30 2 ≤ 512 ∧ h 30 2 % 32 = 0) &&
    decide (1 ≤ h 32 1 ∧ h 32 1 ≤ 64) && decide (h 33 1 = max 1 (ceilDiv (h 20 4) 262144)) && decide (h 34 2 = 0) &&
    decide (h 72 4 = 0x1000) && decide (h 84 44 = 0) && decide (h 144 112 = 0) &&
    ((img.drop 256).take 3840).all (fun b => decide (b = 0)) &&
    decide (h 52 4 = (⟨h 26 1, h 27 1, h 28 1, h 29 1, h 30 2, h 32 1⟩ : KvShape).pageBytes)

/-- The header of a full image keeps R537. -/
def imageOk (img : List Byte) : Bool :=
  imageFieldsOk img && !bit (hdr img 7 1) 1 && decide (hdr img 48 4 = 0) && decide (hdr img 56 8 = 0)

/-- An address of a page or list of a chanter, as a chanter-local one. -/
def pageHome (c a : Nat) : Nat := c * chanterBytes + localOff a

/-- The stretch that holds a token; the tail stretch for one that none holds. -/
def KvMap.stretchAt (m : KvMap) (t : Nat) : Option Stretch :=
  match m.stretches.find? (fun x => decide (x.first ≤ t ∧ t < x.first + x.count)) with
  | some x => some x
  | none => m.tail?

/-- Page `j` of layer `l` of a map: its address, as a chanter-local one, and whether it is shared (R262). -/
def State.mapPage (s : State) (m : KvMap) (l j : Nat) : Option (Nat × Bool) :=
  match m.stretchAt (128 * j) with
  | none => none
  | some x =>
    match s.pageListOf x l with
    | none => none
    | some a =>
      let k := j - x.first / 128
      match s.pageEntry x.chanter a k, s.readLe (.unit x.chanter) none (a + 8 * k) 8 with
      | some p, .ok e => some (pageHome x.chanter p, bit e 48)
      | _, _ => none

/-- What the KV map of a session's turn says of its image: shape, grain, model, pages and the leading shared ones; the grain is that
of the map for the life of every image made from it (R259, R265, R543). -/
def State.srcOf (s : State) (k : Nat) (src : ImageSrc) : ImageSrc :=
  match s.kvMap ((s.ses k).req % 65536) with
  | none => src
  | some m =>
    if s.kvMapOk m then
      let hist := src.hist.take m.length
      let n := pagesOf hist.length
      { src with
        hist := hist, shape := m.shape, model := m.model
        chanter := ((m.tail?).map (fun x => x.chanter)).getD src.chanter
        shared := ((List.range n).takeWhile (fun j => ((s.mapPage m 0 j).map (fun p => p.2)).getD false)).length
        pages := (List.range m.shape.layers).flatMap (fun l => (List.range n).map (fun j => ((s.mapPage m l j).map (fun p => p.1)).getD 0)) }
    else src

/-- The pages that a delta image may take from the session's base, and the base object: none where the park writes a full
image (R540). -/
def State.deltaKeep (s : State) (k mode : Nat) (src : ImageSrc) : Option (Nat × Nat) :=
  let x := s.ses k
  let b := x.base.getD x.cold
  let pct := s.fld (sesA (sesDie k) 0x108) 6 0
  let (pfx, shared) := s.sharedOf mode src
  match s.obj b with
  | none => none
  | some o =>
    let h := o.data.bytes 0 4096
    let keep := (hdr h 20 4 - 128 * hdr h 40 4) / 128
    let need := pagesOf src.hist.length - (shared + keep)
    if x.cold = 0 ∨ 2 ≤ mode ∨ x.imgMode ≠ mode ∨ x.model ≠ src.model ∨ hdr h 40 4 ≠ shared ∨ x.pfx ≠ pfx ∨ pct = 0 ∨
        pct * hdr h 44 4 < 100 * need then none
    else some (keep, b)

/-- A full image from a stored one: a delta takes its first pages from its base (R540, R559). -/
def State.fullImage (s : State) (x : Sess) : Option (List Byte) :=
  match s.imageOf (if x.cold ≠ 0 then x.cold else x.warm) with
  | none => none
  | some d =>
    if bit (hdr d 7 1) 1 = false then some d
    else match s.imageOf (hdr d 56 8) with
      | none => none
      | some b =>
        let keep := hdr d 48 4
        let pb := hdr d 52 4
        let per (img : List Byte) : Nat := hdr img 44 4
        let page (img : List Byte) (l i : Nat) : List Byte := (img.drop (hdr img 80 4 + (l * per img + i) * pb)).take pb
        let pages := (List.range (hdr d 28 1)).flatMap (fun l =>
          (List.range keep).flatMap (fun i => page b l i) ++ (List.range (per d)).flatMap (fun i => page d l i))
        let front := d.take (hdr d 80 4)
        some (front.take 7 ++ leBytes 1 (hdr d 7 1 - 2) ++ (front.drop 8).take 36 ++ leBytes 4 (keep + per d) ++ leBytes 4 0 ++
          (front.drop 52).take 4 ++ leBytes 8 0 ++ leBytes 8 (hdr d 80 4 + pages.length) ++ front.drop 72 ++ pages)

/-- Segments unwrapped where a session's image, and the base of a delta, are read in clear (R559, R791). -/
def State.imageOpened (s : State) (x : Sess) : State :=
  let id := if x.cold ≠ 0 then x.cold else x.warm
  let base := match s.imageOf id with
    | some d => if bit (hdr d 7 1) 1 then [hdr d 56 8] else []
    | none => []
  (id :: base).foldl (fun (t : State) i => match t.imageOf i with
    | some d => if bit (hdr d 7 1) 0 then t.wrapCount (d.length - 4096) else t
    | none => t) s

/-- Put an image into an object: `WARM` in a chanter's park area, `COLD` in flash, `DURABLE` in both (R534). -/
def State.putImage (s : State) (id dest part fn chanter : Nat) (addr : Option Nat) (img : List Byte) : State :=
  let mask := 2 ^ (8 + chanter)
  let flags := if dest = 0 then 2 + 16 + mask else if dest = 1 then 32 else 2 + 32 + mask
  s.setObj id (some { size := img.length, flags := flags, part := part, fn := fn
                      addr := if dest = 1 then none else addr, data := Memory.setBytes [] 0 img, lastBound := s.breath.number })

/-- Delete an image object. -/
def State.dropImage (s : State) (id : Nat) : State := if id = 0 then s else s.setObj id none

/-! ### Parks (R532, R536, R540, R548, R555) -/

/-- Commit the image of a session's turn: the entry takes the new object, and the superseded ones go (R540, R555). -/
def State.commitPark (s : State) (k dest mode : Nat) (src : ImageSrc) (base : Option Nat) (img : List Byte) : State :=
  let x := s.ses k
  let d := sesDie k
  let keepIds : List Nat := src.obj :: base.toList
  let s1 := ([x.warm, x.cold, x.base.getD 0].filter (fun i => !keepIds.contains i)).foldl (fun (t : State) i => t.dropImage i) s
  let per := if mode = 2 then 0 else pagesOf src.hist.length - (s.sharedOf mode src).2
  let own := if dest = 0 then (List.range src.shape.layers).flatMap (fun l => (List.range per).map (fun i =>
      src.pages.getD (l * pagesOf src.hist.length + (s.sharedOf mode src).2 + i) 0)) else []
  let s1' := s1.putImage src.obj dest x.part x.fn src.chanter src.addr img
  let s2 := match s1'.obj src.obj with
    | some o => s1'.setObj src.obj (some { o with pages := own })
    | none => s1'
  let i := x.req % 65536
  let s3 := s2.modSes k (fun y => { y with
    state := 3, dest := dest, rolledBack := false, mode := mode, req := 0, warm := if dest = 1 then 0 else src.obj
    cold := if dest = 0 then 0 else src.obj, tokens := src.hist.length, turns := (y.turns + 1) % 2 ^ 32
    imageKib := min (ceilDiv img.length 1024) (2 ^ 32 - 1), model := src.model, parked := s.breath.number
    pfx := (s.sharedOf mode src).1, base := base, imgMode := mode, chanter := src.chanter })
  let s4 := s3.setOps (s3.sessOps.filter (fun o => decide (o.slot ≠ k)))
  let s5 := s4.modReq i (fun r => { r with
    state := 7, started := false, endBreath := s.breath.number, endPeriod := s.breath.period })
  let s6 := s5.cntAdd .sess d d 0x038 1
  if base = none then s6 else s6.cntAdd .sess d d 0x040 1

/-- A park fails: the turn ends `CANCELLED` with code 0x05, and the session keeps its image (R548, R554, R555). -/
def State.parkFail (s : State) (k : Nat) : State :=
  let i := (s.ses k).req % 65536
  let s1 := (s.sesFail k).modReq i (fun r => { r with
    state := 10, endReason := 5, errSrc := 9, errCode := 5, endBreath := s.breath.number, endPeriod := s.breath.period })
  (s1.turnOver i).cntAdd .reqt (reqDie i) (reqDie i) 0x080 1

/-- PARK_COMMIT (R540, R555): the image of a running park is durable in flash, or its write has failed. -/
def execParkCommit (k : Nat) (src : ImageSrc) (ok : Bool) (s : State) : Res :=
  let x := s.ses k
  let wrap := s.partSecure x.part
  .next (if s.sessOps.any (fun o => decide (o.slot = k) && o.running && decide (o.kind = .park)) = false then s
    else if ok = false ∨ (wrap = true ∧ s.canWrap (s.partKey x.part) = false) then s.parkFail k
    else
      let src := s.srcOf k src
      let dk := s.deltaKeep k x.nextMode src
      let (img0, s1) := s.buildImage k x.nextMode src (dk.getD (0, 0)).1 (dk.getD (0, 0)).2
      let (img, s2) := if wrap then s1.wrapImage (s.partKey x.part) img0 else (img0, s1)
      if s2.quotaOk 32 img.length x.part = false then s2.parkFail k
      else s2.commitPark k x.nextDest x.nextMode src (dk.map (fun p => p.2)) img)

/-! ### Operations (R562) -/

/-- SESS_OP_START: the oldest waiting operation of a bellows whose inflight slot is free starts (R562, R564). -/
def execSessOpStart (die : Nat) (s : State) : Res :=
  let mine (o : SessOp) : Bool := decide (sesDie o.slot = die)
  let n := s.sessOps.countP (fun o => mine o && o.running)
  .next (if isBellows die = false ∨ s.rbit (sesA die 0x008) 0 = false ∨ s.fld (sesA die 0x108) 24 16 ≤ n then s
    else match s.sessOps.find? (fun o => mine o && !o.running) with
      | none => s
      | some o =>
        let s1 := s.setOps (s.sessOps.map (fun (p : SessOp) => if p = o then { p with running := true } else p))
        if o.kind = .park then s1.modReq ((s1.ses o.slot).req % 65536) (fun r => { r with state := 6 }) else s1)

/-! ### Moves and exports (R558, R559) -/

/-- MOVE_COMPLETE (R558): the copy of a moved image is committed in object `obj`, or has failed; the session is `PARKED` at
the next edge. The image goes to the chanter that the command named, or to `chanter` where it named none. -/
def execMoveComplete (k obj chanter : Nat) (addr : Option Nat) (ok : Bool) (s : State) : Res :=
  let x := s.ses k
  let stop (t : State) : State := t.setOps (t.sessOps.map (fun (o : SessOp) => if o.slot = k then { o with done := true } else o))
  .next (match s.sessOps.find? (fun o => decide (o.slot = k) && o.running && !o.done) with
    | some { kind := .move dest ch, .. } =>
      (match s.fullImage x with
       | none => stop s
       | some img0 =>
         let wrap := decide (dest ≠ 0) && s.partSecure x.part
         let home := if ch < 4 then ch else chanter
         if ok = false ∨ (wrap = true ∧ s.canWrap (s.partKey x.part) = false) then stop s
         else
           let clear := withBits (hdr img0 7 1) 0 0 0
           let img1 := img0.take 7 ++ leBytes 1 clear ++ img0.drop 8
           let so := s.imageOpened x
           let (img, s1) := if wrap then so.wrapImage (s.partKey x.part) img1 else (img1, so)
           let s2 := ([x.warm, x.cold, x.base.getD 0].filter (fun i => decide (i ≠ obj))).foldl (fun (t : State) i => t.dropImage i) s1
           stop ((s2.putImage obj dest x.part x.fn home addr img).modSes k (fun y => { y with
             dest := dest, warm := if dest = 1 then 0 else obj, cold := if dest = 0 then 0 else obj, base := none
             chanter := home, imageKib := min (ceilDiv img.length 1024) (2 ^ 32 - 1) })))
    | _ => s)

/-- Free a session: its images go, and its slot keeps its generation (R528, R531). -/
def State.sesFree (s : State) (k : Nat) : State :=
  let x := s.ses k
  let s1 := [x.warm, x.cold, x.base.getD 0].foldl (fun (t : State) i => t.dropImage i) s
  (s1.setOps (s1.sessOps.filter (fun o => decide (o.slot ≠ k)))).setSes k { gen := x.gen }

/-- EXPORT_COMPLETE (R559): the wrapped full image stands at the host address or in the flash object the command named, or
the write has failed. With `handoff` the session is freed. -/
def execExportComplete (k : Nat) (ok : Bool) (s : State) : Res :=
  let x := s.ses k
  let back (t : State) : State := (t.setOps (t.sessOps.filter (fun o => decide (o.slot ≠ k)))).modSes k (fun y => { y with state := 3 })
  .next (match s.sessOps.find? (fun o => decide (o.slot = k) && o.running) with
    | some { kind := .exportTo addr toFlash handoff, cmd := c, .. } =>
      let fn := match c with | some h => h.fn | none => x.fn
      (match s.fullImage x with
       | none => back s
       | some img0 =>
         if ok = false ∨ s.canWrap (s.partKey x.part) = false ∨ (toFlash = false ∧ s.canWriteHost fn = false) then back s
         else
           let (img, s1) := (s.imageOpened x).wrapImage (s.partKey x.part) img0
           let s2 := if toFlash then
               s1.setObj addr (some { size := img.length, flags := 32, part := x.part, fn := fn, data := Memory.setBytes [] 0 img
                                      lastBound := s.breath.number })
             else s1.hostWrite fn addr img
           if handoff then s2.sesFree k else back s2)
    | _ => s)

/-! ### Commands of a session's home (R549, R550, R561) -/

/-- The session of a command, or the status with which it is refused: stale, or another partition's. -/
def State.sesCheck (s : State) (c : HCmd) : Except Nat Nat :=
  match s.sesNamed (c.fld 0 8) with
  | none => .error 3
  | some k => if (s.ses k).part ≠ s.fnPart c.fn then .error 5 else .ok k

/-- A session that a delete, move or export finds busy (R549). -/
def Sess.busy (x : Sess) : Bool := decide (x.state = 2) || decide (x.state = 4) || decide (x.queue ≠ [])

/-- Answer with a status that the spec does not state. -/
def State.answerFree (s : State) (c : HCmd) : State := let (v, s1) := s.free 8; s1.answer c v 0 0

/-- The queue record of a session: its rank among the sessions of its half that have a queue; 0xFFFF for none (R530, R544). -/
def State.queueRec (s : State) (k : Nat) : Nat :=
  if (s.ses k).queue = [] then 0xFFFF else (s.half (sesDie k)).countP (fun e => decide (e.2.queue ≠ []) && decide (e.1 < k))

/-- The 64 bytes of a directory entry (R530). -/
def Sess.bytes (qrec : Nat) (x : Sess) : List Byte :=
  leBytes 5 x.gen ++ leBytes 1 (x.state + 8 * x.dest + 32 * b2n x.rolledBack + 64 * b2n x.damaged) ++ leBytes 1 x.mode ++
    leBytes 1 x.queue.length ++ leBytes 1 x.part ++ [0] ++ leBytes 2 x.fn ++ leBytes 4 x.req ++ leBytes 8 x.warm ++ leBytes 8 x.cold ++
    leBytes 4 x.tokens ++ leBytes 4 x.turns ++ leBytes 4 x.imageKib ++ leBytes 2 x.model ++
    leBytes 2 qrec ++ leBytes 8 x.parked ++ List.replicate 8 0

/-- Run a session command at the session's home. -/
def State.sesRun (s : State) (c : HCmd) (op : FwdOp) : State :=
  match s.sesCheck c with
  | .error st => s.answer c st 0 0
  | .ok k =>
    let x := s.ses k
    match op with
    | .turn _ _ => s
    | .set => (s.modSes k (fun y => { y with nextMode := c.fld 8 1 % 4, nextDest := c.fld 8 1 / 4 % 4 })).answer c 0 0 0
    | .delete => if x.busy then s.answer c 4 0 0 else (s.sesFree k).answer c 0 0 0
    | .query => s.answerBlock c (c.fld 8 8) (x.bytes (s.queueRec k)) 0
    | .move =>
      if x.busy then s.answer c 4 0 0
      else if x.state ≠ 3 ∨ (x.warm = 0 ∧ x.cold = 0) then s.answerFree c
      else ((s.modSes k (fun y => { y with state := 4 })).setOps
        (s.sessOps ++ [{ slot := k, kind := .move (c.fld 8 1) (c.fld 9 1), cmd := some c }])).answer c 0 0 0
    | .exportTo =>
      if x.busy then s.answer c 4 0 0
      else if x.state ≠ 3 ∨ (x.warm = 0 ∧ x.cold = 0) then s.answerFree c
      else if s.canWrap (s.partKey x.part) = false then s.answer c 7 0 0
      else
        let n := match s.fullImage x with | some img => img.length | none => 0
        let total := n + 16 * ceilDiv (n - 4096) (1024 * 1024)
        ((s.modSes k (fun y => { y with state := 4 })).setOps (s.sessOps ++
          [{ slot := k, kind := .exportTo (c.fld 8 8) (bit (c.fld 16 1) 0) (bit (c.fld 16 1) 1), cmd := some c }])).answer c 0 0 total

/-- Send a session command to its home, or run it there (R528); `bad` is a reserved field or value set. -/
def State.sesCmd (s : State) (c : HCmd) (op : FwdOp) (bad : Bool) : State :=
  let home := sesDie (c.fld 0 8 % 2 ^ 24)
  if bad then s.answer c 1 0 0
  else if home = fnDie c.fn then s.sesRun c op
  else { s with fwds := s.fwds ++ [{ home := home, cmd := c, op := op }] }

/-- A mode and destination byte is allowed (R561). -/
def modeOk (b : Nat) : Bool := decide (b < 16) && decide (b % 4 ≠ 3) && decide (b / 4 ≠ 3)

/-- SESS_SET (R535). -/
def execSessSet (c : HCmd) (s : State) : Res :=
  .next (s.hostRun c 16 false (fun s => s.sesCmd c .set (!modeOk (c.fld 8 1) || decide (c.fld 9 7 ≠ 0))))

/-- SESS_DELETE (R549). -/
def execSessDelete (c : HCmd) (s : State) : Res := .next (s.hostRun c 8 false (fun s => s.sesCmd c .delete false))

/-- SESS_QUERY (R561). -/
def execSessQuery (c : HCmd) (s : State) : Res := .next (s.hostRun c 16 false (fun s => s.sesCmd c .query false))

/-- SESS_MOVE (R558). -/
def execSessMove (c : HCmd) (s : State) : Res :=
  .next (s.hostRun c 16 false (fun s => s.sesCmd c .move
    (decide (3 ≤ c.fld 8 1) || (decide (4 ≤ c.fld 9 1) && decide (c.fld 9 1 ≠ 0xFF)) || decide (c.fld 10 6 ≠ 0))))

/-- SESS_EXPORT (R559). -/
def execSessExport (c : HCmd) (s : State) : Res :=
  .next (s.hostRun c 24 false (fun s => s.sesCmd c .exportTo (decide (4 ≤ c.fld 16 1) || decide (c.fld 17 7 ≠ 0))))

/-- TURN_FORWARD: the home bellows accepts the oldest forward (R528, R544, R545). A refused turn's entry is as it was. -/
def execTurnForward (die : Nat) (s : State) : Res :=
  .next (match s.fwds.find? (fun f => decide (f.home = die)) with
    | none => s
    | some f =>
      let s1 := { s with fwds := s.fwds.erase f }
      match f.op with
      | .turn i oldGen =>
        (match s1.turnRefused (s1.req i).sessionId (s1.fnPart f.cmd.fn) with
         | some st => ((s1.setReq i { gen := oldGen }).cntAdd .sess die die 0x068 1).refuseReq f.cmd 7 st
         | none => s1.acceptTurn f.cmd i)
      | op => s1.sesRun f.cmd op)

/-- The lowest `FREE` slot of a half from a key. -/
def State.freeSes (s : State) : Nat → Nat → Nat
  | 0, k => k
  | n + 1, k => if (s.ses k).state = 0 then k else State.freeSes s n (k + 1)

/-- Take the lowest free slot of a port's half for a new session; its generation advances (R528). -/
def State.takeSes (s : State) (die : Nat) (f : Sess → Sess) : Nat × State :=
  let k := s.freeSes (s.sess.length + 1) (2 ^ 23 * (die - 4))
  let x := s.ses k
  let g := if x.gen = 2 ^ 40 - 1 then 1 else x.gen + 1
  (k, (s.setSes k (f { gen := g })).cntAdd .sess die die 0x030 1)

/-- Every slot of a half is taken. -/
def State.dirFull (s : State) (die : Nat) : Bool := decide (2 ^ 23 ≤ s.fld (sesA die 0x100) 23 0)

/-- SESS_CREATE (R535, R561). -/
def execSessCreate (c : HCmd) (s : State) : Res :=
  .next (s.hostRun c 8 false (fun s =>
    let b := c.fld 0 1
    let die := fnDie c.fn
    if modeOk b = false ∨ c.fld 1 7 ≠ 0 then s.answer c 1 0 0
    else if s.dirFull die then s.answer c 2 0 0
    else
      let (k, s1) := s.takeSes die (fun x => { x with
        state := 1, mode := b % 4, dest := b / 4, nextMode := b % 4, nextDest := b / 4, part := s.fnPart c.fn, fn := c.fn })
      s1.answer c 0 0 (sesId k (s1.ses k))))

/-- SESS_IMPORT (R560): `host` holds the bytes of an image in host memory; `known` says that the model is registered and its
format, head layout and grammar are supported; the imported image is kept in flash object `obj`. -/
def execSessImport (c : HCmd) (host : List Byte) (known : Bool) (obj : Nat) (s : State) : Res :=
  .next (s.hostRun c 24 false (fun s =>
    let die := fnDie c.fn
    let part := s.fnPart c.fn
    let n := c.fld 8 8
    let img := if bit (c.fld 16 1) 0 then s.flashBytes (c.fld 0 8) 0 n else host.take n
    let slot := hdr img 128 4
    let secure := s.partSecure part
    if 2 ≤ c.fld 16 1 ∨ c.fld 17 7 ≠ 0 then s.answer c 1 0 0
    else if s.dirFull die then s.answer c 2 0 0
    else if imageOk img = false ∨ bit (hdr img 7 1) 0 = false ∨ hdr img 64 8 ≠ n ∨ hdr img 132 4 ≠ 1024 ∨ 16 ≤ slot then s.answer c 6 0 0
    else if (s.keySlot slot).isNone then s.answer c 7 0 0
    else match s.openImage img with
      | none => s.tagFailed.answer c 6 0 0
      | some body =>
        if known = false ∨ s.modelAnyReady (hdr img 24 2) = false ∨
            (List.range 4).countP (fun ch => s.online ch) < hdr img 33 1 ∨
            (secure = true ∧ s.canWrap (s.partKey part) = false) then s.answer c 7 0 0
        else
          let clear := body.take 7 ++ leBytes 1 (hdr body 7 1 - 1) ++ (body.drop 8).take 56 ++ leBytes 8 body.length ++
            (body.drop 72).take 56 ++ List.replicate 16 0 ++ body.drop 144
          let so := s.wrapCount (body.length - 4096)
          let (data, s1) := if secure then so.wrapImage (s.partKey part) clear else (clear, so)
          let p := hdr img 36 4
          let (k, s2) := s1.takeSes die (fun x => { x with
            state := 3, dest := 1, mode := hdr img 6 1, nextMode := hdr img 6 1, nextDest := 1, part := part, fn := c.fn, cold := obj
            tokens := hdr img 20 4, turns := hdr img 16 4, imageKib := min (ceilDiv data.length 1024) (2 ^ 32 - 1)
            model := hdr img 24 2, parked := s.breath.number, imgMode := hdr img 6 1
            pfx := if p = 0xFFFFFFFF then none else some p })
          (s2.putImage obj 1 part c.fn 0 none data).answer c 0 0 (sesId k (s2.ses k))))

/-! ### Shared prefixes (R541, R542) -/

/-- A prefix. -/
def State.pfxOf (s : State) (p : Nat) : Option Pfx := SMap.get (fun _ => none) s.pfxs p

/-- Replace a prefix. -/
def State.setPfx (s : State) (p : Nat) (x : Option Pfx) : State := { s with pfxs := SMap.set (fun _ => none) s.pfxs p x }

/-- Committed images and live requests that name a prefix (R542). -/
def State.pfxCount (s : State) (p : Nat) : Nat :=
  s.sess.countP (fun e => decide (e.2.state ≠ 0) && decide (e.2.pfx = some p)) +
    s.reqs.countP (fun e => e.2.live && decide (e.2.pfx = some p))

/-- A prefix whose object is lost keeps its id until nothing names it (R542); the id is then free. -/
def State.pfxSweep (s : State) : State :=
  { s with pfxs := s.pfxs.filter (fun (e : Nat × Option Pfx) => match e.2 with
      | some p => (match s.obj p.obj with | some o => !o.lost | none => false) || decide (s.pfxCount e.1 ≠ 0)
      | none => false) }

/-- SESS_PREFIX (R541): `ids` are the token ids in host memory, none where their read failed; the runtime gives the object's
place and the KV's shape. The lowest free prefix id is taken. -/
def execSessPrefix (c : HCmd) (ids : Option (List Nat)) (shape : KvShape) (place : Place) (s : State) : Res :=
  .next (s.hostRun c 16 true (fun s =>
    let n := c.fld 4 4
    let part := s.fnPart c.fn
    let mask := ((List.range 4).filter (fun ch => s.online ch)).foldl (fun a ch => a + 2 ^ (8 + ch)) 0
    if c.fld 2 2 ≠ 0 ∨ n = 0 ∨ n % 128 ≠ 0 ∨ 1048576 < n then s.answer c 1 0 0
    else match ids with
      | none => s.answer c 0xF2 0 0
      | some l =>
        match (List.range 4096).find? (fun p => (s.pfxOf p).isNone) with
        | none => s.answerFree c
        | some p =>
          let s1 := s.setObj place.id (some { size := n / 128 * shape.layers * shape.pageBytes, flags := 2 + mask, part := part
                                              fn := c.fn, addr := place.addr, lastBound := s.breath.number })
          let x : Pfx := { model := c.fld 0 2, ids := l.take n, obj := place.id, part := part }
          (s1.setPfx p (some x)).answer c 0 0 p))

/-- SESS_PREFIX_DELETE (R542). -/
def execSessPrefixDelete (c : HCmd) (s : State) : Res :=
  .next (s.hostRun c 8 true (fun s =>
    let p := c.fld 0 2
    if c.fld 2 6 ≠ 0 then s.answer c 1 0 0
    else match s.pfxOf p with
      | none => s.answerFree c
      | some x =>
        if s.pfxCount p ≠ 0 then s.answer c 9 0 0
        else ((s.dropImage x.obj).setPfx p none).answer c 0 0 0))

/-! ### Rebuild and lost sessions (R556, R566) -/

/-- Queue a lost session id (R566). -/
def State.sesLoseId (s : State) (die id : Nat) : State :=
  let q := SMap.get (fun _ => []) s.sessLost die
  let s1 := s.raise (sesA die 0) 2
  if 4096 ≤ q.length then s1.setFld (sesA die 0x00C) 29 29 1
  else { s1 with sessLost := SMap.set (fun _ => []) s1.sessLost die (q ++ [id]) }

/-- SESS_REBUILD: a write of SESS_CTRL with `rebuild` (R556, R564). -/
def execSessRebuild (who : Requester) (die : Nat) (value : Word) (s : State) : Res :=
  .next (s.gate who (sesA die 0x008) (fun s =>
    (if isBellows die = false then s
    else (s.writeAt who .sess die die 0x008 value).setFld (sesA die 0x00C) 30 30
      (if value.getLsbD 1 then 1 else s.fld (sesA die 0x00C) 30 30))))

/-- One session in a rebuild: its flash image stands, or it is lost (R556). -/
def State.sesRebuild (s : State) (k : Nat) (x : Sess) : State :=
  if x.state = 0 ∨ x.state = 2 ∨ x.state = 4 then s
  else if x.cold = 0 then (s.sesFree k).sesLoseId (sesDie k) (sesId k x)
  else
    let s1 := if x.warm = x.cold then
        (match s.obj x.warm with | some o => s.setObj x.warm (some { o with addr := none }) | none => s)
      else s.dropImage x.warm
    s1.modSes k (fun y => { y with state := 3, warm := 0, req := 0, damaged := false, damage := 0 })

/-- REBUILD_DONE (R556, R566, R568). -/
def execRebuildDone (die : Nat) (s : State) : Res :=
  .next (if isBellows die = false ∨ s.rbit (sesA die 0x00C) 30 = false then s
    else
      let s1 := (s.half die).foldl (fun (t : State) e => t.sesRebuild e.1 e.2) s
      (s1.setFld (sesA die 0x00C) 30 30 0).raise (sesA die 0) 3)

/-- SESS_LOST_LO: a read removes the oldest lost id (R566). -/
def execSessLostLo (die : Nat) (s : State) : Res :=
  .next (if isBellows die = false then s
    else match SMap.get (fun _ => []) s.sessLost die with
      | [] => { (s.setReg (sesA die 0x110) 0).setReg (sesA die 0x114) 0 with readData := 0 }
      | id :: rest =>
        { (s.setReg (sesA die 0x110) (BitVec.ofNat 32 id)).setReg (sesA die 0x114) (BitVec.ofNat 32 (id / 2 ^ 32)) with
          sessLost := SMap.set (fun _ => []) s.sessLost die rest, readData := id % 2 ^ 32 })

/-! ### The edge (R536, R546, R558) -/

/-- A session at an edge, before turns start: a move that is done, a `WARM` park that commits, a park that goes to flash. -/
def State.sesSettle (s : State) (k : Nat) (warm : List (Nat × ImageSrc)) : State :=
  let x := s.ses k
  let i := x.req % 65536
  if x.state = 4 then
    (if s.sessOps.any (fun o => decide (o.slot = k) && o.done) then
       (s.setOps (s.sessOps.filter (fun o => decide (o.slot ≠ k)))).modSes k (fun y => { y with state := 3 })
     else s)
  else if x.state ≠ 2 ∨ (s.req i).state ≠ 4 ∨ s.reqRunning i = true then s
  else if x.nextDest = 0 then
    (match warm.find? (fun w => decide (w.1 = k)) with
     | none => s
     | some w =>
       let src := s.srcOf k w.2
       let (img, s1) := s.buildImage k x.nextMode src 0 0
       s1.commitPark k 0 x.nextMode src none img)
  else if s.sessOps.any (fun o => decide (o.slot = k)) then s
  else s.setOps (s.sessOps ++ [{ slot := k, kind := .park }])

/-- Start the turn at the head of a session's queue (R546, R547). A turn of a damaged session fails (R554); a paused turn
waits. -/
def State.turnStart (s : State) (k : Nat) : State :=
  let x := s.ses k
  match x.queue with
  | [] => s
  | id :: rest =>
    let i := id % 65536
    if (x.state ≠ 1 ∧ x.state ≠ 3) ∨ (s.req i).state ≠ 1 then s
    else if x.damaged then
      let s1 := ((s.modSes k (fun y => { y with queue := rest })).sesFail k).modReq i (fun r => { r with flags := withBits r.flags 6 6 1 })
      s1.reqFail i 9 x.damage
    else
      let s1 := s.modSes k (fun y => { y with state := 2, req := id, queue := rest })
      let s2 := s1.modReq i (fun r => { r with started := true, state := if x.state = 3 then 8 else 1 })
      if x.state = 3 then s2.setOps (s2.sessOps ++ [{ slot := k, kind := .revive }]) else s2

/-- The session engine of a bellows at an edge. -/
def State.sesEdge (s : State) (die : Nat) (warm : List (Nat × ImageSrc)) : State :=
  let ks := ((s.half die).filter (fun e => decide (e.2.state ≠ 0))).map (fun e => e.1)
  let s1 := ks.foldl (fun (t : State) k => t.sesSettle k warm) s
  if s1.rbit (sesA die 0x008) 0 = false ∨ s1.rbit (sesA die 0x00C) 30 = true then s1
  else ks.foldl (fun (t : State) k => t.turnStart k) s1

end Sys2Proof.Machine
end

