-- ==== Sys2Proof/Machine/Keywork.lean ====
section
/-! DEFINITION. The Keywork: grammars, contexts, masks and advances (R437 to R444). -/
namespace Sys2Proof.Machine

/-- A grammar version and the vocabulary of its ids, as the Keywork of a bellows uses them. -/
structure Gram where
  die : Nat
  part : Nat
  /-- The version descriptor (R437). -/
  v : Nat
  /-- Tokens of the vocabulary. -/
  nTok : Nat
  deriving DecidableEq, Repr

/-- A field of the version descriptor. -/
def Gram.f (g : Gram) (off n : Nat) : Nat := dfld g.v off n
/-- End-of-sequence ids. -/
def Gram.eos (g : Gram) : List Nat := ((List.range 4).map (fun i => g.f (20 + 4 * i) 4)).filter (fun t => decide (t ≠ noTok))

/-- A grammar version descriptor keeps R437. -/
def gramDescOk (id x : Nat) : Bool :=
  let f := dfld x
  decide (f 4 2 = id) && decide (f 6 1 < 16) && decide (f 7 1 = 0) && decide (1 ≤ f 8 4 ∧ f 8 4 ≤ 65536) &&
  decide (1 ≤ f 12 4 ∧ f 12 4 ≤ 1048576) && decide (f 16 4 < f 8 4) && decide (f 36 4 % 8 = 0) && decide (f 40 4 % 16 = 0) &&
  decide (f 44 20 = 0)

/-- A Keywork context (R439). -/
structure KCtx where
  state : Nat := 0
  depth : Nat := 0
  fin : Bool := false
  dead : Bool := false
  version : Nat := 0
  gram : Nat := 0
  count : Nat := 0
  hist : Nat := 0
  /-- The stack, symbol i in byte i. -/
  stack : Nat := 0
  deriving DecidableEq, Repr

/-- Read a context of 128 bytes. -/
def kctxOf (v : Nat) : KCtx :=
  { state := dfld v 0 2, depth := dfld v 2 1, fin := bit (dfld v 3 1) 0, dead := bit (dfld v 3 1) 1, version := dfld v 4 4
    gram := dfld v 8 2, count := dfld v 12 4, hist := dfld v 16 8, stack := dfld v 64 64 }

/-- The bytes of a context, over the old ones: bytes 24 to 63 are kept. -/
def KCtx.bytes (c : KCtx) (old : List Byte) : List Byte :=
  leBytes 2 c.state ++ leBytes 1 c.depth ++ leBytes 1 (b2n c.fin + 2 * b2n c.dead) ++ leBytes 4 c.version ++ leBytes 2 c.gram ++
    leBytes 2 0 ++ leBytes 4 c.count ++ leBytes 8 c.hist ++ (old.drop 24).take 40 ++ leBytes 64 c.stack

/-- An edge (R438). -/
structure KEdge where
  lo : Nat
  hi : Nat
  next : Nat
  act : Nat
  sym : Nat
  deriving DecidableEq, Repr

/-- An edge of 16 bytes, unless it is bad (R438). -/
def Gram.edge (g : Gram) (v : Nat) : Option KEdge :=
  let e : KEdge := { lo := dfld v 0 4, hi := dfld v 4 4, next := dfld v 8 2, act := dfld v 10 1, sym := dfld v 11 1 }
  if g.f 8 4 ≤ e.next ∨ e.hi < e.lo ∨ 2 < e.act ∨ dfld v 12 4 ≠ 0 then none else some e

/-- The edges of a state in stored order, `n` from index `i`. -/
def State.edgesGo (s : State) (g : Gram) : Nat → Nat → TextM (List KEdge)
  | 0, _ => pure []
  | n + 1, i => do
    let v ← s.treadLe g.die g.part 8 8 1 (bellowsAddr g.die (g.f 40 4 + 16 * i)) 16
    match g.edge v with
    | none => throw 6
    | some e => let r ← State.edgesGo s g n (i + 1); pure (e :: r)

/-- What the state of a context allows: its edges and whether it accepts (R438). -/
def State.kstate (s : State) (g : Gram) (st : Nat) : TextM (List KEdge × Bool) := do
  let v ← s.treadLe g.die g.part 8 8 1 (bellowsAddr g.die (g.f 36 4 + 8 * st)) 8
  let es ← s.edgesGo g (dfld v 4 2) (dfld v 0 4)
  pure (es, bit (dfld v 6 1) 0)

/-- The edge is eligible (R440). -/
def KCtx.eligible (c : KCtx) (e : KEdge) : Bool :=
  decide (e.act = 0) || (decide (e.act = 1) && decide (c.depth < 64)) ||
    (decide (e.act = 2) && decide (1 ≤ c.depth) && decide (dfld c.stack (c.depth - 1) 1 = e.sym))

/-- Token `t` is allowed (R440). -/
def KCtx.allowed (c : KCtx) (g : Gram) (es : List KEdge) (acc : Bool) (t : Nat) : Bool :=
  decide (t < g.nTok) &&
    (if g.eos.contains t then acc && decide (c.depth = 0)
     else es.any (fun e => c.eligible e && decide (e.lo ≤ t) && decide (t ≤ e.hi)))

/-- Take an edge (R441). -/
def KCtx.take (c : KCtx) (e : KEdge) : KCtx :=
  let c1 :=
    if e.act = 1 then { c with stack := withBits c.stack (8 * c.depth + 7) (8 * c.depth) e.sym, depth := c.depth + 1 }
    else if e.act = 2 then { c with depth := c.depth - 1 }
    else c
  { c1 with state := e.next }

/-- Advance by a token, the history aside (R441). -/
def State.kadvance (s : State) (g : Gram) (c : KCtx) (t bad : Nat) : TextM KCtx := do
  let (es, acc) ← s.kstate g c.state
  if c.allowed g es acc t = false then throw bad
  else
    let c1 := if g.eos.contains t then { c with fin := true }
      else match es.find? (fun e => c.eligible e && decide (e.lo ≤ t) && decide (t ≤ e.hi)) with
        | some e => c.take e
        | none => c
    pure { c1 with count := c.count + 1 }

/-- Replay `n` tokens of the history from index `i` (R443). -/
def State.kreplay (s : State) (g : Gram) : Nat → Nat → KCtx → TextM KCtx
  | 0, _, c => pure c
  | n + 1, i, c => do
    let t ← s.treadLe g.die g.part 8 8 4 (c.hist + 4 * i) 4
    let c1 ← s.kadvance g c t 5
    State.kreplay s g n (i + 1) c1

/-- The context belongs to the bound version of grammar `id`: of another grammar no version does (R443, log 84). -/
def KCtx.current (c : KCtx) (g : Gram) (id : Nat) : Bool := decide (c.version = g.f 0 4) && decide (c.gram = id)

/-- Tokens of the history that a replay advances through before it ends or fails (R451). -/
def State.kreplayed (s : State) (g : Gram) : Nat → Nat → KCtx → Nat
  | 0, _, _ => 0
  | n + 1, i, c =>
    match (s.kreplay g 1 i c []).1 with
    | .ok c1 => 1 + State.kreplayed s g n (i + 1) c1
    | .error _ => 0

/-- Where a rebuild starts: the bound version's start, depth 0, no token (R443). -/
def KCtx.restart (c : KCtx) (g : Gram) (id : Nat) : KCtx :=
  { c with state := g.f 16 4, depth := 0, count := 0, version := g.f 0 4, gram := id }

/-- Rebuild a context under the bound version (R443). -/
def State.krebuild (s : State) (g : Gram) (id : Nat) (c : KCtx) : TextM KCtx :=
  if c.current g id then pure c
  else s.kreplay g c.count 0 (c.restart g id)

/-- Mask bytes from token `8 * i` (R442). -/
def maskBytes (ok : Nat → Bool) : Nat → Nat → List Byte
  | 0, _ => []
  | n + 1, i =>
    BitVec.ofNat 8 ((List.range 8).map (fun j => b2n (ok (8 * i + j)) * 2 ^ j)).sum :: maskBytes ok n (i + 1)

/-- The mask of a context. -/
def State.kmask (s : State) (g : Gram) (c : KCtx) : TextM (List Byte) := do
  let (es, acc) ← s.kstate g c.state
  pure (maskBytes (fun t => c.allowed g es acc t) (ceilDiv g.nTok 64 * 8) 0)

/-- A Keywork descriptor (R444). -/
structure KDesc where
  v : Nat
  deriving DecidableEq, Repr

/-- A field. -/
def KDesc.f (d : KDesc) (off n : Nat) : Nat := dfld d.v off n

/-- The descriptor keeps R444. -/
def KDesc.ok (d : KDesc) : Bool :=
  decide (d.f 0 1 ≤ 2) && decide (d.f 1 1 ≤ 1) && decide (d.f 2 2 = 0) && decide (d.f 8 2 < 4096) && decide (d.f 10 2 = 0) &&
  (decide (d.f 0 1 = 1) || decide (d.f 12 4 = 0)) && (decide (d.f 0 1 ≠ 0) || decide (d.f 16 8 = 0)) && decide (d.f 28 4 = 0)

/-- The result of a descriptor: the new context, what to write to the history, the mask, and the replays made. -/
structure KOut where
  ctx : KCtx
  hist : Option (Nat × Nat) := none
  mask : List Byte := []
  replayed : Option Nat := none
  deriving DecidableEq, Repr

/-- What a descriptor of op `op` computes (R441 to R444). -/
def State.kcompute (s : State) (g : Gram) (d : KDesc) (c : KCtx) : TextM KOut := do
  if d.f 0 1 = 0 then
    pure { ctx := { c.restart g (d.f 8 2) with fin := false, dead := false } }
  else if c.fin then throw 1
  else
    let c1 ← s.krebuild g (d.f 8 2) c
    let rep := if c.current g (d.f 8 2) then none else some c.count
    if d.f 0 1 = 2 then
      let m ← s.kmask g c1
      pure { ctx := c1, mask := m, replayed := rep }
    else
      let c2 ← s.kadvance g c1 (d.f 12 4) 3
      let m ← s.kmask g c2
      pure { ctx := c2, hist := some (c.hist + 4 * c1.count, d.f 12 4), mask := m, replayed := rep }

/-- No bit of the mask is set (R442). -/
def KOut.isDead (o : KOut) : Bool := decide (o.mask ≠ []) && o.mask.all (fun b => decide (b = 0))

/-- Write history, mask and context. -/
def State.kwrite (s : State) (die part : Nat) (d : KDesc) (old : List Byte) (o : KOut) : Except Nat State := do
  let s1 ← (match o.hist with
    | some (a, t) => s.uwrite die part 8 8 4 a (leBytes 4 t)
    | none => .ok s)
  let s2 ← (if o.mask = [] then .ok s1 else s1.uwrite die part 8 8 64 (d.f 16 8) o.mask)
  s2.uwrite die part 8 8 64 (bellowsAddr die (d.f 24 4)) ({ o.ctx with dead := o.ctx.dead || o.isDead }.bytes old)

/-- Counters of a descriptor (R451). -/
def State.kcount (s : State) (die : Nat) (o : KOut) : State :=
  (((s.cntBy .keyw die 0x030 (b2n (decide (o.mask ≠ [])))).cntBy .keyw die 0x038 (b2n o.hist.isSome + o.replayed.getD 0)).cntBy .keyw die
    0x040 (b2n o.replayed.isSome)).cntBy .keyw die 0x048 (b2n o.isDead)

/-- The grammar a step bound, and the vocabulary of its ids (R440, R443). -/
def State.gramOf (s : State) (die part uid id : Nat) : Option Gram :=
  match s.boundVer 3 die id uid with
  | none => none
  | some vs =>
    match s.boundVer 2 die (dfld vs.desc 6 1) uid with
    | none => none
    | some w => some ⟨die, part, vs.desc, dfld w.desc 8 4⟩

/-- Serve a descriptor whose request stands: the state after it, and whether the context is dead. -/
def State.kRun (s : State) (die part uid : Nat) (d : KDesc) : TextM (State × Bool) := do
  if d.ok = false then throw 1
  else
    match s.gramOf die part uid (d.f 8 2) with
    | none => throw 2
    | some g =>
      let old ← s.tread die part 8 8 64 (bellowsAddr die (d.f 24 4)) 128
      let o ← s.kcompute g d (kctxOf (leOf old))
      let s1 ← tstep (s.kwrite die part d old o)
      pure (s1.kcount die o, o.isDead)

/-- The tokens that a descriptor which fails has replayed, and the rebuilds it has made (R451, log 47). -/
def State.kspent (s : State) (die part uid : Nat) (d : KDesc) : Nat × Nat :=
  match s.gramOf die part uid (d.f 8 2), (s.tread die part 8 8 64 (bellowsAddr die (d.f 24 4)) 128 []).1 with
  | some g, .ok old =>
    let c := kctxOf (leOf old)
    if d.ok = false ∨ d.f 0 1 = 0 ∨ c.fin = true ∨ c.current g (d.f 8 2) = true then (0, 0)
    else
      let n := s.kreplayed g c.count 0 (c.restart g (d.f 8 2))
      (n, b2n (decide (n = c.count)))
  | _, _ => (0, 0)

/-- Serve one Keywork descriptor. -/
def State.keywDo (s : State) (die : Nat) (r : URun) (d : KDesc) : State :=
  let req := d.f 4 4
  match s.textReq die req with
  | none => s.textFail .keyw die r.part r.uid req 8 1
  | some _ =>
    match s.noted die r.part (fun t => t.kRun die r.part r.uid d) with
    | (.ok (s1, false), _) => s1
    | (.ok (s1, true), _) => (s1.raise (Blk.keyw.at die die 0) 3).textFail .keyw die r.part r.uid req 8 4
    | (.error c, t) =>
      let w := t.kspent die r.part r.uid d
      (((t.cntBy .keyw die 0x038 w.1).cntBy .keyw die 0x040 w.2).cntBy .keyw die 0x050 (b2n (decide (c = 3)))).textFail .keyw die
        r.part r.uid req 8 c

/-- Serve the next descriptor of the Keywork's list where it is of op `op`; a reserved op fails here. -/
def State.keywServe (s : State) (die op : Nat) : State :=
  s.textServe .keyw die 2 8 32 8 (fun v => decide (dfld v 0 1 = op) || decide (2 < dfld v 0 1))
    (fun t r v => t.keywDo die r ⟨v⟩)

/-- KEYW_INIT (R444). -/
def execKeywInit (die : Nat) (s : State) : Res := .next (if isBellows die then s.keywServe die 0 else s)
/-- KEYW_ADVANCE_MASK (R441, R442). -/
def execKeywAdvanceMask (die : Nat) (s : State) : Res := .next (if isBellows die then s.keywServe die 1 else s)
/-- KEYW_MASK (R442). -/
def execKeywMask (die : Nat) (s : State) : Res := .next (if isBellows die then s.keywServe die 2 else s)

/-- KEYW_VER_PUBLISH (R405, R407, R452). -/
def execKeywVerPublish (who : Requester) (die : Nat) (value : Word) (s : State) : Res :=
  let id := fieldW value 27 16
  .next (s.gate who (Blk.keyw.at die die 0x108) (fun s =>
    (if isBellows die then
      ((s.writeAt who .keyw die die 0x108 value).noteVer 3 die 64).publish 3 die id (fieldW value 15 0)
        ((s.readVerDesc 3 die 64).bind (fun x => if gramDescOk id x then some x else none))
    else s)))

/-- KEYW_RETIRE_POP (R451). -/
def execKeywRetirePop (die : Nat) (s : State) : Res := .next (if isBellows die then s.retirePop 3 die else s)

end Sys2Proof.Machine
end

