-- ==== Sys2Proof/Machine/Start.lean ====
section
/-! DEFINITION. Starting the work of a step: reed programs (R111 to R113, R199, R274), unit lists and their version bindings
(R44, R47), and the links of a chain step (R624 to R628). -/
namespace Sys2Proof.Machine

/-! ### Reed programs -/

/-- The registers of a reed at dispatch (R112, R113, R117); its SRAM, stationary registers and engines stay. -/
def Reed.fresh (r : Reed) (uid part role : Nat) : Reed :=
  { run := .running, step := uid, part := some part, role := BitVec.ofNat 64 role, stat := r.stat, w := { r.w with blk := none }, a := r.a }

/-- A reed reads `n` bytes of its step's program: what the read meets is counted, and the bytes count as the step's DRAM traffic
(R112, R212, R213). -/
def State.progRead (s : State) (x : ReedRef) (part a n : Nat) : State :=
  let s1 := s.noteDev (.reed x) (some part) false a n
  { s1 with steps := s1.steps.map (fun (e : Step) => if e.uid = (s.reed x).step then { e with progBytes := e.progBytes + n } else e) }

/-- Copy a program and start it, or take the exception of a header that breaks R111 or of a read that fails (R112). -/
def State.loadProgram (s0 : State) (x : ReedRef) (part work : Nat) : State :=
  let s := s0.progRead x part work 32
  match s.readDev (.reed x) (some part) work 32 with
  | .error .refused => s.reedExc x 0x05 0 0
  | .error .uncorrectable => s.reedExc x 0x07 0 0
  | .ok h =>
    let count := fieldOf h 0 4
    let entry := fieldOf h 4 4
    if count = 0 ∨ 8192 < count ∨ count ≤ entry ∨ fieldOf h 24 8 ≠ 0 then s.reedExc x 0x05 0 0
    else
      let t := s.progRead x part (work + 32) (8 * count)
      match t.readDev (.reed x) (some part) (work + 32) (8 * count) with
      | .error .refused => t.reedExc x 0x05 0 0
      | .error .uncorrectable => t.reedExc x 0x07 0 0
      | .ok bs =>
        let r := t.reed x
        t.setReed x { (r.sset 1 (BitVec.ofNat 64 (fieldOf h 8 8))).sset 2 (BitVec.ofNat 64 (fieldOf h 16 8)) with
          pc := 8 * entry, ibuf := (List.range count).map (fun i => BitVec.ofNat 64 (fieldOf bs (8 * i) 8)) }

/-- Dispatch a step to the reed of a logical position: `idx` is its consort's place among the step's consorts (R117). -/
def State.startReed (s : State) (uid part work idx pos : Nat) (x : ReedRef) : State :=
  let s1 := if (s.reed x).part = some part then s else s.clearLocal x
  let s2 := (s1.setReed x ((s1.reed x).fresh uid part (pos + 256 * idx))).ringInit x.die x.k pos
  s2.loadProgram x part work

/-- Start a program on every reed that holds a position in the consorts of a mask (R105, R111). -/
def State.startReeds (s : State) (e : Step) (mask work : Nat) : State :=
  e.desc.consorts.zipIdx.foldl (fun (t : State) q =>
    if mask.testBit q.1 then
      (List.range 16).foldl (fun (u : State) pos =>
        match u.reedAt e.desc.die q.1 pos with
        | some x => u.startReed e.uid e.desc.part work q.2 pos x
        | none => u) t
    else t) s

/-! ### Unit lists -/

/-- Bind the versions that the descriptors of a unit's list name, as they are current (R44, R329, R362). The packer binds
the current version of every vocabulary (R638). -/
def State.bindList (s : State) (die slot part uid list : Nat) : State :=
  let n := 65536
  let each (lb : Nat) (f : State → Nat → State) : State := (s.listDescs die part list lb n 0).foldl f s
  let small (lb : Nat) (f : State → Nat → State) : State := (s.listDescs32 die part list lb n 0).foldl f s
  if die < 4 then
    (if slot = 8 then each 12 (fun t v => t.bindVer 0 die (dfld v 2 2 % 1024) uid 0)
     else if slot = 9 then
       each 11 (fun t v => t.bindVer 1 die (dfld v 2 1) uid ((t.panp die).index (dfld v 2 1)).mark)
     else s)
  else if slot = 0 then each 34 (fun t v => t.bindVer 2 die (dfld v 6 1 % 16) uid 0)
  else if slot = 1 then small 43 (fun t v => t.bindVer 2 die (dfld v 7 1 % 16) uid 0)
  else if slot = 2 then small 8 (fun t v => t.bindVer 3 die (dfld v 8 2) uid 0)
  else (List.range 16).foldl (fun t i => t.bindVer 2 die i uid 0) s

/-- Start a unit's list: its progress counts from 0. -/
def State.startUnit (s : State) (e : Step) (work slot : Nat) : State :=
  let d := e.desc.die
  let s1 := s.setRun d slot (some { uid := e.uid, part := e.desc.part, list := work })
  if d < 4 ∧ slot = 8 then s1.setSerp d { s1.serp d with job := none }
  else if d < 4 ∧ slot = 9 then s1.setPanp d { s1.panp d with tiles := [], need := none }
  else if d < 4 ∧ slot = 10 then s1.setReg (Blk.picc.at d d 0x104) 0
  else s1

/-- Start the unit lists of the slots of a mask. -/
def State.startUnits (s : State) (e : Step) (mask work : Nat) : State :=
  (e.desc.units.filter (fun k => mask.testBit k)).foldl (fun t k => t.startUnit e work k) s

/-! ### Links (R624 to R628) -/

/-- Bytes of a chain header at a work address, where it begins with the chain mark (R624). -/
def State.chainHead (s : State) (d : StepDesc) : Option (List Byte) :=
  if bit d.flags 0 then none
  else match s.readDev (unitAgent d.die) (some d.part) d.work 144 with
    | .error _ => none
    | .ok h => if fieldOf h 0 4 = 0xC4A100F7 then some h else none

/-- A chain header follows R624. -/
def chainOk (mask : Nat) (h : List Byte) : Bool :=
  let n := fieldOf h 4 1
  decide (1 ≤ n ∧ n ≤ 8) && decide (fieldOf h 5 11 = 0) &&
  (List.range n).all (fun j =>
    let m := fieldOf h (16 + 16 * j) 2
    decide (m &&& mask = m) && decide (fieldOf h (18 + 16 * j) 1 < 4) && decide (fieldOf h (19 + 16 * j) 5 = 0))

/-- The links of a chain header. -/
def linksOf (h : List Byte) : List Link :=
  (List.range (fieldOf h 4 1)).map (fun j =>
    let kind := fieldOf h (18 + 16 * j) 1
    { mask := fieldOf h (16 + 16 * j) 2, prog := bit kind 0, bcast := bit kind 1, work := fieldOf h (24 + 16 * j) 8 })

/-- The links of a step: those of its chain, or one made of its whole descriptor. -/
def Step.links (e : Step) : List Link :=
  if e.chain = [] then [{ mask := e.desc.mask, prog := bit e.desc.flags 0, bcast := false, work := e.desc.work }] else e.chain

/-- Start one link: programs or a resume list on its consorts, lists on its units (R603, R604, R624). -/
def State.startLink (s : State) (e : Step) (l : Link) : State :=
  if l.prog then s.startReeds e l.mask l.work
  else
    let f : Step := { e with desc := { e.desc with mask := l.mask, work := l.work } }
    let s1 := if f.desc.consorts = [] then s else (s.restore f).2
    s1.startUnits e l.mask l.work

/-- Note the versions that a step has bound in the logs of the compared runs that it serves (R485). -/
def State.reproBind (s : State) (uid : Nat) : State :=
  let bs := allDirs.flatMap (fun d => (s.dir d.1 d.2).slots.filterMap (fun w =>
    if w.bound.any (fun b => decide (b.1 = uid)) then some (d.1, w.id, w.version, w.markOf uid) else none))
  (s.stepReqs uid).foldl (fun (t : State) q => t.reproLog (reqId q.1 (t.req q.1)) (fun g =>
    { g with binds := g.binds ++ bs.map (fun b => (g.toks.length, b)) })) s

/-- Dispatch a step (R43, R44, R46): it binds its versions and starts its first link. A unit step that goes on where a
pre-empted one stopped counts as that one (R604). -/
def State.startStep (s : State) (e0 : Step) : State :=
  let chain := match s.chainHead e0.desc with
    | some h => linksOf h
    | none => []
  let l0 := chain.headD { mask := e0.desc.mask, prog := bit e0.desc.flags 0, bcast := false, work := e0.desc.work }
  let res := if l0.prog = true ∨ (e0.desc.die < 4 ∧ l0.mask % 256 ≠ 0) then e0.resumes else s.unitResumes e0.desc l0.mask l0.work
  let e : Step := { e0 with chain := chain, link := 0, resumes := res, resume := e0.resume || res.isSome }
  let s1 := s.modStep e.uid (fun _ => e)
  let s2 := e.links.foldl (fun (t : State) l =>
    if l.prog then t
    else (e.desc.units.filter (fun k => l.mask.testBit k)).foldl (fun u k => u.bindList e.desc.die k e.desc.part e.uid l.work) t) s1
  let s3 := s2.reproBind e.uid
  match e.links with
  | l :: _ => s3.startLink e l
  | [] => s3

/-- The link of a step that is in progress has ended (R625). -/
def State.linkDone (s : State) (e : Step) : Bool := s.stepDone e

/-- Go to the next link of a step: the reeds of the link that ended are free (R625). -/
def State.nextLink (s : State) (e : Step) : State :=
  let s1 := (s.freeReeds e.uid).modStep e.uid (fun f => { f with link := f.link + 1 })
  match e.chain[e.link + 1]? with
  | some l => s1.startLink { e with link := e.link + 1 } l
  | none => s1

/-- CHAIN_LINK_START (R625, R627, R628): the link in progress of the group of the step in a slot has ended on every die of
the group. Without a failure and without a pre-emption of the group, the next link starts. -/
def execChainLinkStart (die slot : Nat) (s : State) : Res :=
  .next (match s.stepIn die slot with
    | none => s
    | some e =>
      let g := s.groupOf e
      if g.all (fun f => decide (f.chain = [])) ∨ g.all (fun f => f.lastLink) ∨ g.any (fun f => f.stopping) ∨
          g.all (fun f => s.linkDone f) = false then s
      else if g.any (fun f => f.fault) then s.chainFail g
      else g.foldl (fun (t : State) f => t.nextLink f) s)

end Sys2Proof.Machine
end

