-- ==== Sys2Proof/Machine/Breath.lean ====
section
/-! DEFINITION. The breath: its generator (R34 to R42), the plans (R47 to R51), the actions of an edge in their order (R43)
and the dispatch of steps (R44 to R46, R61, R62). -/
namespace Sys2Proof.Machine

/-! ### Descriptors (R47, R50) -/

/-- The descriptor in 32 bytes. -/
def descOf (b : List Byte) : StepDesc :=
  let f (o n : Nat) : Nat := fieldOf b o n
  { stepId := f 0 4, group := f 4 2, die := f 6 1 % 8, flags := f 7 1, mask := f 8 2, model := f 10 2, phrase := f 12 2
    part := f 14 1 % 64, work := f 16 8, predNs := f 24 4, predDram := f 28 4
    rsvd := decide (8 ≤ f 6 1) || decide (4 ≤ f 7 1) || decide (64 ≤ f 14 1) || decide (f 15 1 ≠ 0) }

/-- Descriptor `i` of the buffer for breath `t` (R49), as the breath generator, a hardware unit of bellows-A, reads it; none
where it cannot be read (R197, R206). -/
def State.planDesc (s : State) (t i : Nat) : Option StepDesc :=
  let off := s.fld (brthA 0x120) 26 6 * 64 + t % 2 * 3072 + 32 * i
  if 2 ^ 27 < off + 32 then none else ((s.readDev (.bunit 4) none (bellowsSram 4 off) 32).toOption).map descOf

/-- What the reading of a plan buffer counts and records (R198, R212, R213). -/
def State.notePlan (s : State) (t count : Nat) : State :=
  (List.range count).foldl (fun (u : State) i =>
    u.noteDev (.bunit 4) none false (bellowsSram 4 (s.fld (brthA 0x120) 26 6 * 64 + t % 2 * 3072 + 32 * i)) 32) s

/-- A slot mask names slots of its die, and not none (R45, R50). -/
def StepDesc.slotsOk (d : StepDesc) : Bool :=
  decide (d.mask ≠ 0) && (if d.die < 4 then decide (d.mask < 2 ^ 11) else if d.die < 6 then decide (d.mask < 16) else false)

/-- The consorts, by 8 * chanter + consort, that are `WITHDRAWN` or lie on an offline chanter (R50). -/
def State.goneNow (s : State) : List Nat := (List.range 32).filter (fun n => s.withdrawn (n / 8) (n % 8) || !s.online (n / 8))

/-- A descriptor names a consort of a list that is `WITHDRAWN` or lies on an offline chanter (R50). -/
def State.namesGone (s : State) (among : List Nat) (d : StepDesc) : Bool :=
  d.consorts.any (fun k => among.contains (8 * d.die + k) && (s.withdrawn d.die k || !s.online d.die))

/-- A descriptor names a withdrawn consort, or lies on an offline chanter (R50, R62). -/
def State.descGone (s : State) (d : StepDesc) : Bool :=
  decide (d.die < 4) && (!s.online d.die || d.consorts.any (fun k => s.withdrawn d.die k))

/-- Descriptor `i` of a plan is bad for another reason (R50, R624). -/
def State.descBad (s : State) (i : Nat) : Option StepDesc → Bool
  | none => true
  | some d =>
    d.rsvd || !d.slotsOk || (decide (i = 0) && bit d.flags 1) ||
    (match s.chainHead d with
     | some h => !chainOk d.mask h
     | none => false)

/-- Index of the first bad descriptor of a plan, if any. A commit judges every consort; an edge counts only those that were gone
at the commit already, `among`, and leaves those gone since to their own steps (R50). -/
def State.firstBad (s : State) (t count : Nat) (among : List Nat) : Option Nat :=
  (List.range count).find? (fun i =>
    let d := s.planDesc t i
    s.descBad i d || (match d with
      | some x => s.namesGone among x
      | none => false))

/-! ### PLAN_COMMIT (R48 to R50) -/

/-- Report the outcome of a plan in BRTH_PLAN_STATUS: late and rejected plans raise `late_commit` (R73, R74). What `bad_index`
holds after a commit that is accepted, late or stale is not stated: the model writes 0 (DESIGN CHOICE, log entry 196). -/
def State.planResult (s : State) (result bad : Nat) : State :=
  let s1 := s.setReg (brthA 0x128) (BitVec.ofNat 32 (bad * 2 ^ 16 + result))
  if result = 1 ∨ result = 3 then s1.raise (brthA 0) 1 else s1

/-- Accept a plan for the dispatch edge `t`: it replaces an earlier plan of that edge wholly, and its objects are bound (R49,
R240). -/
def State.planAccept (s : State) (t count : Nat) (late : Bool) (plan : PlanCase) : State :=
  let ids := plan.uses.flatMap (fun u => u.objs)
  let s1 : State := { s with
    breath := { s.breath with plans := s.breath.plans.filter (fun p => decide (p.breath ≠ t)) ++
      [{ breath := t, count := count, late := late, uses := plan.uses, gone := s.goneNow, moved := s.movedParts plan }] }
    objs := s.objs.map (fun e => (e.1, if ids.contains e.1 then e.2.map (fun (o : Obj) => { o with lastBound := s.breath.number }) else e.2)) }
  s1.rsvShort

/-- The descriptors of a plan buffer that can be read, with their indices. -/
def State.planDescs (s : State) (t count : Nat) : List (Nat × StepDesc) :=
  (List.range count).filterMap (fun i => (s.planDesc t i).map (fun d => (i, d)))

/-- The planner commits this plan (R54 to R57, R65 to R67): a commit that the device would accept keeps the planner's contract,
judged for the breath in which its steps dispatch. -/
def State.plannerCommits (s : State) (lo count : Nat) (plan : PlanCase) : Bool :=
  let c := s.breath.number
  if 96 < count then true
  else if lo = (c + 1) % 2 ^ 16 then
    (s.firstBad (c + 1) count s.goneNow).isSome || s.planBound (c + 1) plan (s.planDescs (c + 1) count)
  else if lo = c % 2 ^ 16 then (s.firstBad c count s.goneNow).isSome || s.planBound (c + 2) plan (s.planDescs c count)
  else true

/-- A commit of `count` descriptors for the breath with low bits `lo` (R48 to R50). -/
def State.planCommit (s : State) (lo count : Nat) (plan : PlanCase) : State :=
  let c := s.breath.number
  if 96 < count then s.planResult 3 0xFF
  else if lo = (c + 1) % 2 ^ 16 then
    (match s.firstBad (c + 1) count s.goneNow with
     | some i => (s.notePlan (c + 1) (i + 1)).planResult 3 i
     | none => ((s.notePlan (c + 1) count).planAccept (c + 1) count false plan).planResult 0 0)
  else if lo = c % 2 ^ 16 then
    (match s.firstBad c count s.goneNow with
     | some i => (s.notePlan c (i + 1)).planResult 3 i
     | none => (((s.notePlan c count).planAccept (c + 2) count true plan).cntAdd .brth 4 4 0x038 1).planResult 1 0)
  else s.planResult 2 0

/-- PLAN_COMMIT: a write of BRTH_PLAN_COMMIT (R48, R72). `plan` is the planner's plan, for which the runtime has first brought
back the objects it needs from flash (R242, R243); one that breaks the planner's contract is
not committed, so the write is not made (R54). -/
def execPlanCommit (who : Requester) (die : Nat) (value : Word) (plan : PlanCase) (s : State) : Res :=
  .next (s.gate who (Blk.brth.at die die 0x124) (fun s =>
    let t := plan.staged.foldl (fun u p => u.stageObj p) s
    (if die ≠ 4 ∨ s.sec.pendingReset = true ∨ t.plannerCommits (fieldW value 15 0) (fieldW value 23 16) plan = false then s
    else (t.writeAt who .brth 4 4 0x124 value).planCommit (fieldW value 15 0) (fieldW value 23 16) plan)))

/-! ### Dispatch (R46, R50, R61, R62) -/

/-- A slot is busy (R45, R62, R150, R730): a step runs there, a reed of the consort holds an exception, or the consort is in
`RECOVERING` or `QUEUED`. -/
def State.slotBusy (s : State) (die k : Nat) : Bool :=
  (s.stepIn die k).isSome ||
  (decide (die < 4 ∧ k < 8) &&
    (decide (s.consState die k = 1 ∨ s.consState die k = 2) ||
     (List.range 17).any (fun r => decide ((s.reed ⟨die, k, r⟩).run = .stopped))))

/-- Slots that a descriptor occupies. -/
def StepDesc.slots (d : StepDesc) : List Nat := (List.range 16).filter (fun k => d.mask.testBit k)

/-- A held step waits for one of the slots. -/
def State.slotHeld (s : State) (d : StepDesc) : Bool :=
  s.steps.any (fun e => e.held && decide (e.desc.die = d.die) && decide (e.desc.mask &&& d.mask ≠ 0))

/-- A step that was pre-empted has completed: a resume step of it has retired clean (R595). -/
def State.resumed (s : State) (e : Step) : Bool :=
  e.completed || (match e.resumes with
    | some u => (match s.stepOf u with
      | some f => f.completed
      | none => true)
    | none => false)

/-- The step that a step depends on has retired, and has completed where it was pre-empted (R46, R595). -/
def State.depDone (s : State) (e : Step) : Bool :=
  match e.dep with
  | none => true
  | some u =>
    match s.stepOf u with
    | none => true
    | some f => f.retired && (!f.preempted || s.resumed f)

/-- All slots of a step are free. -/
def State.slotsFree (s : State) (d : StepDesc) : Bool := d.slots.all (fun k => !s.slotBusy d.die k)

/-- A dispatch takes the requests of a chanter step on (R493). -/
def State.dispatchReqs (s : State) (e : Step) : State :=
  if 4 ≤ e.desc.die then s
  else e.reqs.foldl (fun (t : State) q => t.modReq q.1 (fun r =>
    let r1 := if r.state = 1 then { r with state := 2 } else r
    if q.2 = true ∧ r1.state = 2 then { r1 with state := 3 } else r1)) s

/-- Mark a step as dispatched at this edge. -/
def State.dispatch (s : State) (uid : Nat) (deferred : Bool) : State :=
  let s1 := s.modStep uid (fun e => { e with
    breath := s.breath.number, held := false, deferred := deferred
    throttled := s.pwr.hot.contains e.desc.die || (decide (e.desc.die < 4) && s.pwr.hubHot) })
  match s1.stepOf uid with
  | some e => s1.dispatchReqs e
  | none => s1

/-- Retire a step unrun: with `fault`, or with `dropped` (R50, R62). What its record holds in `breath`, `finish_ns`, `dram_kib` and
`stall_us` is not stated, since it was never dispatched and never ran: the model writes the number of the edge that retires it,
and zeros (R58; DESIGN CHOICE, log entry 197). -/
def State.unrun (s : State) (uid : Nat) (dropped : Bool) : State :=
  let s1 := s.modStep uid (fun e => { e with breath := s.breath.number, held := false, fault := !dropped,
                                             reqs := if dropped then [] else e.reqs })
  match s1.stepOf uid with
  | none => s1
  | some e =>
    let s2 := if dropped then s1.cntAdd .brth e.desc.die e.desc.die 0x050 1 else s1
    s2.retire uid 0 0 0 dropped

/-- Action 6: the held steps, in the order in which they were held (R43, R62). The answer names the steps to start. -/
def State.heldEdge (s : State) : List Nat × State :=
  ((s.steps.filter (fun e => e.held)).map (fun e => e.uid)).foldl (fun (acc : List Nat × State) u =>
    let t := acc.2
    match t.stepOf u with
    | none => acc
    | some e =>
      if t.descGone e.desc then (acc.1, t.unrun u false)
      else if t.slotsFree e.desc && t.depDone e then (acc.1 ++ [u], t.dispatch u true)
      else acc) ([], s)

/-- Place descriptor `i` of a plan: `dep` is the step of the descriptor before it (R46, R50, R62). -/
def State.placeDesc (s : State) (p : Plan) (i : Nat) (d : StepDesc) (dep : Option Nat) : List Nat × State :=
  let uid := s.breath.nextUid
  let use := (p.uses.find? (fun u => decide (u.idx = i))).getD { idx := i }
  let e : Step := { uid := uid, desc := d, breath := s.breath.number, held := true, late := p.late
                    dep := if bit d.flags 1 then dep else none, objs := use.objs, reqs := use.reqs }
  let s1 := { s with steps := s.steps ++ [e], breath := { s.breath with nextUid := uid + 1 } }
  if s.descGone d then ([], s1.unrun uid false)
  else if s.slotHeld d then ([], s1.unrun uid true)
  else if s.slotsFree d && s.depDone e then ([uid], s1.dispatch uid false)
  else ([], s1)

/-- Place the descriptors of a plan, from index `i`. -/
def State.placeAll (s : State) (p : Plan) (dep : Option Nat) : Nat → List StepDesc → List Nat × State
  | _, [] => ([], s)
  | i, d :: ds =>
    let r := s.placeDesc p i d dep
    let q := State.placeAll r.2 p (some s.breath.nextUid) (i + 1) ds
    (r.1 ++ q.1, q.2)

/-- Action 7: the plan accepted for this breath, judged again (R43, R49 to R51). -/
def State.planEdge (s : State) : List Nat × State :=
  let n := s.breath.number
  let s1 := { s with breath := { s.breath with plans := s.breath.plans.filter (fun p => decide (n < p.breath)) } }
  match s.breath.plans.find? (fun p => decide (p.breath = n)) with
  | none => ([], s1)
  | some p =>
    match s.firstBad n p.count p.gone with
    | some i => ([], (s1.notePlan n (i + 1)).planResult 3 i)
    | none => (s1.notePlan n p.count).rsvShort.placeAll p none 0 ((List.range p.count).filterMap (fun i => s.planDesc n i))

/-- Mark the groups that were resumed in part at this edge: a step of the pre-empted group has no resume step in the new
group (R606). -/
def State.markPartial (s : State) (us : List Nat) : State :=
  let new := s.steps.filter (fun e => us.contains e.uid && e.resumes.isSome)
  let part (e : Step) : Bool :=
    match e.resumes.bind (fun u => s.stepOf u) with
    | none => false
    | some o =>
      decide (o.desc.group ≠ 0) &&
      s.steps.any (fun f => decide (f.desc.group = o.desc.group) && decide (f.breath = o.breath) && f.preempted && f.retired &&
        decide (f.resumes = none) && !f.completed &&
        !(new.any (fun g => decide (g.desc.group = e.desc.group) && decide (g.resumes = some f.uid))))
  { s with steps := s.steps.map (fun e => if new.contains e && part e then { e with partialGrp := true } else e) }

/-- Actions 6 and 7, and the start of what they dispatch; a fatal device dispatches nothing (R43, R745). -/
def State.dispatchEdge (s : State) : State :=
  if s.isFatal then s
  else
    let h := s.heldEdge
    let p := h.2.planEdge
    let us := h.1 ++ p.1
    let s1 := us.foldl (fun (t : State) u => match t.stepOf u with
      | some e => t.startStep e
      | none => t) p.2
    s1.markPartial us

/-! ### The edge (R43) -/

/-- Action 1: steps still running are overrun (R61). -/
def State.overrunEdge (s : State) : State :=
  let late := s.steps.filter (fun e => e.active)
  let s1 := { s with steps := s.steps.map (fun (e : Step) =>
    if e.active then { e with overrun := true, overBreaths := min (e.overBreaths + 1) 255 } else e) }
  (late.filter (fun e => decide (e.overBreaths = 0))).foldl (fun (t : State) e =>
    (t.cntAdd .brth e.desc.die e.desc.die 0x030 1).raise (Blk.brth.at e.desc.die e.desc.die 0) 0) s1

/-- Action 2: a due period takes effect, and the breath number goes up (R36, R38); the markers missed and the offsets of this
edge (R41, R42). -/
def State.numberEdge (s : State) (skews : List (Nat × Nat)) : State :=
  let b := s.breath
  let n := b.number + 1
  let period := match b.pendPeriod.find? (fun p => decide (p.1 = n)) with
    | some p => p.2
    | none => b.period
  let pend := b.pendPeriod.filter (fun p => decide (n < p.1))
  let s1 := { s with breath := { b with number := n, period := period, pendPeriod := pend, missed := b.missedNow, missedNow := [] } }
  let s2 := s1.setFld (brthA 0x104) 31 31 (b2n (decide (pend ≠ [])))
  let s3 := (List.range 8).foldl (fun (t : State) d =>
    (t.setReg (Blk.brth.at d d 0x100) (BitVec.ofNat 32 period)).raise (Blk.brth.at d d 0) 5) s2
  skews.foldl (fun (t : State) q =>
    if 8 ≤ q.1 then t
    else
      let a := Blk.brth.at q.1 q.1 0x148
      t.setReg a (BitVec.ofNat 32 (max (t.reg a).toNat (min q.2 65535)))) s3

/-- Action 3: pending publishes take effect (R43, R327), and with them what the Serpents and Panpipes change at an edge
(R331, R339, R366); their records of one breath's accesses begin anew (R318, R363). -/
def State.versionEdge (s : State) : State :=
  (List.range 4).foldl (fun (t : State) c =>
    let t1 := ((t.remap .serp c).remap .panp c).cregEdge c
    let t2 := t1.setSerp c { t1.serp c with seen := [] }
    t2.setPanp c { t2.panp c with seen := [] }) s.publishAll

/-- Action 5: the deadline monitor of both halves of the request table, and the session engines (R494, R500, R536, R546). -/
def State.requestEdge (s : State) (info : EdgeInfo) : State :=
  let n := s.breath.number
  let s0 := s.badRecords info.badReqs info.badQueues
  let moved := (s.breath.plans.filter (fun p => decide (p.breath = n))).flatMap (fun p => p.moved)
  let s1 := (s0.reqEdge 4 n moved info.tails).reqEdge 5 n moved info.tails
  let s2 := s1.fns.foldl (fun (t : State) e => t.setFn e.1 { t.fn e.1 with flrEdge := false }) s1
  ((s2.sesEdge 4 info.warm).sesEdge 5 info.warm).pfxSweep

/-- Steps that have retired are forgotten, but for pre-empted ones that have not completed and those a held step waits for. -/
def State.forgetSteps (s : State) : State :=
  { s with steps := s.steps.filter (fun e =>
      !e.retired || (e.preempted && !s.resumed e) || s.steps.any (fun f => f.held && decide (f.dep = some e.uid)) ||
      s.steps.any (fun f => !f.retired && decide (f.resumes = some e.uid))) }

/-- Replays of the breath that ends, of each link (R886). -/
def State.linkEdge (s : State) : State :=
  let m := List.map (fun (e : Nat × Nat × Nat × Nat) => (e.1, ((e.2.1, 0, e.2.2.1) : Nat × Nat × Nat))) s.linkReplay
  { s with linkReplay := m.filter (fun e => decide (e.2 ≠ (0, 0, 0))) }

/-- One breath edge (R43). -/
def State.edge (s : State) (info : EdgeInfo) : State :=
  let s0 : State := { s with edgeReplies := [] }
  let s1 := s0.overrunEdge.numberEdge info.skews
  let s2 := s1.recoverQuiesce.versionEdge.refill
  let s3 := (s2.requestEdge info).clockEdge info.avgW info.cool
  let s4 := s3.dispatchEdge
  ((s4.recoverWindows 18).topFault.modelsReady.linkEdge).forgetSteps

/-- BREATH_EDGE (R38, R39, R43): produced while `run` is set. -/
def execBreathEdge (info : EdgeInfo) (s : State) : Res := .next (if s.rbit (brthA 0x008) 0 then s.edge info else s)

/-- RECOVERY_POINT (R911): while `run` is clear. -/
def execRecoveryPoint (s : State) : Res := .next (if s.rbit (brthA 0x008) 0 then s else s.recoverPoint)

/-! ### The generator's registers -/

/-- A write of BRTH_CTRL: `run` is not set before `BOOT_DONE` (R38, R39, R773). -/
def State.brthCtrl (s : State) (who : Requester) (die : Nat) (value : Word) : State :=
  if die ≠ 4 then s
  else if value.getLsbD 0 = true ∧ s.rbit (brthA 0x008) 0 = false ∧ s.bootDone = false then
    (s.writeAt who .brth 4 4 0x008 (value &&& 0xFFFFFFFE)).refuseAt who .brth 4 4 0x008
  else s.writeAt who .brth 4 4 0x008 value

/-- RUN_SET: a write of BRTH_CTRL with `run` set (R38). -/
def execRunSet (who : Requester) (die : Nat) (value : Word) (s : State) : Res := .next (s.gate who (Blk.brth.at die die 0x008) (fun s =>
    (s.brthCtrl who die (value ||| 1))))

/-- RUN_CLEAR: a write of BRTH_CTRL with `run` clear (R39). -/
def execRunClear (who : Requester) (die : Nat) (value : Word) (s : State) : Res :=
  .next (s.gate who (Blk.brth.at die die 0x008) (fun s =>
    (s.brthCtrl who die (value &&& 0xFFFFFFFE))))

/-- BRTH_PERIOD_NEXT (R36, R37, R53). A period in range under which a registered model would no longer fit is refused by the
planner: the write is not made (R56). -/
def execBrthPeriodNext (who : Requester) (die : Nat) (value : Word) (s : State) : Res :=
  let p := fieldW value 11 0
  .next (s.gate who (Blk.brth.at die die 0x104) (fun s =>
    (if die ≠ 4 then s
    else if p < 100 ∨ 4000 < p ∨ p ≤ s.fld (brthA 0x108) 9 0 then (s.refuseWrite who .brth 4 4 0x104 value).raise (brthA 0) 4
    else if s.modelsFit p = false then s
    else
      let s1 := s.writeAt who .brth 4 4 0x104 value
      if s.frozen (brthA 0x104) then s1
      else
        let t := s.breath.number + 2
        let b := { s1.breath with pendPeriod := s1.breath.pendPeriod.filter (fun (q : Nat × Nat) => decide (q.1 ≠ t)) ++ [(t, p)] }
        let s2 : State := { s1 with breath := b }
        s2.setFld (brthA 0x104) 31 31 1)))

/-- BRTH_GUARD (R53). -/
def execBrthGuard (who : Requester) (die : Nat) (value : Word) (s : State) : Res :=
  let g := fieldW value 9 0
  .next (s.gate who (Blk.brth.at die die 0x108) (fun s =>
    (if die ≠ 4 then s
    else if g < 2 ∨ s.breath.period ≤ g ∨ s.breath.pendPeriod.any (fun q => decide (q.2 ≤ g)) = true then
      s.refuseWrite who .brth 4 4 0x108 value
    else s.writeAt who .brth 4 4 0x108 value)))

/-- BRTH_NUMBER_LO (R40): a read latches the high half. -/
def execBrthNumberLo (die : Nat) (s : State) : Res :=
  .next (if 8 ≤ die then s
    else { s with
      readData := s.breath.number % 2 ^ 32
      breath := { s.breath with hi := SMap.set (fun _ => 0) s.breath.hi die (BitVec.ofNat 32 (s.breath.number / 2 ^ 32)) } })

/-- BRTH_SKEW_MAX (R41): a read clears it. -/
def execBrthSkewMax (die : Nat) (s : State) : Res :=
  let a := Blk.brth.at die die 0x148
  .next (if 8 ≤ die then s else { s.setReg a 0 with readData := (s.reg a).toNat })

/-- The link that carries a die's markers, in the row order of R22. -/
def markerLink (die : Nat) : Nat := if die < 4 then 4 + die else 3 + die

/-- MARKER_MISS (R42): a die made the edge that has just begun from its own count. -/
def execMarkerMiss (die : Nat) (s : State) : Res :=
  .next (if 8 ≤ die ∨ die = 4 ∨ s.breath.missedNow.contains die = true then s
    else
      let s1 := (s.cntAdd .brth die die 0x048 1).raise (Blk.brth.at die die 0) 3
      let s2 := { s1 with breath := { s1.breath with missedNow := s1.breath.missedNow ++ [die] } }
      if s.breath.missed.contains die then s2.linkDown (markerLink die) 8 else s2)

/-- USE_COUNT_DECAY (R321): once in each breath whose number is a multiple of 4,096. -/
def execUseCountDecay (s : State) : Res :=
  let n := s.breath.number
  .next (if n = 0 ∨ n % 4096 ≠ 0 ∨ s.breath.decayed = n then s
    else (List.range 4).foldl (fun (t : State) c => t.decayCounts c) { s with breath := { s.breath with decayed := n } })

end Sys2Proof.Machine
end

