-- ==== Sys2Proof/Machine/Flash.lean ====
section
/-! DEFINITION. The drones: flash requests (R684 to R690), the buffer and its programs (R691 to R695, R707), the map cache
(R693), housekeeping (R696 to R701), targets (R680 to R682, R702), error correction (R704), power loss (R706 to R711). -/
namespace Sys2Proof.Machine

/-! ### Geometry and blocks -/

/-- LUNs of a drone in rotation order: channel first, then target, then LUN (R695). -/
def Drone.lunCount (x : Drone) : Nat := 192 * x.luns

/-- The target of a LUN, by 8 * channel + target. -/
def lunTarget (n : Nat) : Nat := 8 * (n % 24) + n / 24 % 8

/-- A target. -/
def Drone.target (x : Drone) (t : Nat) : Target := SMap.get (fun _ => {}) x.targets t

/-- Change a target. -/
def Drone.setTarget (x : Drone) (t : Nat) (f : Target → Target) : Drone :=
  { x with targets := SMap.set (fun _ => {}) x.targets t (f (x.target t)) }

/-- A LUN takes writes: its target is accepted and online (R681, R702). -/
def Drone.goodLun (x : Drone) (n : Nat) : Bool :=
  decide (n < x.lunCount) && (let t := x.target (lunTarget n); t.present && !t.offline && !t.disabled)

/-- A block, by 65536 * LUN + block number. -/
def Drone.block (x : Drone) (b : Nat) : NBlock := SMap.get (fun _ => {}) x.blocks b

/-- Change a block. -/
def Drone.modBlock (x : Drone) (b : Nat) (f : NBlock → NBlock) : Drone :=
  { x with blocks := SMap.set (fun _ => {}) x.blocks b (f (x.block b)) }

/-- Erase count of a block (R694, R713). -/
def Drone.ecOf (x : Drone) (b : Nat) : Nat := x.ecBase + (x.block b).ec

/-- A physical slot address (R691) on drone `d`. -/
def psaOf (d b plane page slot : Nat) : Nat :=
  let n := b / 65536
  (24 * (d - 6) + n % 24) * 2 ^ 38 + n / 24 % 8 * 2 ^ 35 + n / 192 * 2 ^ 33 + plane * 2 ^ 31 + b % 65536 * 2 ^ 15 + page * 2 ^ 3 + slot

/-- The block of a physical slot address. -/
def blockOf (psa : Nat) : Nat :=
  (psa / 2 ^ 33 % 4 * 192 + psa / 2 ^ 35 % 8 * 24 + psa / 2 ^ 38 % 24) * 65536 + psa / 2 ^ 15 % 65536

/-- Free blocks of a LUN. -/
def Drone.freeOn (x : Drone) (n : Nat) : Nat :=
  x.perPlane - x.blocks.countP (fun e => decide (e.1 / 65536 = n) && decide (e.2.st ≠ 0))

/-- A free block of a LUN, the one of highest or of lowest erase count, the lowest address among equals (R694). -/
def Drone.freeBlock (x : Drone) (high : Bool) (n : Nat) : Option Nat :=
  let listed := x.blocks.filter (fun e => decide (e.1 / 65536 = n) && decide (e.2.st = 0))
  let best := listed.foldl (fun (a : Option (Nat × NBlock)) e =>
    match a with
    | none => some e
    | some b => if (high && decide (b.2.ec < e.2.ec)) || (!high && decide (e.2.ec < b.2.ec)) then some e else a) none
  let plain := ((List.range x.perPlane).find? (fun i => !(x.blocks.any (fun e => decide (e.1 = 65536 * n + i))))).map
    (fun i => 65536 * n + i)
  match high, best, plain with
  | true, some b, _ => some b.1
  | false, _, some p => some p
  | true, none, p => p
  | false, b, none => b.map (fun e => e.1)

/-- The open block of a stream on a LUN. -/
def Drone.openBlock (x : Drone) (st n : Nat) : Option Nat :=
  (List.find? (fun (e : Nat × NBlock) => decide (e.1 / 65536 = n) && decide (e.2.st = 1) && decide (e.2.stream = st)) x.blocks).map (fun e => e.1)

/-- The block that takes the next page of a stream, on the next good LUN in rotation (R694, R695); none while there is no
LUN or no free block. -/
def Drone.nextBlock (x : Drone) (st : Nat) : Option Nat :=
  let n0 := SMap.get (fun _ => 0) x.rot st
  match ((List.range x.lunCount).map (fun i => (n0 + i) % x.lunCount)).find? (fun n => x.goodLun n) with
  | none => none
  | some n =>
    match x.openBlock st n with
    | some b => some b
    | none => x.freeBlock (decide (st = 1 ∨ st = 2 ∨ st = 3)) n

/-- Slots that hold a valid unit in a block: (object, drone unit). -/
def Drone.validIn (x : Drone) (b : Nat) : List (Nat × Nat) :=
  x.objs.flatMap (fun e => match e.2 with
    | none => []
    | some o => (o.units.filter (fun f => match f.2 with
      | some g => !g.poison && decide (g.psa.map blockOf = some b)
      | none => false)).map (fun f => (e.1, f.1)))

/-- Fewest free blocks on any LUN, highest and lowest erase count of good blocks. -/
def Drone.minFree (x : Drone) : Nat :=
  match ((List.range x.lunCount).filter (fun n => x.goodLun n)).map (fun n => x.freeOn n) with
  | [] => 0
  | f :: fs => min (fs.foldl min f) 65535

/-- Highest and lowest erase count of the good blocks (R698, R712). -/
def Drone.ecRange (x : Drone) : Nat × Nat :=
  let good := (x.blocks.filter (fun e => decide (e.2.st ≠ 3))).map (fun e => e.2.ec)
  let hi := good.foldl max 0
  let all := decide (x.lunCount * x.perPlane ≤ x.blocks.length)
  (x.ecBase + hi, x.ecBase + (if all then good.foldl min hi else 0))

/-- Bring DRONE_STATUS, DRONE_EC and DRONE_SEQ up to date; a LUN that falls below `gc_crit` raises it (R700, R714). -/
def State.droneShow (s : State) (d : Nat) : State :=
  let x := s.drone d
  let a := droneA d 0x00C
  let old := s.fld a 15 0
  let crit := s.fld (droneA d 0x10C) 15 8
  let s1 := (s.setFld a 15 0 x.minFree).setFld a 31 31 (b2n (x.victim.isSome || decide (x.rewrite ≠ [])))
  let r := x.ecRange
  let s2 := s1.setReg (droneA d 0x130) (BitVec.ofNat 32 (min r.1 65535 * 2 ^ 16 + min r.2 65535))
  let s3 := (s2.setReg (droneA d 0x138) (BitVec.ofNat 32 x.seq)).setReg (droneA d 0x13C) (BitVec.ofNat 32 (x.seq / 2 ^ 32))
  if crit ≤ old ∧ x.minFree < crit then s3.raise (droneA d 0) 3 else s3

/-- Set the state of a drone (R714). -/
def State.setDroneState (s : State) (d v : Nat) : State := s.setFld (droneA d 0x00C) 19 16 v

/-- A 40-bit count of units in a register pair. -/
def State.setUnits (s : State) (d off n : Nat) : State :=
  (s.setReg (droneA d off) (BitVec.ofNat 32 n)).setReg (droneA d (off + 4)) (BitVec.ofNat 32 (n / 2 ^ 32 % 2 ^ 8))

/-- Units of a register pair. -/
def State.units (s : State) (d off : Nat) : Nat := (s.reg (droneA d off)).toNat + 2 ^ 32 * s.fld (droneA d (off + 4)) 7 0

/-- Enter `READ_ONLY` when the good blocks no longer hold the capacity and a free block per LUN for every stream (R703). -/
def State.readOnlyCheck (s : State) (d : Nat) : State :=
  let x := s.drone d
  let good := (List.range x.lunCount).countP (fun n => x.goodLun n) * x.perPlane -
    x.blocks.countP (fun e => x.goodLun (e.1 / 65536) && decide (e.2.st = 3))
  let per := x.planes * x.slots * x.pages
  let need := s.units d 0x120 + (List.range x.lunCount).countP (fun n => x.goodLun n) * 5 * per
  if s.droneState d = 3 ∧ good * per < need then (s.setDroneState d 4).raise (droneA d 0) 2 else s

/-! ### Completions (R686, R687, R689) -/

/-- Send a completion: tag, status, units never written. -/
def State.flashEnd (s : State) (tag status blank : Nat) : State := { s with flashDone := s.flashDone ++ [(tag, status, blank)] }

/-- The other drone. -/
def otherDrone (d : Nat) : Nat := 13 - d

/-- A share of a commit has completed: the request completes with it unless the other drone's share still runs. -/
def State.commitDone (s : State) (d id : Nat) (o : FObj) (tag st : Nat) : State :=
  let s1 := s.setFobj d id (some { o with committed := true, closing := none })
  match (s1.fobj (otherDrone d) id).bind (fun p => p.closing) with
  | some q => if q.1 = tag then s1 else s1.flashEnd tag st 0
  | none => s1.flashEnd tag st 0

/-- A share of a delete has completed. -/
def State.deleteDone (s : State) (d id : Nat) (o : FObj) (tag st : Nat) : State :=
  let s1 := (s.setFobj d id none).setUnits d 0x128 (s.units d 0x128 + unitsOn o.drones o.size d)
  match (s1.fobj (otherDrone d) id).bind (fun p => p.deleting) with
  | some q => if q.1 = tag then s1 else s1.flashEnd tag st 0
  | none => s1.flashEnd tag st 0

/-- Whether a buffer entry stands between an object and its commit, or its delete. -/
def BufE.blocksCommit (e : BufE) (id : Nat) : Bool :=
  match e.kind with
  | .unit o _ => decide (o = id)
  | .commit o => decide (o = id)
  | _ => false

/-- Complete the commits and deletes whose records, and whose units, are all programmed (R687). -/
def State.flashSettle (s : State) (d : Nat) : State :=
  (s.drone d).objs.foldl (fun (t : State) e =>
    match e.2 with
    | none => t
    | some o =>
      let buf := (t.drone d).buf
      let t1 := match o.closing with
        | some q => if buf.any (fun b => b.blocksCommit e.1) then t else t.commitDone d e.1 o q.1 q.2
        | none => t
      match o.deleting with
      | some q => if buf.any (fun b => decide (b.kind = .delete e.1)) then t1 else t1.deleteDone d e.1 o q.1 q.2
      | none => t1) s

/-! ### Programs (R694, R695, R697, R701) -/

/-- The stream that relocations of a stream's blocks are written through (R694). -/
def relocStream (st : Nat) : Nat := if st = 0 then 1 else st

/-- Add relocations of every valid slot of a block to the buffer (R696 to R699, R701). -/
def Drone.moveBlock (x : Drone) (b why : Nat) : Drone :=
  let st := relocStream (x.block b).stream
  { x with buf := x.buf ++ ((x.validIn b).filter (fun q => !(x.buf.any (fun e =>
      match e.kind with
      | .move o u _ => decide (o = q.1 ∧ u = q.2)
      | .journal o u _ _ => decide (o = q.1 ∧ u = q.2)
      | _ => false)))).map (fun q => { stream := st, kind := .move q.1 q.2 why }) }

/-- A block has become grown-bad (R701): its other slots are relocated. -/
def State.grownBad (s : State) (d b : Nat) : State :=
  let s1 := s.modDrone d (fun x =>
    let x1 := (x.modBlock b (fun n => { n with st := 3 })).setTarget (lunTarget (b / 65536)) (fun t => { t with grownBad := t.grownBad + 1 })
    let x2 := x1.moveBlock b 4
    if x2.rewrite.contains (b, 4) then x2 else { x2 with rewrite := x2.rewrite ++ [(b, 4)] })
  (s1.raise (droneA d 0) 7).readOnlyCheck d

/-- Blocks being emptied that hold no valid slot any more: they are to be erased, and rewrites count (R696, R698, R699). -/
def State.emptied (s : State) (d : Nat) : State :=
  let x := s.drone d
  let free (b : Nat) : Bool := decide (x.validIn b = [])
  let gone := (x.rewrite ++ (match x.victim with | some v => [v] | none => [])).filter (fun v => free v.1)
  let s1 := s.setDrone d (gone.foldl (fun (y : Drone) v =>
    { (if v.2 = 4 then y else y.modBlock v.1 (fun n => { n with st := 4 })) with
      rewrite := y.rewrite.filter (fun w => decide (w ≠ v)), victim := if y.victim = some v then none else y.victim }) x)
  (gone.filter (fun v => decide (v.2 = 3))).foldl (fun (t : State) _ => t.cntAdd .drone d d 0x050 1) s1

/-- One buffer entry is in the flash at `psa` with sequence number `q`. -/
def Drone.programmed (x : Drone) (e : BufE) (psa q : Nat) : Drone :=
  match e.kind with
  | .unit id u =>
    (match SMap.get (fun _ => none) x.objs id with
     | none => x
     | some o =>
       { x with
         objs := SMap.set (fun _ => none) x.objs id (some { o with
           units := SMap.set (fun _ => none) o.units u (some { psa := some psa, seq := q }) })
         frames := x.frames.map (fun (f : Frame) => if f.obj = some id ∧ f.level = 1 ∧ f.idx = u / 512 then { f with dirty := true } else f) })
  | .move id u why => { x with buf := x.buf ++ [{ stream := 4, kind := .journal id u psa why }] }
  | _ => x

/-- An entry that a data program carries: journal records of relocations are programmed by RELOCATE_COMMIT. -/
def BufE.waits (e : BufE) (st : Nat) : Bool :=
  decide (e.stream = st) && (match e.kind with | .journal _ _ _ _ => false | _ => true)

/-- The entries of the next multi-plane page of a stream, and the rest of the buffer. -/
def splitBuf (st : Nat) : Nat → List BufE → List BufE × List BufE
  | 0, es => ([], es)
  | _, [] => ([], [])
  | n + 1, e :: es =>
    if e.waits st then (let r := splitBuf st n es; (e :: r.1, r.2)) else (let r := splitBuf st (n + 1) es; (r.1, e :: r.2))

/-- Program the next multi-plane page of a stream (R691, R695): its oldest entries, padded. -/
def State.programPage (s : State) (d st : Nat) : State :=
  let x := s.drone d
  let k := x.planes * x.slots
  let (es, rest) := splitBuf st k x.buf
  match x.nextBlock st with
  | none => s
  | some b =>
    if es = [] ∨ k = 0 then s
    else
      let n := x.block b
      let x1 := { x.modBlock b (fun m => { m with st := if m.used + 1 < x.pages then 1 else 2, stream := st, used := m.used + 1 }) with
        buf := rest, rot := SMap.set (fun _ => 0) x.rot st ((b / 65536 + 1) % x.lunCount), seq := x.seq + k
        jrnl := x.jrnl + (if st = 4 then k else 1) }
      let x2 := es.zipIdx.foldl (fun (y : Drone) q => y.programmed q.1 (psaOf d b (q.2 / x.slots) n.used (q.2 % x.slots)) (x.seq + q.2)) x1
      (s.setDrone d x2).flashSettle d

/-- NAND_PROGRAM_DONE (R687, R701): the program in hand of a stream ends. A failure marks its block, and the data stays in the
buffer. -/
def execNandProgramDone (die st : Nat) (ok : Bool) (s : State) : Res :=
  .next (if isDrone die = false ∨ 5 ≤ st then s
    else if ok then (s.programPage die st).droneShow die
    else match (s.drone die).nextBlock st with
      | none => s
      | some b =>
        if (splitBuf st 1 (s.drone die).buf).1 = [] then s
        else ((s.cntAdd .drone die die 0x070 1).grownBad die b).droneShow die)

/-- Switch a relocated unit to its new slot (R697). -/
def State.switchSlot (s : State) (d id u psa why : Nat) : State :=
  let s1 := s.modDrone d (fun x => { x with seq := x.seq + 1, jrnl := x.jrnl + 1 })
  match s1.fobj d id with
  | none => s1
  | some o =>
    match SMap.get (fun _ => none) o.units u with
    | none => s1
    | some f =>
      let s2 := s1.setFobj d id (some { o with units := SMap.set (fun _ => none) o.units u (some { f with psa := some psa, seq := (s.drone d).seq }) })
      if why = 1 then s2.cntAdd .drone d d 0x040 1 else if why = 2 then s2.cntAdd .drone d d 0x048 1 else s2

/-- RELOCATE_COMMIT (R697): the journal record of the oldest relocation is programmed. -/
def State.relocateCommit (s : State) (d : Nat) : State :=
  match (s.drone d).buf.find? (fun e => match e.kind with | .journal _ _ _ _ => true | _ => false) with
  | none => s
  | some e =>
    let s1 := s.modDrone d (fun x => { x with buf := x.buf.erase e })
    match e.kind with
    | .journal id u psa why => ((s1.switchSlot d id u psa why).emptied d).droneShow d
    | _ => s1

/-- RELOCATE_COMMIT (R697). -/
def execRelocateCommit (die : Nat) (s : State) : Res := .next (if isDrone die then s.relocateCommit die else s)

/-- NAND_ERASE_DONE (R701): a block that was to be erased. -/
def execNandEraseDone (die b : Nat) (ok : Bool) (s : State) : Res :=
  .next (if isDrone die = false ∨ ((s.drone die).block b).st ≠ 4 then s
    else if ok then
      (s.modDrone die (fun x => x.modBlock b (fun n => { ec := n.ec + 1 }))).droneShow die
    else ((s.cntAdd .drone die die 0x078 1).grownBad die b).droneShow die)

/-! ### Reads and error correction (R699, R704, R705) -/

/-- NAND_READ_DONE (R704): the read of a unit's codeword took `steps` decode steps beyond the first, or corrected `bits` bits
in the first, or ended uncorrectable. -/
def execNandReadDone (die id u steps bits : Nat) (uncorrectable : Bool) (s : State) : Res :=
  .next (if isDrone die = false then s
    else match s.fobj die id with
      | none => s
      | some o =>
        match SMap.get (fun _ => none) o.units u with
        | none => s
        | some f =>
          match f.psa with
          | none => s
          | some psa =>
            let b := blockOf psa
            let s1 := s.cntAdd .drone die die 0x058 steps
            let rewriting := (s1.drone die).rewrite.any (fun v => decide (v.1 = b))
            let s2 := if uncorrectable then
                (((s1.cntAdd .drone die die 0x060 1).raise (droneA die 0) 0).setFobj die id (some { o with
                  units := SMap.set (fun _ => none) o.units u (some { f with bad := true, poison := f.poison || rewriting }) })).modDrone die
                  (fun x => { x with buf := if rewriting then x.buf.filter (fun e => match e.kind with
                    | .move p v _ => decide (p ≠ id ∨ v ≠ u)
                    | _ => true) else x.buf })
              else s1
            if steps = 0 ∧ bits < s.fld (droneA die 0x108) 15 0 ∧ uncorrectable = false then s2
            else
              let s3 := s2.modDrone die (fun x => x.modBlock b (fun n => { n with errs := n.errs + 1 }))
              let x := s3.drone die
              let s4 := if (x.block b).errs = s.fld (droneA die 0x108) 23 16 then
                  s3.setDrone die { x.moveBlock b 3 with rewrite := x.rewrite ++ [(b, 3)] } else s3
              (s4.emptied die).droneShow die)

/-! ### The map cache (R692, R693) -/

/-- The frame that gives way: a level-1 page, the least recently used; another page only where there is none (R693). -/
def frameVictim (fs : List Frame) : Option Frame :=
  match (fs.filter (fun f => decide (f.obj.isSome ∧ f.level = 1))).getLast? with
  | some f => some f
  | none => fs.getLast?

/-- MAP_PAGE_READ (R693): a map page of an object (level from 1), or a bucket page, comes into the cache, the most recently
used now. -/
def execMapPageRead (die : Nat) (obj : Option Nat) (level idx : Nat) (s : State) : Res :=
  .next (if isDrone die = false then s
    else
      let x := s.drone die
      let same (f : Frame) : Bool := decide (f.obj = obj ∧ f.level = level ∧ f.idx = idx)
      match x.frames.find? same with
      | some f => s.setDrone die { x with frames := f :: x.frames.filter (fun g => !same g) }
      | none =>
        let s1 := s.cntAdd .drone die die 0x068 1
        let used := x.frames.map (fun f => f.slot)
        let full := decide (262144 ≤ x.frames.length)
        let out := if full then frameVictim x.frames else none
        let slot := match out with
          | some f => f.slot
          | none => if used = [] then 0 else ((List.range (used.length + 1)).find? (fun n => !used.contains n)).getD 0
        let kept := match out with
          | some f => x.frames.erase f
          | none => x.frames
        let wb := match out with
          | some f => if f.dirty then [{ stream := 4, kind := BufKind.page f.obj f.level f.idx : BufE }] else []
          | none => []
        s1.setDrone die { x with frames := { obj := obj, level := level, idx := idx, slot := slot } :: kept, buf := x.buf ++ wb })

/-! ### Housekeeping (R696, R698, R711) -/

/-- No block is being emptied, and the drone is mounted. -/
def State.hkIdle (s : State) (d : Nat) : Bool :=
  (s.drone d).victim.isNone && decide ((s.drone d).rewrite = []) && decide (s.droneState d = 3 ∨ s.droneState d = 4)

/-- Start to empty a block. -/
def State.emptyBlock (s : State) (d b why : Nat) : State :=
  ((s.modDrone d (fun x => { x.moveBlock b why with victim := some (b, why) })).emptied d).droneShow d

/-- The block of least key, in a list of blocks with their keys. -/
def leastBlock (bs : List (Nat × (Nat × Nat × Nat))) : Option Nat :=
  let lt (p q : Nat × Nat × Nat) : Bool :=
    decide (p.1 < q.1) || (decide (p.1 = q.1) && (decide (p.2.1 < q.2.1) || (decide (p.2.1 = q.2.1) && decide (p.2.2 < q.2.2))))
  (bs.foldl (fun (a : Option (Nat × (Nat × Nat × Nat))) e => match a with
    | none => some e
    | some b => if lt e.2 b.2 then some e else a) none).map (fun e => e.1)

/-- GC_START (R696): the LUN's free blocks are below `gc_low`: its closed block with the fewest valid slots is collected. -/
def execGcStart (die lun : Nat) (s : State) : Res :=
  let x := s.drone die
  let bs := (x.blocks.filter (fun e => decide (e.1 / 65536 = lun) && decide (e.2.st = 2) && decide (e.2.stream ≠ 4))).map
    (fun e => (e.1, ((x.validIn e.1).length, e.2.ec, psaOf die e.1 0 0 0)))
  .next (if isDrone die = false ∨ s.hkIdle die = false ∨ x.goodLun lun = false ∨ s.fld (droneA die 0x100) 15 0 ≤ x.freeOn lun then s
    else match leastBlock bs with
      | none => s
      | some b => s.emptyBlock die b 1)

/-- WEAR_LEVEL_START (R698): the block of lowest erase count that holds valid data is emptied, until the spread is at most
half the threshold. -/
def execWearLevelStart (die : Nat) (s : State) : Res :=
  let x := s.drone die
  let th := s.fld (droneA die 0x104) 15 0
  let r := x.ecRange
  let spread := r.1 - r.2
  let bs := (x.blocks.filter (fun e => decide (e.2.st ≠ 3) && decide (x.validIn e.1 ≠ []))).map
    (fun e => (e.1, (e.2.ec, psaOf die e.1 0 0 0, 0)))
  .next (if isDrone die = false ∨ s.hkIdle die = false then s
    else if spread ≤ th / 2 ∨ (spread ≤ th ∧ x.levelling = false) then s.setDrone die { x with levelling := false }
    else match leastBlock bs with
      | none => s
      | some b => (s.setDrone die { x with levelling := true }).emptyBlock die b 2)

/-- Write a checkpoint of `slots` slots (R711): the journal before it is freed. -/
def State.checkpoint (s : State) (d slots : Nat) : State :=
  (s.modDrone d (fun x => { x with
    seq := x.seq + slots, ckptSeq := x.seq + slots, jrnl := 0, ckptWanted := false
    blocks := x.blocks.map (fun (e : Nat × NBlock) => if e.2.st = 2 ∧ e.2.stream = 4 then (e.1, { e.2 with st := 4 }) else e) })).droneShow d

/-- CHECKPOINT (R711): after `ckpt_mib` MiB of journal, or on request. -/
def execCheckpoint (die slots : Nat) (s : State) : Res :=
  let x := s.drone die
  .next (if isDrone die = false ∨ (s.droneState die ≠ 3 ∧ s.droneState die ≠ 4) then s
    else if x.ckptWanted ∨ s.fld (droneA die 0x110) 15 0 * 256 ≤ x.jrnl then s.checkpoint die slots else s)

/-- CKPT_NOW (R713): a write of DRONE_CTRL. -/
def execCkptNow (who : Requester) (die : Nat) (value : Word) (s : State) : Res :=
  .next (s.gate who (Blk.drone.at die die 0x008) (fun s =>
    (if isDrone die = false then s
    else
      let s1 := s.writeAt who .drone die die 0x008 value
      if value.getLsbD 2 then s1.modDrone die (fun x => { x with ckptWanted := true }) else s1)))

/-! ### Targets (R681, R682, R702) -/

/-- A parameter page meets R680 and R681. -/
def TargetInfo.ok (t : TargetInfo) : Bool :=
  t.valid && decide (t.bitsPerCell = 3 ∨ t.bitsPerCell = 4) && decide (t.slots = 4 ∨ t.slots = 8) && decide (272 ≤ t.spare) &&
  decide (1 ≤ t.luns ∧ t.luns ≤ 4) && decide (1 ≤ t.planes ∧ t.planes ≤ 4) && decide (t.tprog ≤ 7800)

/-- Two targets have the same geometry and timing. -/
def TargetInfo.same (t u : TargetInfo) : Bool :=
  decide (t.bitsPerCell = u.bitsPerCell ∧ t.luns = u.luns ∧ t.planes = u.planes ∧ t.slots = u.slots ∧ t.spare = u.spare ∧
    t.retry = u.retry ∧ t.blocks = u.blocks ∧ t.pages = u.pages ∧ t.tprog = u.tprog)

/-- DRONE_TRAINING (R681, R682, R717): the drone identifies and calibrates its targets. Channels are 0 to 23 of the drone. -/
def execDroneTraining (die : Nat) (targets : List TargetInfo) (s : State) : Res :=
  let ts := targets.filter (fun t => decide (t.channel < 24 ∧ t.target < 8))
  .next (if isDrone die = false ∨ s.droneState die ≠ 0 then s
    else
      let s1 := s.setDroneState die 1
      let x0 := s1.drone die
      match ts.find? (fun t => t.ok) with
      | none => s1.setDrone die (ts.foldl (fun (x : Drone) t => x.setTarget (8 * t.channel + t.target) (fun y => { y with disabled := true })) x0)
      | some g =>
        let x1 := { x0 with luns := g.luns, planes := g.planes, slots := g.slots, pages := g.pages, perPlane := g.blocks }
        let x2 := ts.foldl (fun (x : Drone) t =>
          let key := 8 * t.channel + t.target
          if t.ok && t.same g then
            t.marked.foldl (fun (y : Drone) m =>
              y.modBlock ((m / 65536 * 192 + t.target * 24 + t.channel) * 65536 + m % 65536) (fun n => { n with st := 3 }))
              (x.setTarget key (fun y => { y with present := true, lastCal := s.breath.number }))
          else x.setTarget key (fun y => { y with disabled := true })) x1
        let depth := 7800 / g.tprog - 1
        let s2 := (s1.setDrone die x2).setReg (droneA die 0x118)
          (BitVec.ofNat 32 (g.bitsPerCell * 2 ^ 28 + (g.luns - 1) * 2 ^ 26 + (g.planes - 1) * 2 ^ 24 + g.slots * 2 ^ 20 +
            g.retry % 16 * 2 ^ 16 + (g.blocks - 1) % 65536))
        (s2.setReg (droneA die 0x11C) (BitVec.ofNat 32 (g.tprog * 2 ^ 16 + min depth 15 * 2 ^ 12 + (g.pages - 1) % 4096))).droneShow die)

/-- NAND_CALIBRATION (R682): `cal_breaths` breaths have passed, or the die temperature has moved by more than 10 °C. -/
def execNandCalibration (die ch t : Nat) (warm : Bool) (s : State) : Res :=
  let key := 8 * ch + t
  let x := s.drone die
  let y := x.target key
  .next (if isDrone die = false ∨ 24 ≤ ch ∨ 8 ≤ t ∨ y.present = false ∨
      (warm = false ∧ s.breath.number < y.lastCal + s.fld (droneA die 0x110) 31 16) then s
    else s.setDrone die (x.setTarget key (fun z => { z with training := true, warm := warm })))

/-- CALIBRATION_DONE (R682). -/
def execCalibrationDone (die ch t : Nat) (s : State) : Res :=
  let key := 8 * ch + t
  .next (if isDrone die = false ∨ 24 ≤ ch ∨ 8 ≤ t ∨ ((s.drone die).target key).training = false then s
    else s.modDrone die (fun x => x.setTarget key (fun z => { z with training := false, warm := false, lastCal := s.breath.number })))

/-- TARGET_TIMEOUT (R702): the target goes offline. Every map entry that names it is poisoned. -/
def execTargetTimeout (die ch t : Nat) (s : State) : Res :=
  let key := 8 * ch + t
  .next (if isDrone die = false ∨ 24 ≤ ch ∨ 8 ≤ t ∨ ((s.drone die).target key).present = false ∨
      ((s.drone die).target key).offline = true then s
    else
      let on (psa : Nat) : Bool := decide (lunTarget (blockOf psa / 65536) = key)
      let poison (f : Option FSlot) : Option FSlot := f.map (fun g =>
        match g.psa with
        | some p => if on p then { g with poison := true } else g
        | none => g)
      let s1 := s.modDrone die (fun x => { x.setTarget key (fun z => { z with offline := true }) with
        objs := x.objs.map (fun (e : Nat × Option FObj) =>
          (e.1, e.2.map (fun (o : FObj) => { o with units := o.units.map (fun (f : Nat × Option FSlot) => (f.1, poison f.2)) }))) })
      let s2 := (s1.raise (droneA die 0) 1).faultPost
        { breath := 0, die := die, kind := 0x10, unit := 24 * (die - 6) + ch, action := 0 }
      ((s2.emptied die).readOnlyCheck die).droneShow die)

/-! ### Requests (R686 to R690) -/

/-- A flash request. -/
structure FReq where
  bytes : List Byte
  deriving DecidableEq, Repr

/-- A field of it. -/
def FReq.f (r : FReq) (off n : Nat) : Nat := leOf ((r.bytes.drop off).take n)
/-- Its partition, count, tag, object, offset and address. -/
def FReq.part (r : FReq) : Nat := r.f 2 1 % 64
/-- Units. -/
def FReq.count (r : FReq) : Nat := r.f 4 2
/-- Tag. -/
def FReq.tag (r : FReq) : Nat := r.f 6 2
/-- Object id. -/
def FReq.obj (r : FReq) : Nat := r.f 8 8
/-- First unit, or size. -/
def FReq.off (r : FReq) : Nat := r.f 16 8
/-- Device address. -/
def FReq.addr (r : FReq) : Nat := r.f 24 8

/-- A request is `INVALID` for operation `op` (R686, R688). -/
def FReq.bad (r : FReq) (op : Nat) : Bool :=
  let io := decide (op = 0 ∨ op = 1)
  decide (r.f 0 1 ≠ op) || decide (8 ≤ r.f 1 1) || decide (64 ≤ r.f 2 1) ||
  (if op = 2 then decide (r.f 1 1 % 4 = 3) || decide (4 ≤ r.f 3 1) || decide (r.off = 0 ∨ 2 ^ 37 < r.off) ||
      decide (r.obj = 0 ∨ r.obj / 2 ^ 56 = 0xFF)
    else decide (r.f 1 1 % 4 ≠ 0) || decide (r.f 3 1 ≠ 0)) ||
  (if io then decide (r.count = 0 ∨ 4096 < r.count) || decide (r.addr % 4096 ≠ 0)
    else decide (r.count ≠ 0) || decide (r.addr ≠ 0)) ||
  (decide (op = 3 ∨ op = 4) && decide (r.off ≠ 0))

/-- What a drone answers before it looks at the object (R688, R703, R708, R713). -/
def State.droneGate (s : State) (d op : Nat) : Nat :=
  let st := s.droneState d
  if st = 5 ∨ st = 6 then 0x0B
  else if (st ≠ 3 ∧ st ≠ 4) ∨ s.rbit (droneA d 0x008) 0 = false then 0x0C
  else if st = 4 ∧ (op = 1 ∨ op = 2) then 0x08
  else 0

/-- The status of a request from those of its shares (R686). -/
def joinStatus (l : List Nat) : Nat := (l.find? (fun x => decide (x ≠ 0))).getD 0

/-- The units of a read or write that lie on a drone: object units. -/
def FReq.unitsAt (r : FReq) (code d : Nat) : List Nat :=
  ((List.range r.count).map (fun i => r.off + i)).filter (fun u => decide ((unitHome code u).1 = d))

/-- The device address of a unit of a read or write. -/
def FReq.unitAddr (r : FReq) (u : Nat) : Nat := r.addr + 4096 * (u - r.off)

/-- Status of a drone's share of a read (R687 to R689). -/
def State.readShare (s : State) (b : Nat) (r : FReq) (code d : Nat) : Nat :=
  if s.droneGate d 0 ≠ 0 then s.droneGate d 0
  else match s.fobj d r.obj with
    | none => 2
    | some o =>
      if o.deleting.isSome then 2
      else if o.committed = false then 4
      else if o.size < r.off + r.count then 9
      else if (r.unitsAt code d).any (fun u => (s.xlat (.bunit b) (some r.part) true (r.unitAddr u) 4096).isNone) then 0x0A
      else if (r.unitsAt code d).any (fun u => s.unitBad code r.obj u) then 5
      else 0

/-- Deliver the units of a share that can be read. -/
def State.readUnits (s : State) (b : Nat) (r : FReq) (code : Nat) (us : List Nat) : State :=
  us.foldl (fun (t : State) u =>
    if t.unitBad code r.obj u then t
    else t.writeSeen (.bunit b) (some r.part) (r.unitAddr u) (t.flashBytes r.obj (4096 * u) 4096)) s

/-- What the transfers of a request count and record in the memories they reach, on the drones that accept it: refusals by a bank's
owner, and the words read or rewritten in part (R198, R212, R213). -/
def State.noteUnits (s : State) (b : Nat) (r : FReq) (code : Nat) (write : Bool) (ds : List Nat) : State :=
  (ds.flatMap (fun d => r.unitsAt code d)).foldl (fun (t : State) u => t.noteDev (.bunit b) (some r.part) write (r.unitAddr u) 4096) s

/-- Units of a share that were never written. -/
def State.blankUnits (s : State) (r : FReq) (code : Nat) (us : List Nat) : Nat :=
  us.countP (fun u =>
    let h := unitHome code u
    match s.fobj h.1 r.obj with
    | some o => decide (SMap.get (fun _ => none) o.units h.2 = none)
    | none => false)

/-- FLASH_READ (R686, R687): sent through bellows `b`. -/
def execFlashRead (b : Nat) (req : List Byte) (s : State) : Res :=
  let r : FReq := ⟨req⟩
  .next (if isBellows b = false then s
    else if r.bad 0 then s.flashEnd r.tag 1 0
    else match s.flashCode r.obj with
      | none => s.flashEnd r.tag (joinStatus [s.droneGate 6 0, s.droneGate 7 0, 2]) 0
      | some code =>
        let ds := (dronesOf code).filter (fun d => decide (r.unitsAt code d ≠ []))
        let sts := ds.map (fun d => (d, s.readShare b r code d))
        let run := (sts.filter (fun q => decide (q.2 = 0 ∨ q.2 = 5))).map (fun q => q.1)
        let s1 := run.foldl (fun (t : State) d =>
          (t.readUnits b r code (r.unitsAt code d)).cntAdd .drone d d 0x030 (r.unitsAt code d).length)
          (s.noteUnits b r code true ((sts.filter (fun q => decide (q.2 = 0x0A))).map (fun q => q.1)))
        s1.flashEnd r.tag (joinStatus (sts.map (fun q => q.2))) ((run.map (fun d => s.blankUnits r code (r.unitsAt code d))).sum))

/-- Status of a drone's share of a write. -/
def State.writeShare (s : State) (b : Nat) (r : FReq) (code d : Nat) : Nat :=
  if s.droneGate d 1 ≠ 0 then s.droneGate d 1
  else match s.fobj d r.obj with
    | none => 2
    | some o =>
      let us := r.unitsAt code d
      if o.deleting.isSome then 2
      else if o.committed = true ∨ o.closing.isSome = true then 4
      else if o.size < r.off + r.count then 9
      else if us.any (fun u => decide (SMap.get (fun _ => none) o.units (unitHome code u).2 ≠ none)) then 4
      else if us.any (fun u => (s.xlat (.bunit b) (some r.part) false (r.unitAddr u) 4096).isNone) then 0x0A
      else if us.any (fun u => match s.readDev (.bunit b) (some r.part) (r.unitAddr u) 4096 with
        | .error _ => true
        | .ok _ => false) then 5
      else 0

/-- Take the units of a share of a write into the drone (R687). -/
def State.writeUnits (s : State) (b : Nat) (r : FReq) (code d : Nat) : State :=
  (r.unitsAt code d).foldl (fun (t : State) u =>
    match t.fobj d r.obj, t.readDev (.bunit b) (some r.part) (r.unitAddr u) 4096 with
    | some o, .ok bs =>
      let v := (unitHome code u).2
      (t.setFobj d r.obj (some { o with
        data := o.data.setBytes (4096 * v) bs, units := SMap.set (fun _ => none) o.units v (some {}) })).modDrone d
        (fun x => { x with buf := x.buf ++ [{ stream := o.stream, kind := .unit r.obj v }] })
    | _, _ => t) s

/-- FLASH_WRITE (R686, R687): it completes once the drones hold the data. -/
def execFlashWrite (b : Nat) (req : List Byte) (s : State) : Res :=
  let r : FReq := ⟨req⟩
  .next (if isBellows b = false then s
    else if r.bad 1 then s.flashEnd r.tag 1 0
    else match s.flashCode r.obj with
      | none => s.flashEnd r.tag (joinStatus [s.droneGate 6 1, s.droneGate 7 1, 2]) 0
      | some code =>
        let ds := (dronesOf code).filter (fun d => decide (r.unitsAt code d ≠ []))
        let sts := ds.map (fun d => (d, s.writeShare b r code d))
        let s1 := (sts.filter (fun q => decide (q.2 = 0))).foldl (fun (t : State) q =>
          (t.writeUnits b r code q.1).cntAdd .drone q.1 q.1 0x038 (r.unitsAt code q.1).length)
          (s.noteUnits b r code false ((sts.filter (fun q => decide (q.2 = 0 ∨ q.2 = 5 ∨ q.2 = 0x0A))).map (fun q => q.1)))
        s1.flashEnd r.tag (joinStatus (sts.map (fun q => q.2))) 0)

/-- Status of a drone's share of a create (R684, R688, R692). -/
def State.createShare (s : State) (r : FReq) (d : Nat) : Nat :=
  let objs := (s.drone d).objs
  let bucket (i : Nat) : Nat := rowHash i % 2 ^ 19
  if s.droneGate d 2 ≠ 0 then s.droneGate d 2
  else if (s.fobj d r.obj).isSome then 3
  else if 2 ^ 24 ≤ objs.length ∨ 64 ≤ objs.countP (fun e => decide (bucket e.1 = bucket r.obj)) then 7
  else if s.units d 0x128 < unitsOn (r.f 1 1 % 4) r.off d then 6
  else 0

/-- FLASH_CREATE (R686, R687). -/
def execFlashCreate (b : Nat) (req : List Byte) (s : State) : Res :=
  let r : FReq := ⟨req⟩
  let code := r.f 1 1 % 4
  .next (if isBellows b = false then s
    else if r.bad 2 then s.flashEnd r.tag 1 0
    else
      let sts := (dronesOf code).map (fun d => (d, s.createShare r d))
      let s1 := (sts.filter (fun q => decide (q.2 = 0))).foldl (fun (t : State) q =>
        (t.setFobj q.1 r.obj (some { size := r.off, drones := code, stream := r.f 3 1, part := r.part })).setUnits q.1 0x128
          (t.units q.1 0x128 - unitsOn code r.off q.1)) s
      s1.flashEnd r.tag (joinStatus (sts.map (fun q => q.2))) 0)

/-- Status of a drone's share of a commit. -/
def State.commitShare (s : State) (id d : Nat) : Nat :=
  if s.droneGate d 3 ≠ 0 then s.droneGate d 3
  else match s.fobj d id with
    | none => 2
    | some o => if o.deleting.isSome then 2 else if o.committed = true ∨ o.closing.isSome = true then 4 else 0

/-- FLASH_COMMIT (R687, R689): it completes when the units and the commit record are programmed. -/
def execFlashCommit (b : Nat) (req : List Byte) (s : State) : Res :=
  let r : FReq := ⟨req⟩
  .next (if isBellows b = false then s
    else if r.bad 3 then s.flashEnd r.tag 1 0
    else match s.flashCode r.obj with
      | none => s.flashEnd r.tag (joinStatus [s.droneGate 6 3, s.droneGate 7 3, 2]) 0
      | some code =>
        let sts := (dronesOf code).map (fun d => (d, s.commitShare r.obj d))
        let st := joinStatus (sts.map (fun q => q.2))
        let go := sts.filter (fun q => decide (q.2 = 0))
        if go = [] then s.flashEnd r.tag st 0
        else go.foldl (fun (t : State) q => match t.fobj q.1 r.obj with
          | none => t
          | some o => (t.setFobj q.1 r.obj (some { o with closing := some (r.tag, st) })).modDrone q.1
              (fun x => { x with buf := x.buf ++ [{ stream := 4, kind := .commit r.obj }] })) s)

/-- Status of a drone's share of a delete. -/
def State.deleteShare (s : State) (id d : Nat) : Nat :=
  if s.droneGate d 4 ≠ 0 then s.droneGate d 4
  else match s.fobj d id with
    | none => 2
    | some o => if o.deleting.isSome then 2 else 0

/-- FLASH_DELETE (R687, R689): it completes when the delete record is programmed. -/
def execFlashDelete (b : Nat) (req : List Byte) (s : State) : Res :=
  let r : FReq := ⟨req⟩
  .next (if isBellows b = false then s
    else if r.bad 4 then s.flashEnd r.tag 1 0
    else match s.flashCode r.obj with
      | none => s.flashEnd r.tag (joinStatus [s.droneGate 6 4, s.droneGate 7 4, 2]) 0
      | some code =>
        let sts := (dronesOf code).map (fun d => (d, s.deleteShare r.obj d))
        let st := joinStatus (sts.map (fun q => q.2))
        let go := sts.filter (fun q => decide (q.2 = 0))
        if go = [] then s.flashEnd r.tag st 0
        else go.foldl (fun (t : State) q => match t.fobj q.1 r.obj with
          | none => t
          | some o => (t.setFobj q.1 r.obj (some { o with deleting := some (r.tag, st) })).modDrone q.1
              (fun x => { x with buf := x.buf ++ [{ stream := 4, kind := .delete r.obj }] })) s)

/-! ### Format, recovery and power loss (R683, R706 to R713) -/

/-- The capacity of a drone, and what its objects leave of it (R712). -/
def State.setCapacity (s : State) (d cap : Nat) : State :=
  let used := ((s.drone d).objs.map (fun e => match e.2 with
    | some o => unitsOn o.drones o.size d
    | none => 0)).sum
  (s.setUnits d 0x120 cap).setUnits d 0x128 (cap - used)

/-- DRONE_FORMAT: a write of DRONE_CTRL (R683, R713). `cap` is the logical capacity that the format gives. -/
def execDroneFormat (who : Requester) (die : Nat) (value : Word) (cap : Nat) (s : State) : Res :=
  let st := s.droneState die
  .next (s.gate who (Blk.drone.at die die 0x008) (fun s =>
    (if isDrone die = false then s
    else if value.getLsbD 1 = false then s.writeAt who .drone die die 0x008 value
    else if s.rbit (droneA die 0x008) 0 = true ∨ (st ≠ 8 ∧ st ≠ 7 ∧ st ≠ 3 ∧ st ≠ 4) then s.refuseWrite who .drone die die 0x008 value
    else
      let s1 := s.writeAt who .drone die die 0x008 value
      let x := s1.drone die
      let s2 := s1.setDrone die { x with
        anchor := .own, objs := [], buf := [], frames := [], rot := [], victim := none, rewrite := [], jrnl := 0, ckptWanted := false
        levelling := false, ecBase := x.ecBase + 1
        blocks := (x.blocks.map (fun (e : Nat × NBlock) =>
          if e.2.st = 3 then e else (e.1, { ec := e.2.ec }))).filter (fun e => decide (e.2 ≠ {})) }
      ((((s2.setReg (droneA die 0x134) 0).setCapacity die cap).setDroneState die 3).readOnlyCheck die).droneShow die)))

/-- DRONE_RECOVERY (R683, R711): the drone reads its anchor, deletes what was not committed and mounts. -/
def execDroneRecovery (die cap : Nat) (s : State) : Res :=
  .next (if isDrone die = false ∨ s.droneState die ≠ 1 then s
    else
      let x := s.drone die
      match x.anchor with
      | .none => (s.setDroneState die 8).raise (droneA die 0) 6
      | .foreign => (s.setDroneState die 7).raise (droneA die 0) 6
      | .own =>
        let objs := (x.objs.filter (fun e => match e.2 with
          | some o => o.committed
          | none => false)).map (fun (e : Nat × Option FObj) => (e.1, e.2.map (fun (o : FObj) => { o with closing := none, deleting := none })))
        let x1 := { x with objs := objs, buf := [], frames := [], victim := none, rewrite := [], ckptWanted := false }
        let x2 := { x1 with blocks := x1.blocks.map (fun (e : Nat × NBlock) =>
          if e.2.st = 1 then (e.1, { e.2 with st := if x1.validIn e.1 = [] then 4 else 2 }) else e) }
        let s1 := (s.setDrone die x2).setReg (droneA die 0x134) (BitVec.ofNat 32 objs.length)
        ((((s1.setCapacity die cap).setDroneState die 3).readOnlyCheck die).raise (droneA die 0) 5).droneShow die)

/-- Program what the buffer of a drone holds, stream by stream, and then the journal. -/
def State.flushAll (s : State) (d : Nat) : Nat → State
  | 0 => s
  | n + 1 => State.flushAll ((List.range 5).foldl (fun (t : State) st => t.programPage d st) (s.relocateCommit d)) d n

/-- PWR_FAIL_N falls (R708, R820, R852): both drones refuse requests, abandon housekeeping and flush; self-tests are aborted. -/
def State.powerFall (s : State) : State :=
  let one (t : State) (d : Nat) : State :=
    (t.droneFlush d).modDrone d (fun x => { x with
      victim := none
      rewrite := x.rewrite.filter (fun v => decide (v.2 = 4))
      buf := x.buf.filter (fun e => match e.kind with
        | .move _ _ w => decide (w = 4)
        | _ => true) })
  let s0 := one (one s 6) 7
  let s1 := (List.range 8).foldl (fun (t : State) d => t.bistAbort d (fun _ => true)) s0
  ((({ s1 with pwr := { s1.pwr with fail := true } }.setFld (Blk.pwr.at 4 4 0x108) 10 10 1)).raise (Blk.pwr.at 4 4 0) 2).ibi 3

/-- POWER_FAIL (R708). -/
def execPowerFail (s : State) : Res := .next (if s.pwr.fail then s else s.powerFall)

/-- A drone's flush ends (R708). -/
def State.flushDone (s : State) (d : Nat) : State :=
  let s1 := s.flushAll d (2 * (s.drone d).buf.length + 1)
  (((s1.modDrone d (fun x => { x with buf := [] })).setDroneState d 6).raise (droneA d 0) 4).droneShow d

end Sys2Proof.Machine
end

