-- ==== Sys2Proof/Machine/Reset.lean ====
section
/-! DEFINITION. Resets: what each kind keeps and clears, and the record of its cause (R815 to R821, with the reset rules of
R38, R103, R204, R208, R215, R216, R295, R333, R374, R448, R519, R556, R569, R619, R679, R717, R733, R765, R797, R838, R862, R888). -/
namespace Sys2Proof.Machine

/-- The reset kinds of R815, in the numbering of PWR_RESET_CAUSE. -/
inductive ResetKind where
  | powerOn | wakeOff | device | wakeRest | warm
  deriving DecidableEq, Repr

/-- Code of a kind in PWR_RESET_CAUSE (R826). -/
def ResetKind.code : ResetKind → Nat
  | .powerOn => 0
  | .wakeOff => 1
  | .device => 2
  | .wakeRest => 3
  | .warm => 4

/-- The kind leaves DRAM as it is (R816). -/
def ResetKind.keepsDram (k : ResetKind) : Bool := decide (k = .wakeRest) || decide (k = .warm)

/-- Flash holds the health record: a drone is bound to this device (R728). -/
def State.hasHealth (s : State) : Bool := decide ((s.drone 6).anchor = .own) || decide ((s.drone 7).anchor = .own)

/-- Fences, withdrawals and repairs stand after the reset: kept by a warm reset, applied again from the health record by the
others (R728, R733, R765, R816). -/
def State.keepsRepairs (s : State) (k : ResetKind) : Bool := decide (k = .warm) || s.hasHealth

/-! ### Registers (R816) -/

/-- Bits of a register that a reset keeps besides its RWS fields: in a warm reset the RWL fields, what the security unit
holds of the boot (R797), the DRAM and consort status, the fault state, the link status and CNT_OVF (R746, R816). -/
def keptBits (k : ResetKind) (repairs : Bool) (b : Blk) (off : Nat) (r : RegRow) : Word :=
  let rep : Word := if repairs && ((b == .cons && (off == 0x100 || off == 0x104)) || (b == .hbm && off == 0x104)) then 0xFFFFFFFF else 0
  match k with
  | .powerOn => rep
  | .warm =>
    r.accMask .rws ||| r.accMask .rwl ||| rep |||
      (if off = 0x028 then 0xFFFFFFFF
       else if b = .sec ∧ off = 0x120 then 0xF000F
       else if b = .sec ∧ off = 0x10C then 0xFFFFFFFF
       else if b = .sec ∧ off = 0x110 then 0x7FFFFFFF
       else if b = .top ∧ off = 0x204 then 0xFFFFFFFF
       else if b = .top ∧ off = 0x300 then 0xC0FF0000
       else if b = .hbm ∧ off = 0x100 then 0xFFFFFFFF
       else if b = .host ∧ off = 0x100 then 0xFFFFFFFF
       else 0)
  | _ => r.accMask .rws ||| rep ||| (if b = .sec ∧ off = 0x120 then 0xF000F else 0)

/-- A register word after a reset; keys at 2^26 and above hold words behind an index register. -/
def resetWord (k : ResetKind) (repairs : Bool) (key : Nat) (w : Word) : Word :=
  let a := key % 2 ^ 26
  match pageBlk (a / 2 ^ 23) (a / 2 ^ 12 % 2 ^ 11) with
  | none => regReset key
  | some (b, _) =>
    match regRow b (a / 2 ^ 23) (a % 4096) with
    | none => regReset key
    | some r =>
      let m := keptBits k repairs b (a % 4096) r
      (regReset key &&& ~~~ m) ||| (w &&& m)

/-- The register file after a reset. -/
def resetRegs (k : ResetKind) (repairs : Bool) (m : SMap Word) : SMap Word :=
  (m.map (fun (e : Nat × Word) => (e.1, resetWord k repairs e.1 e.2))).filter (fun e => decide (e.2 ≠ regReset e.1))

/-! ### What firmware holds -/

/-- An object after a reset: gone with the memory that held its only copy (R215, R816, R817). -/
def resetObj (k : ResetKind) (o : Obj) : Option Obj :=
  let inFlash := o.parked || !o.data.isEmpty
  match k with
  | .warm => some { o with lastBound := 0 }
  | .wakeRest =>
    (match o.addr with
     | some a => if a < sramBase then some { o with lastBound := 0 } else if inFlash then some { o with lastBound := 0, addr := none } else none
     | none => if inFlash then some { o with lastBound := 0 } else none)
  | _ => if inFlash then some { o with lastBound := 0, addr := none } else none

/-- The objects after a reset. -/
def resetObjs (k : ResetKind) (m : SMap (Option Obj)) : SMap (Option Obj) :=
  List.filterMap (fun (e : Nat × Option Obj) => match e.2 with
    | some o => (resetObj k o).map (fun p => (e.1, some p))
    | none => none) m

/-- A session after a reset: its turns are gone, and it has its last commit or nothing (R519, R556, R569). -/
def State.resetSess (s : State) (x : Sess) : Sess :=
  if x.state = 0 then x
  else
    let lost := decide (x.state = 2) && (s.req (x.req % 65536)).released
    { x with state := if x.hasImage then 3 else 1, req := 0, queue := [], rolledBack := x.rolledBack || lost }

/-- A model after a reset that keeps DRAM: swaps and unloads in progress are abandoned. -/
def resetModel (m : Model) : Model := { m with st := List.filter (fun (e : Nat × Nat) => decide (e.2 = 2)) m.st }

/-- A host function after a warm reset: its configuration space stands, its BAR2 registers and channels are reset (R679,
R816). -/
def resetFn (x : Fn) : Fn :=
  { busMaster := x.busMaster, pasidEn := x.pasidEn, atsEn := x.atsEn, vfEnable := x.vfEnable, numVfs := x.numVfs
    msixEn := x.msixEn, msixMask := x.msixMask, msix := x.msix, aer := x.aer }

/-- A drone after its reset: what flash holds stays (R717). -/
def resetDrone (x : Drone) : Drone :=
  { x with
    buf := [], frames := [], rot := [], victim := none, rewrite := [], ckptWanted := false
    targets := (x.targets.map (fun (e : Nat × Target) => (e.1, ({ grownBad := e.2.grownBad } : Target)))).filter (fun e => decide (e.2 ≠ {})) }

/-- The drones flush before a device or warm reset reaches them (R819). -/
def State.resetFlush (s : State) (k : ResetKind) : State :=
  let one (t : State) (d : Nat) : State :=
    if t.droneState d = 3 ∨ t.droneState d = 4 ∨ t.droneState d = 5 then t.flushDone d else t
  match k with
  | .device => one (one s 6) 7
  | .warm => one (one s 6) 7
  | _ => s

/-! ### The security unit (R784, R797, R818) -/

/-- An enabled tamper source is asserted (R783). -/
def State.tamperHeld (s : State) : Bool := decide ((s.fld (secA 0x120) 3 0) &&& (s.fld (secA 0x124) 3 0) ≠ 0)

/-- Derive slot 0 and the device's key pair (R784), unless a tamper event or an unlock has emptied it. -/
def State.deriveKey (s : State) : State :=
  if s.sec.noKey = true ∨ s.tamperHeld = true then s
  else
    let lc := s.lifeCycle
    let n := SMap.get (fun _ => 0) s.sec.ends 0
    (List.range 24).foldl (fun (t : State) i => t.setReg (secA (0x300 + 4 * i)) (BitVec.ofNat 32 (Config.devicePub lc i)))
      (s.setKeySlot 0 (some { key := Config.deviceKey lc, count := n }))

/-- The security unit after a reset: fuses and committed counts stay, key slots are empty. -/
def resetSec (k : ResetKind) (x : Sec) : Sec :=
  let fuses : Sec := { serial := x.serial, owner := x.owner, revoke := x.revoke, minSvn := x.minSvn, lc := x.lc, ends := x.ends }
  match k with
  | .warm => { fuses with pendingReset := x.pendingReset, noKey := x.noKey, opened := x.opened, unlocking := x.unlocking, monOff := true }
  | _ => fuses

/-- Banks that the map has removed and whose wipe has not finished are wiped by the reset (R207, R208). -/
def State.wipeRemoved (s : State) (die : Nat) : State :=
  s.zeroBanks (.bellows die) ((List.range 64).filter (fun n =>
    decide (s.bankState (.bellows die) n = 3) && !(s.secureMap die).testBit n))

/-- Banks that the kept secure map names are SECURE after a warm reset, and are wiped (R208, R818). -/
def State.secureAgain (s : State) (die : Nat) : State :=
  ((List.range 64).foldl (fun (t : State) n =>
    if (t.secureMap die).testBit n then t.setBank (.bellows die) n false 3 0 else t) s).wipeStart die

/-! ### The reset -/

/-- PWR_RESET_CAUSE after one more reset (R821, R826). -/
def causeWord (k : ResetKind) (trigger : Nat) (old : Word) : Word :=
  let n := match k with
    | .powerOn => 0
    | _ => min (fieldW old 31 24 + 1) 255
  BitVec.ofNat 32 (n * 2 ^ 24 + trigger % 16 * 2 ^ 8 + k.code)

/-- State that every reset clears or keeps as R816 says, before the security unit and the cause record. -/
def State.resetAll (s : State) (k : ResetKind) : State :=
  let warm := decide (k = .warm)
  let rep := s.keepsRepairs k
  let objs := resetObjs k s.objs
  { pending := s.pending, hostMem := s.hostMem, readData := s.readData, freeCtr := s.freeCtr, msixSent := s.msixSent, reply := s.reply
    regs := resetRegs k rep s.regs
    mem := if warm then s.mem else List.filter (fun (e : Nat × Byte) => decide (e.1 < sramBase)) s.mem
    flip := if warm then s.flip else List.filter (fun (e : Nat × Nat) => decide (8 * e.1 < sramBase)) s.flip
    linksDown := if warm then s.linksDown else []
    fns := if warm then (s.fns.map (fun (e : Nat × Fn) => (e.1, resetFn e.2))).filter (fun e => decide (e.2 ≠ {})) else []
    objs := objs
    models := if k.keepsDram then (s.models.map (fun (e : Nat × Model) => (e.1, resetModel e.2))).filter (fun e => decide (e.2 ≠ {})) else []
    reqs := if k = .device ∨ k = .warm then
        (s.reqs.map (fun (e : Nat × Req) => (e.1, ({ gen := e.2.gen } : Req)))).filter (fun e => decide (e.2 ≠ {})) else []
    sess := (s.sess.map (fun (e : Nat × Sess) => (e.1, s.resetSess e.2))).filter (fun e => decide (e.2 ≠ {}))
    pfxs := List.filter (fun (e : Nat × Option Pfx) => match e.2 with
      | some p => (SMap.get (fun _ => none) objs p.obj).isSome ||
          s.sess.any (fun x => decide (x.2.state ≠ 0) && decide (x.2.pfx = some e.1))
      | none => false) s.pfxs
    drones := (s.drones.map (fun (e : Nat × Drone) => (e.1, resetDrone e.2))).filter (fun e => decide (e.2 ≠ {}))
    flashDone := s.flashDone
    spareRows := if rep then s.spareRows else []
    withdrawnBanks := if rep then s.withdrawnBanks else []
    dramSpare := if rep then s.dramSpare else []
    withheld := if rep then s.withheld else []
    health := if rep then s.health else []
    healthAge := if rep then s.healthAge else []
    coresOut := if rep then s.coresOut else []
    spareOk := if warm then s.spareOk else []
    sec := resetSec k s.sec
    pwr := { state := if warm then s.pwr.state else .booting
             fail := if k = .powerOn then false else s.pwr.fail
             straps := s.pwr.straps
             booted := warm && s.pwr.booted
             halted := warm && s.pwr.halted
             clearing := if warm then s.pwr.clearing else if k = .wakeRest then [] else [0, 1, 2, 3]
             failed := if warm then s.pwr.failed else []
             announce := if warm then [4, 5] else [] }
    mgmt := match k with
      | .powerOn => {}
      | .warm => s.mgmt
      | _ => { s.mgmt with left := false, ibiBreath := 0 } }

/-- A reset of a kind with a trigger of PWR_RESET_CAUSE (R815 to R821). -/
def State.doReset (s : State) (k : ResetKind) (trigger : Nat) : State :=
  let s1 := s.resetFlush k
  let s2 := s1.recoverPoint.recoverPoint.recoverPoint
  let s3 := (((s2.wipeRemoved 4).wipeRemoved 5).resetAll k).setReg (pwrA 4 0x118) (causeWord k trigger (s.reg (pwrA 4 0x118)))
  let s4 := if s3.pwr.fail then s3.setFld (pwrA 4 0x108) 10 10 1 else s3
  let s5 := match k with
    | .warm => (((s4.secureAgain 4).secureAgain 5).deriveKey).unlockOpen
    | .powerOn => s4.healthAge.foldl (fun (t : State) (e : Nat × Nat) => t.setReg e.1 (BitVec.ofNat 32 e.2)) s4
    | _ => s4
  (s5.sesCount 4).sesCount 5

end Sys2Proof.Machine
end

