-- ==== Sys2Proof/Machine/Security.lean ====
section
/-! DEFINITION. Security and life cycle: boot images, the lock, fuses, debug access, tamper events and key loading (R766 to
R797). -/
namespace Sys2Proof.Machine

/-! ### Keys (R780, R783, R784) -/

/-- Erase every key slot and start the wipe of the secure banks (R776, R780, R783); slot 0 stays empty until the next boot. -/
def State.eraseKeys (s : State) : State :=
  ({ s with sec := { s.sec with slots := [], noKey := true } }.setFld (secA 0x12C) 15 0 0).wipeSecure

/-- Lower half of `SEC_DBG_CHAL`: the twelve words of a fresh challenge (R779): the entropy source gives free values. -/
def State.drawChallenge (s : State) : Nat → State
  | 0 => { s with sec := { s.sec with fresh := true } }
  | n + 1 =>
    let (v, s1) := s.free 32
    State.drawChallenge (s1.setReg (secA (0x140 + 4 * (11 - n))) (BitVec.ofNat 32 v)) n

/-! ### Images (R768 to R770) -/

/-- A key may sign in the present life-cycle state (R775). -/
def State.keyAllowed (s : State) (key : Nat) : Bool :=
  match s.lifeCycle with
  | 0 => decide (key = 0xFF)
  | 1 => decide (key < 4) || (decide (key = 0xFF) && s.sec.owner.all (fun h => decide (h = 0)))
  | 2 => decide (key < 4)
  | 3 => decide (key = 0xFF)
  | _ => false

/-- SHA-384 of a public key equals the hash that `key` names, which is neither revoked nor all zeros (R769 check 3). -/
def State.keyMatches (s : State) (key qHash : Nat) : Bool :=
  if key = 0xFF then decide (qHash = Config.returnKeyHash)
  else
    let h := s.sec.owner.getD key 0
    decide (h ≠ 0) && decide (qHash = h) && !bit s.sec.revoke key

/-- A field of an image header. -/
def BootImage.f (x : BootImage) (off n : Nat) : Nat := leOf ((x.header.drop off).take n)

/-- The fail code of an image for a stage, 0 where every check passes (R769). -/
def State.imageCheck (s : State) (stage : Nat) (x : BootImage) : Nat :=
  if x.header.length ≠ 512 ∨ x.f 0 4 ≠ 0x42494D47 ∨ x.f 4 2 ≠ 1 ∨ x.f 6 1 ≠ stage ∨ x.f 272 240 ≠ 0 then 1
  else if s.keyAllowed (x.f 7 1) = false then 2
  else if s.keyMatches (x.f 7 1) x.qHash = false then 3
  else if 2 ≤ s.lifeCycle ∧ x.f 8 4 < s.sec.minSvn then 4
  else if x.bodyOk = false then 5
  else if x.sigOk = false then 6
  else if x.readOk = false then 7
  else 0

/-- Verify one image: its signature counts when it verifies. -/
def State.verifyImage (s : State) (stage : Nat) (x : BootImage) : Nat × State :=
  let c := s.imageCheck stage x
  (c, if c = 0 ∨ c = 7 then s.cntAdd .sec 4 4 0x030 1 else s)

/-- Verify a copy: stage 1, then stage 2. -/
def State.verifyCopy (s : State) (a b : BootImage) : Nat × State :=
  let (c, s1) := s.verifyImage 1 a
  if c ≠ 0 then (c, s1) else s1.verifyImage 2 b

/-- The loops of every die lock once stage 1 enables them (R812, R825): PHY and hub loops by R812's list for the die. -/
def State.loopsLock (s : State) : State :=
  (List.range 8).foldl (fun (t : State) d =>
    t.setReg (Blk.clk.at d d 0x104) (BitVec.ofNat 32 (2 ^ 31 + (if isBellows d then 0x30000 else 0x70000) + (if d < 4 then 0xFF else 0)))) s

/-- Stage 2 is loaded onto both bellows (R825): its body at the offset that its header gives. -/
def State.loadBody (s : State) (x : BootImage) : State :=
  [4, 5].foldl (fun (t : State) d =>
    t.writePhys (((List.range x.body.length).filter (fun i => decide (x.f 16 8 + i < 2 ^ 27))).map (fun i => bellowsSram d (x.f 16 8 + i))) x.body) s

/-- A copy is accepted: SEC_BOOT_STATUS shows it (R793), and slot 0 is derived (R784). -/
def State.bootCopy (s : State) (copy fail : Nat) (stage2 : BootImage) : State :=
  let s1 : State := { s with pwr := { s.pwr with booted := true } }
  let s2 := s1.setReg (secA 0x10C)
    (BitVec.ofNat 32 (copy * 2 ^ 30 + fail * 2 ^ 16 + stage2.f 8 4 % 256 * 2 ^ 8 + stage2.f 7 1))
  ((s2.loopsLock.loadBody stage2).deriveKey)

/-- Boot halts with a fail code (R770). -/
def State.bootHalt (s : State) (fail : Nat) : State :=
  { s with pwr := { s.pwr with halted := true } }.setReg (secA 0x10C) (BitVec.ofNat 32 (fail * 2 ^ 16))

/-- STAGE2_LOAD (R769, R770, R825): stage 1 and stage 2 of copy A, then of copy B. -/
def execStage2Load (a1 a2 b1 b2 : BootImage) (s : State) : Res :=
  .next (if s.pwr.state ≠ .booting ∨ s.pwr.en = false ∨ s.pwr.good = false ∨ s.pwr.booted = true ∨ s.pwr.halted = true then s
    else if s.lifeCycle = 4 then s.bootHalt 8
    else
      let (ca, s1) := s.verifyCopy a1 a2
      if ca = 0 then s1.bootCopy 0 0 a2
      else
        let (cb, s2) := s1.verifyCopy b1 b2
        if cb = 0 then s2.bootCopy 1 ca b2 else s2.bootHalt cb)

/-! ### The lock (R617, R773) -/

/-- Windows that pass 2^48 when `BOOT_DONE` is written are recorded on their PART_ page (R617). -/
def State.windowErrs (s : State) : State :=
  s.regs.foldl (fun (t : State) (e : Nat × Word) =>
    let a := e.1 % 2 ^ 26
    let die := a / 2 ^ 23
    let off := a % 4096
    if 2 ^ 26 ≤ e.1 ∧ die < 8 ∧ Blk.part.at die die 0 = a - off ∧ 0x200 ≤ off ∧ off < 0x280 then
      (let w := (off - 0x200) / 16
       let p := e.1 / 2 ^ 26 - 1
       let (base, size, _, _) := s.window die p w
       if 2 ^ 48 < base + size then t.err .other .part (Blk.part.at die die (0x200 + 16 * w)) .valueWrite else t)
    else t) s

/-- Where the boot configuration gives ilv_gib 0, stage 2 writes 1 before `BOOT_DONE`: this device has drones (R229). The write is made
with that of `BOOT_DONE` (DEDUCED, log entry 203). -/
def State.ilvBoot (s : State) : State := if s.ilvGib = 0 then s.setFld (Blk.top.at 4 4 0x200) 7 0 1 else s

/-- SEC_BOOT_DONE (R773): the first write of 1 locks every RWL field. -/
def execSecBootDone (who : Requester) (die : Nat) (value : Word) (s : State) : Res :=
  .next (s.gate who (Blk.sec.at die die 0x108) (fun s =>
    (if die ≠ 4 then s
    else
      let s1 := s.writeAt who .sec 4 4 0x108 value
      if value.getLsbD 0 = false then s1
      else if s1.bootDone then s1.refuseAt who .sec 4 4 0x108
      else (s1.ilvBoot.windowErrs).setFld (secA 0x10C) 31 31 1)))

/-! ### Life cycle and fuses (R771, R775 to R777) -/

/-- A transition takes place (R776): `run` clears, keys are erased and secure banks wiped, both fuses of the pair are blown. -/
def State.lcGo (s : State) (target : Nat) : State :=
  let s1 := (s.setFld (Blk.brth.at 4 4 0x008) 0 0 0).eraseKeys
  { s1 with sec := { s1.sec with
      lc := s1.sec.lc ||| (3 * 4 ^ (target - 1)), pendingReset := true, spoiled := s1.sec.verifying || s1.sec.spoiled } }.raise
    (secA 0) 2

/-- Boot code may request this transition (R776). -/
def State.lcAllowed (s : State) (target : Nat) : Bool :=
  let lc := s.lifeCycle
  !s.sec.pendingReset &&
    ((decide (lc = 0) && decide (target = 1)) ||
     (decide (lc = 1) && decide (target = 2) && s.sec.owner.any (fun h => decide (h ≠ 0))) ||
     (decide (lc ≠ 4) && decide (target = 4)))

/-- SEC_LC_REQ (R776). -/
def execSecLcReq (who : Requester) (die : Nat) (value : Word) (s : State) : Res :=
  .next (s.gate who (Blk.sec.at die die 0x104) (fun s =>
    (if die ≠ 4 then s
    else
      let s1 := s.writeAt who .sec 4 4 0x104 value
      if s.bootDone = true ∨ s.lcAllowed (fieldW value 2 0) = false then s1.refuseAt who .sec 4 4 0x104
      else s1.lcGo (fieldW value 2 0))))

/-- svn of the running stage 2 (R793). -/
def State.runningSvn (s : State) : Nat := s.fld (secA 0x10C) 15 8

/-- SEC_SVN_RAISE (R766, R771). -/
def execSecSvnRaise (who : Requester) (die : Nat) (value : Word) (s : State) : Res :=
  let v := fieldW value 6 0
  .next (s.gate who (Blk.sec.at die die 0x118) (fun s =>
    (if die ≠ 4 then s
    else
      let s1 := s.writeAt who .sec 4 4 0x118 value
      if s.bootDone = true ∨ v < s.sec.minSvn ∨ s.runningSvn < v ∨ 64 < v ∨ s.lifeCycle = 4 then s1.refuseAt who .sec 4 4 0x118
      else { s1 with sec := { s1.sec with minSvn := v } })))

/-- SEC_REVOKE (R766, R771): a write that revokes the key of the running stage 2 is refused. -/
def execSecRevoke (who : Requester) (die : Nat) (value : Word) (s : State) : Res :=
  let v := fieldW value 3 0
  .next (s.gate who (Blk.sec.at die die 0x11C) (fun s =>
    (if die ≠ 4 then s
    else
      let s1 := s.writeAt who .sec 4 4 0x11C value
      let key := s.fld (secA 0x10C) 7 0
      if s.bootDone = true ∨ s.lifeCycle = 4 ∨ (key < 4 ∧ bit v key = true) then s1.refuseAt who .sec 4 4 0x11C
      else { s1 with sec := { s1.sec with revoke := s1.sec.revoke ||| v } })))

/-! ### Debug access (R778 to R781) -/

/-- SEC_DBG_CHAL0: a read draws a fresh challenge (R779). -/
def execSecDbgChal0 (die : Nat) (s : State) : Res :=
  .next (if die ≠ 4 then { s with readData := (s.reg (secA 0x140)).toNat }
    else
      let s1 := s.drawChallenge 12
      { s1 with readData := (s1.reg (secA 0x140)).toNat })

/-- SEC_DBG_RESP63: the last word of a record starts its verification (R779). -/
def execSecDbgResp63 (who : Requester) (die : Nat) (value : Word) (s : State) : Res :=
  .next (s.gate who (Blk.sec.at die die 0x4FC) (fun s =>
    (if die ≠ 4 ∨ s.sec.verifying = true then s
    else
      let s1 := (s.setReg (secA 0x4FC) value).setFld (secA 0x110) 31 31 1
      { s1 with sec := { s1.sec with verifying := true, spoiled := false, attempt := s1.sec.fresh, fresh := false } })))

/-- Byte `i` of the record in SEC_DBG_RESP (R779). -/
def State.recordByte (s : State) (i : Nat) : Nat := s.fld (secA (0x400 + i / 4 * 4)) (8 * (i % 4) + 7) (8 * (i % 4))

/-- The key of a record may unlock in the present state (R775). -/
def State.unlockKey (s : State) (key : Nat) : Bool := decide (s.lifeCycle ≠ 0) && s.keyAllowed key

/-- The record is accepted (R776, R779, R781). -/
def State.recordOk (s : State) (sigOk : Bool) (qHash : Nat) : Bool :=
  let level := s.recordByte 0
  let key := s.recordByte 1
  !s.sec.spoiled && !s.sec.pendingReset && s.sec.attempt && decide (s.fld (secA 0x110) 27 24 < 8) &&
    decide (1 ≤ level ∧ level ≤ 3) && (decide (level ≠ 3) || decide (s.lifeCycle = 2)) &&
    (List.range 62).all (fun i => decide (s.recordByte (2 + i) = 0)) &&
    s.unlockKey key && s.keyMatches key qHash && sigOk

/-- An accepted record takes effect (R776, R780). -/
def State.unlockGo (s : State) (level : Nat) : State :=
  if level = 3 then s.lcGo 3
  else if s.lifeCycle = 1 then { s with sec := { s.sec with opened := level } }.setFld (secA 0x110) 30 30 1
  else
    let s1 := s.eraseKeys
    { s1 with sec := { s1.sec with unlocking := some level } }.unlockOpen

/-- UNLOCK_VERIFY_DONE (R779 to R781, R790): whether the signature verifies over the challenge, and SHA-384 of q. -/
def execUnlockVerifyDone (sigOk : Bool) (qHash : Nat) (s : State) : Res :=
  .next (if s.sec.verifying = false then s
    else
      let s1 := (({ s with sec := { s.sec with verifying := false, attempt := false } }.setFld (secA 0x110) 31 31 0).raise (secA 0) 3)
      let s2 := if sigOk ∧ s.sec.spoiled = false then s1.cntAdd .sec 4 4 0x030 1 else s1
      if s.recordOk sigOk qHash then s2.unlockGo (s.recordByte 0)
      else if s.sec.spoiled then s2
      else (s2.setFld (secA 0x110) 27 24 (min (s.fld (secA 0x110) 27 24 + 1) 8)).cntAdd .sec 4 4 0x048 1)

/-! ### Tamper (R782, R783) -/

/-- A tamper source trips (R783, R790). One that is asserted and is held no longer only ends (log entry 166). -/
def State.tamper (s : State) (src : Nat) (held : Bool) : State :=
  let s0 := s.setFld (secA 0x120) src src (b2n held)
  if s0.rbit (secA 0x124) src = false ∨ (s.rbit (secA 0x120) src = true ∧ held = false) then s0
  else
    let s1 := ((s0.setFld (secA 0x120) (16 + src) (16 + src) 1).eraseKeys).raise (secA 0) 1
    let s2 := { s1 with sec := { s1.sec with spoiled := s1.sec.verifying || s1.sec.spoiled } }
    if s2.rbit (secA 0x124) 4 then
      (let (t, s3) := s2.free 4
       s3.doReset .device t)
    else s2

/-- TAMPER_EVENT (R782, R783): a source asserts, and stays so or not. -/
def execTamperEvent (src : Nat) (held : Bool) (s : State) : Res := .next (if 4 ≤ src then s else s.tamper src held)

/-! ### Key blobs (R785, R786) -/

/-- The fields of a blob keep R785. -/
def blobOk (b : List Byte) : Bool :=
  let f (o n : Nat) : Nat := leOf ((b.drop o).take n)
  decide (b.length = 192) && decide (f 0 4 = 0x4B424C42) && decide (1 ≤ f 4 1 ∧ f 4 1 ≤ 15) && decide (f 5 1 = 1) &&
    decide (f 6 2 = 0) && decide (f 11 1 = 0) && decide (f 168 24 = 0)

/-- The bytes of a blob in bellows-A SRAM as the security unit reads them, none where a word is uncorrectable, a bank is being
wiped (R206, R208) or the blob runs past the end. -/
def State.blobAt (s : State) (off : Nat) : List Byte :=
  if 2 ^ 27 < off + 192 then [] else ((s.readDev .secUnit none (bellowsSram 4 off) 192).toOption).getD []

/-- Load a blob: the status of SEC_KEY_STATUS [30:28], and the slot with its content. -/
def State.blobLoad (s : State) (b : List Byte) : Nat × Option (Nat × KeySlot) :=
  let f (o n : Nat) : Nat := leOf ((b.drop o).take n)
  if s.bootDone then (1, none)
  else if (s.lifeCycle ≠ 1 ∧ s.lifeCycle ≠ 2) ∨ s.tamperHeld = true then (2, none)
  else if blobOk b = false then (5, none)
  else if Config.blobPoint (byteNums ((b.drop 24).take 96)) = false then (3, none)
  else match Config.blobKey s.lifeCycle s.sec.serial (byteNums b) with
    | none => (4, none)
    | some k => (0, some (f 4 1, { key := k, wrapId := f 8 3, count := SMap.get (fun _ => 0) s.sec.ends (f 4 1) }))

/-- SEC_KEY_LOAD (R786, R787). -/
def execSecKeyLoad (who : Requester) (die : Nat) (value : Word) (s : State) : Res :=
  .next (s.gate who (Blk.sec.at die die 0x128) (fun s =>
    (if die ≠ 4 then s
    else
      let s1 := (s.writeAt who .sec 4 4 0x128 value).noteDev .secUnit none false (bellowsSram 4 (fieldW value 26 6 * 64)) 192
      let (st, k) := s1.blobLoad (s1.blobAt (fieldW value 26 6 * 64))
      let s2 := s1.setFld (secA 0x12C) 30 28 st
      let s3 := if st = 4 then s2.tagFailed else s2
      match k with
      | none => s3
      | some (n, x) =>
        let s4 := s3.setKeySlot n (some x)
        if 2 ^ 40 ≤ x.count then (s4.setFld (secA 0x130) n n 1) else s4)))

/-! ### The secure monitor (R774, R818) -/

/-- A bellows has a secure bank. -/
def State.hasSecure (s : State) (die : Nat) : Bool := (List.range 64).any (fun n => decide (s.bankState (.bellows die) n = 3))

/-- SECURE_MONITOR_CALL (R774): core `core` of a bellows makes an environment call to `entry`. Where secure mode is
unavailable the core takes a trap of its own, and nothing else changes. -/
def execSecureMonitorCall (die core entry : Nat) (s : State) : Res :=
  let id := 8 * die + core
  .next (if isBellows die = false ∨ 8 ≤ core ∨ s.coresOut.contains (die, core) ∨ s.sec.monOff = true ∨ s.bootDone = false ∨
      s.hasSecure die = false ∨ entry ≠ s.fld (secA 0x134) 26 0 ∨ s.sec.secure.contains id then s
    else { s with sec := { s.sec with secure := s.sec.secure ++ [id] } })

end Sys2Proof.Machine
end

