-- ==== Sys2Proof/Machine/Power.lean ====
section
/-! DEFINITION. Power states, power loss, loops, reset triggers and the steps of boot (R798 to R834, R899 to R903). -/
namespace Sys2Proof.Machine

/-! ### Power loss (R708, R801, R899) -/

/-- Both drones are `HALTED`. -/
def State.dronesHalted (s : State) : Bool := decide (s.droneState 6 = 6) && decide (s.droneState 7 = 6)

/-- The device reset of R801, once both drones are `HALTED`. -/
def State.failResetGo (s : State) : State :=
  if s.pwr.failReset = true ∧ s.dronesHalted = true then s.doReset .device 3 else s

/-- FLUSH_DONE (R708, R801). -/
def execFlushDone (die : Nat) (s : State) : Res :=
  .next (if isDrone die = false ∨ s.droneState die ≠ 5 then s else (s.flushDone die).failResetGo)

/-- Power is good again (R801). -/
def State.powerRise (s : State) : State :=
  { s with pwr := { s.pwr with failReset := true } }.failResetGo

/-- PWR_FAIL_RISE (R801). -/
def execPwrFailRise (s : State) : Res :=
  .next (if s.pwr.fail = false then s
    else
      let s1 := { s with pwr := { s.pwr with fail := false } }.setFld (pwrA 4 0x108) 10 10 0
      if s1.pwr.good then s1.powerRise else s1)

/-- PG_CORE_LOSS (R899): treated as a fall of PWR_FAIL_N, whose own level does not change. -/
def execPgCoreLoss (s : State) : Res :=
  .next (if s.pwr.state ≠ .on ∨ s.pwr.good = false then s
    else
      let s1 : State := { s with pwr := { s.pwr with good := false } }
      if s1.pwr.fail then s1
      else
        let s2 := s1.powerFall
        { s2 with pwr := { s2.pwr with fail := false } }.setFld (pwrA 4 0x108) 10 10 0)

/-! ### Loops (R812, R814) -/

/-- A loop of one die loses lock: its bit of CLK_PLL_STATUS and the interrupt (R832, R834). -/
def State.loopLost (s : State) (die n : Nat) : State :=
  (s.setFld (Blk.clk.at die die 0x104) n n 0).raise (Blk.clk.at die die 0) 0

/-- PLL_LOCK_LOSS (R814): `loop` is the bit of CLK_PLL_STATUS: a consort loop 0 to 7, a PHY or hub loop 16 to 19, and 31 for a
loss of CLK_25M, which takes every loop out of lock. The fault kind of a device-fatal loss is not stated: a free value. -/
def execPllLockLoss (die loop : Nat) (s : State) : Res :=
  .next (if loop = 31 then
      (let s1 := (List.range 8).foldl (fun (t : State) d => (t.setReg (Blk.clk.at d d 0x104) 0).raise (Blk.clk.at d d 0) 0) s
       let (k, s2) := s1.free 8
       (s2.goFatal { breath := 0, die := 4, kind := k }).tamper 2 true)
    else if 8 ≤ die then s
    else if loop < 8 then
      (if 4 ≤ die then s else (s.loopLost die loop).consortFault { die := die, k := loop, reed := none, kind := 0x0B })
    else if loop < 16 ∨ 20 ≤ loop then s
    else if die < 4 then (s.loopLost die loop).dieFault { breath := 0, die := die, kind := 6, action := 5 }
    else
      let (k, s1) := (s.loopLost die loop).free 8
      s1.goFatal { breath := 0, die := die, kind := k })

/-! ### Power states (R802 to R806, R902) -/

/-- Why a power-state request is refused, 0 where it is not (R803, R829). -/
def State.restRefused (s : State) : Nat :=
  if s.bootDone = false then 1
  else if s.isFatal then 2
  else if s.reqs.any (fun e => decide (e.2.state ≠ 0)) then 3
  else if s.fns.any (fun e => !e.2.h2f.isEmpty) then 4
  else if s.sessOps.any (fun o => o.running) then 5
  else 0

/-- Start an entry to `REST` (1) or `OFF` (2) (R804): `ready` and `run` clear. -/
def State.restStart (s : State) (v : Nat) : State :=
  let s1 : State := { s with pwr := { s.pwr with state := if v = 1 then .enteringRest else .enteringOff } }
  let s2 := ((s1.setFld (mbx 4 0x008) 0 0 0).setFld (mbx 5 0x008) 0 0 0).setFld (Blk.brth.at 4 4 0x008) 0 0 0
  s2.setReg (pwrA 4 0x110) (BitVec.ofNat 32 (2 ^ 31 + v))

/-- PWR_STATE_REQ (R803, R804, R826, R829). -/
def execPwrStateReq (who : Requester) (die : Nat) (value : Word) (s : State) : Res :=
  let v := fieldW value 1 0
  .next (s.gate who (pwrA die 0x10C) (fun s =>
    (if die ≠ 4 ∨ s.pwr.state = .enteringRest ∨ s.pwr.state = .enteringOff then s
    else
      let s1 := s.writeAt who .pwr 4 4 0x10C value
      if v = 0 ∨ v = 3 then s1.refuseAt who .pwr 4 4 0x10C
      else
        let r := s.restRefused
        if r ≠ 0 then (s1.setFld (pwrA 4 0x110) 10 8 r).raise (pwrA 4 0) 3
        else s1.restStart v)))

/-- A wake begins from `REST` or `OFF` (R805): the core rails are asked for. -/
def State.wakeStart (s : State) : State :=
  { s with pwr := { s.pwr with state := .booting, wakeFrom := s.pwr.state, en := true, good := false, wakePend := false } }

/-- A wake request (R805, R806): during entry it waits for the entry to complete. -/
def State.wake (s : State) : State :=
  match s.pwr.state with
  | .rest => s.wakeStart
  | .off => s.wakeStart
  | .enteringRest => { s with pwr := { s.pwr with wakePend := true } }
  | .enteringOff => { s with pwr := { s.pwr with wakePend := true } }
  | _ => s

/-- A drone halts at entry: it writes a checkpoint (R804). -/
def State.haltDrone (s : State) (d slots : Nat) : State :=
  let s1 := if s.droneState d = 3 ∨ s.droneState d = 4 then (s.flushAll d (2 * (s.drone d).buf.length + 1)).checkpoint d slots else s
  s1.setDroneState d 6

/-- Entry is complete (R804 to R806): the core rails are released, and the host links go down. -/
def State.entered (s : State) (p : PowerState) (a b : Nat) : State :=
  let s1 := (s.haltDrone 6 a).haltDrone 7 b
  let s2 : State := { s1 with fns := [], pwr := { s1.pwr with state := p, en := false, good := false } }
  let s3 := ((s2.setReg (pwrA 4 0x110) 0).setReg (Blk.host.at 4 4 0x100) 0).setReg (Blk.host.at 5 5 0x100) 0
  let s4 := if p = .rest then
      (List.range 12).foldl (fun (t : State) i => t.setFld (Blk.hbm.at (i / 3) (i % 3) 0x100) 30 30 1) s3
    else s3
  let s5 := s4.ibi 6
  if s1.pwr.wakePend then s5.wake else s5

/-- POWER_STATE_ENTERED (R804, R844): the drones' checkpoints are written, with the slots they take. -/
def execPowerStateEntered (slotsA slotsB : Nat) (s : State) : Res :=
  .next (match s.pwr.state with
    | .enteringRest => s.entered .rest slotsA slotsB
    | .enteringOff => s.entered .off slotsA slotsB
    | _ => s)

/-- WAKE_N (R805). -/
def execWakeN (s : State) : Res := .next s.wake

/-- A wake waits for PG_CORE. -/
def State.waking (s : State) : Bool := decide (s.pwr.state = .booting) && s.pwr.en && !s.pwr.good

/-- The straps as sampled: BOOT_WIDTH in [1:0], IO_SLEW in [3:2] (R900). -/
def State.strapped (s : State) (v : Nat) : State := { s with pwr := { s.pwr with straps := v % 16 } }

/-- PG_CORE_GOOD (R805, R815, R900): the device boots; the straps are sampled. In `ON`, the end of a loss of PG_CORE is the
rise of R801. -/
def execPgCoreGood (straps : Nat) (s : State) : Res :=
  .next (if s.waking then
      (let k : ResetKind := if s.pwr.wakeFrom = .rest then .wakeRest else .wakeOff
       (s.doReset k 4).strapped straps)
    else if s.pwr.state = .on ∧ s.pwr.good = false then
      (let s1 : State := { s with pwr := { s.pwr with good := true } }
       if s1.pwr.fail then s1 else s1.powerRise)
    else s)

/-- PG_CORE_TIMEOUT (R902): the wake is abandoned. -/
def execPgCoreTimeout (s : State) : Res :=
  .next (if s.waking then { s with pwr := { s.pwr with state := s.pwr.wakeFrom, en := false } } else s)

/-! ### Reset triggers (R815, R830) -/

/-- POWER_ON (R815, R900). -/
def execPowerOn (straps : Nat) (s : State) : Res :=
  .next ((s.doReset .powerOn 0).strapped straps)

/-- RESET_N (R806, R815): ignored in `REST` and `OFF`, where power is not good. -/
def execResetN (s : State) : Res :=
  .next (if s.pwr.good = false then s else s.doReset .device 0)

/-- A write of PWR_RESET (R830). -/
def State.resetWrite (s : State) (who : Requester) (die : Nat) (value : Word) : State :=
  if die ≠ 4 then s
  else
    let s1 := s.writeAt who .pwr 4 4 0x114 value
    if fieldW value 31 16 ≠ 0xA5C3 then s1.refuseAt who .pwr 4 4 0x114
    else match fieldW value 1 0 with
      | 1 => s1.doReset .warm 1
      | 2 => s1.doReset .device 1
      | _ => s1.refuseAt who .pwr 4 4 0x114

/-- PWR_RESET_WARM: a write of PWR_RESET (R818, R830). -/
def execPwrResetWarm (who : Requester) (die : Nat) (value : Word) (s : State) : Res :=
  .next (s.gate who (pwrA die 0x114) (fun s => s.resetWrite who die value))

/-- PWR_RESET_DEVICE: a write of PWR_RESET (R815, R830). -/
def execPwrResetDevice (who : Requester) (die : Nat) (value : Word) (s : State) : Res :=
  .next (s.gate who (pwrA die 0x114) (fun s => s.resetWrite who die value))

/-! ### DRAM at boot (R739, R817, R822, R823) -/

/-- A chanter fails its boot tests: it stays offline; a second one halts boot in `FATAL` (R739). -/
def State.chanterFail (s : State) (r : FaultRec) : State :=
  let s1 := if s.pwr.failed.contains r.die then s else { s with pwr := { s.pwr with failed := s.pwr.failed ++ [r.die] } }
  if 2 ≤ s1.pwr.failed.length then { s1 with pwr := { s1.pwr with halted := true } }.goFatal r
  else
    let s2 := s1.faultPost { r with action := 0 }
    if s2.isFatal then s2 else s2.setFld (topA 0x300) 31 30 1

/-- STACK_TRAINING_DONE (R255, R822, R887): the chanter's stacks have been trained, but for those in `failed`. -/
def execStackTrainingDone (chanter : Nat) (failed : List Nat) (s : State) : Res :=
  let page (st : Nat) : Nat := Blk.hbm.at chanter st 0
  let one (t : State) (st : Nat) : State :=
    let bad := failed.contains st
    let w := BitVec.ofNat 32 ((if bad then 2 ^ 29 else 2 ^ 31) + (3 * chanter + st) * 2 ^ 8)
    let t1 := t.setReg (page st + 0x100) (w ||| (t.reg (page st + 0x100) &&& 0x00FF0000))
    if bad then t1.raise (page st) 2 else t1
  .next (if 4 ≤ chanter ∨ s.pwr.state ≠ .booting ∨ s.pwr.good = false ∨ s.rbit (topA 0x204) (8 + chanter) = true ∨
      s.pwr.failed.contains chanter = true then s
    else
      let s1 := one (one (one s 0) 1) 2
      if failed.any (fun st => decide (st < 3)) then s1.chanterFail { breath := 0, die := chanter, kind := 6 }
      else
        let s2 := s1.setFld (topA 0x204) (8 + chanter) (8 + chanter) 1
        if s2.pwr.clearing.contains chanter then s2 else s2.setFld (topA 0x204) chanter chanter 1)

/-- DRAM_CLEAR_DONE (R255, R817). -/
def execDramClearDone (chanter : Nat) (s : State) : Res :=
  .next (if 4 ≤ chanter ∨ s.rbit (topA 0x204) (8 + chanter) = false ∨ s.pwr.clearing.contains chanter = false ∨
      s.pwr.failed.contains chanter = true then s
    else
      let lo := dramPhys chanter 0
      let s1 : State := { s with
        mem := SMap.dropRange s.mem lo chanterBytes
        flip := SMap.dropRange s.flip (lo / 8) (chanterBytes / 8)
        pwr := { s.pwr with clearing := s.pwr.clearing.filter (fun c => decide (c ≠ chanter)) } }
      s1.setFld (topA 0x204) chanter chanter 1)

/-- DRAM_REFRESH (R823, R887). -/
def execDramRefresh (chanter stack : Nat) (s : State) : Res :=
  .next (if 4 ≤ chanter ∨ 3 ≤ stack ∨ s.rbit (Blk.hbm.at chanter stack 0x100) 31 = false then s
    else s.cntAdd .hbm chanter stack 0x048 1)

end Sys2Proof.Machine
end

