-- ==== Sys2Proof/Machine/Mgmt.lean ====
section
/-! DEFINITION. The management chain, self-test and test access (R835 to R862). -/
namespace Sys2Proof.Machine

/-- A register of MGMT_ on bellows-A. -/
def mgmtA (off : Nat) : Nat := Blk.mgmt.at 4 4 off

/-- Change the management target. -/
def State.setMgmt (s : State) (m : Mgmt) : State := { s with mgmt := m }

/-- The answer to a directed CCC, for a device that holds an address. -/
def State.ccc (s : State) (v : Nat) : State := if s.mgmt.addr.isNone then s else { s with readData := v }

/-! ### The chain (R835 to R838) -/

/-- ENTDAA (R837). -/
def execEntdaa (addr : Nat) (s : State) : Res :=
  .next (if s.mgmt.addr.isSome ∨ s.mgmt.left = true ∨ 128 ≤ addr then s
    else s.setMgmt { s.mgmt with addr := some addr, hjPend := false, hjWait := 0 })

/-- RSTDAA, broadcast (R837, R838): the address and the event enables go. -/
def execRstdaa (s : State) : Res := .next (s.setMgmt { s.mgmt with addr := none, ibiOn := false, hjOn := true })

/-- SETNEWDA (R835). -/
def execSetnewda (addr : Nat) (s : State) : Res :=
  .next (if s.mgmt.addr.isNone ∨ 128 ≤ addr then s else s.setMgmt { s.mgmt with addr := some addr })

/-- The provisional ID (R835). -/
def State.pid (s : State) : Nat := Config.vendorMipi % 2 ^ 15 * 2 ^ 33 + 2 ^ 32 + s.sec.serial % 2 ^ 32

/-- GETPID (R835). -/
def execGetpid (s : State) : Res := .next (s.ccc s.pid)
/-- GETBCR (R835). -/
def execGetbcr (s : State) : Res := .next (s.ccc 0x0E)
/-- GETDCR (R835). -/
def execGetdcr (s : State) : Res := .next (s.ccc 0)
/-- GETSTATUS (R835): the spec does not state the I3C status word: a free value. -/
def execGetstatus (s : State) : Res := .next (if s.mgmt.addr.isNone then s else let (v, s1) := s.free 16; s1.ccc v)
/-- GETMWL (R835). -/
def execGetmwl (s : State) : Res := .next (s.ccc s.mgmt.mwl)
/-- GETMRL (R835): the maximum read length, and the IBI payload of 1 byte above it. -/
def execGetmrl (s : State) : Res := .next (s.ccc (s.mgmt.mrl + 2 ^ 16))
/-- SETMWL (R835): below 64 it is not acknowledged. -/
def execSetmwl (n : Nat) (s : State) : Res :=
  .next (if s.mgmt.addr.isNone ∨ n < 64 ∨ 2 ^ 16 ≤ n then s else s.setMgmt { s.mgmt with mwl := n })
/-- SETMRL (R835). -/
def execSetmrl (n : Nat) (s : State) : Res :=
  .next (if s.mgmt.addr.isNone ∨ n < 64 ∨ 2 ^ 16 ≤ n then s else s.setMgmt { s.mgmt with mrl := n })
/-- GETMXDS (R835): the code of its speeds is that of the I3C standard, outside the spec: a free value. -/
def execGetmxds (s : State) : Res := .next (if s.mgmt.addr.isNone then s else let (v, s1) := s.free 16; s1.ccc v)

/-- ENEC (R844): target interrupts and Hot-Join that the controller enables. -/
def execEnec (int hj : Bool) (s : State) : Res :=
  .next (s.setMgmt { s.mgmt with ibiOn := s.mgmt.ibiOn || int, hjOn := s.mgmt.hjOn || hj })
/-- DISEC (R837). -/
def execDisec (int hj : Bool) (s : State) : Res :=
  .next (s.setMgmt { s.mgmt with ibiOn := s.mgmt.ibiOn && !int, hjOn := s.mgmt.hjOn && !hj })

/-- HOT_JOIN (R837): a request, acknowledged or not; the wait before the next one doubles up to 64 ms. -/
def execHotJoin (acked : Bool) (s : State) : Res :=
  let m := s.mgmt
  .next (if m.addr.isSome ∨ m.left = true ∨ m.hjOn = false then s
    else (s.setMgmt { m with
        hjPend := !acked, hjWait := if acked then 0 else if m.hjWait = 0 then 1 else min (2 * m.hjWait) 64 }).cntAdd .mgmt 4 4 0x048 1)

/-! ### Frames (R839 to R842) -/

/-- One bit of the CRC with polynomial 0x07 (R839). -/
def crcBit (c : Nat) : Nat := if 128 ≤ c then ((2 * c) ^^^ 0x07) % 256 else 2 * c

/-- CRC-8 over bytes, from 0x00 (R839). -/
def crc8 (bs : List Byte) : Nat :=
  bs.foldl (fun c b => (List.range 8).foldl (fun x _ => crcBit x) ((c ^^^ b.toNat) % 256)) 0

/-- A reply frame (R839). -/
def replyFrame (status tag : Nat) (payload : List Byte) : List Byte :=
  let body := leBytes 1 status ++ leBytes 1 tag ++ leBytes 2 payload.length ++ payload
  body ++ leBytes 1 (crc8 body)

/-- A frame is accepted: an unread reply is lost, and the new one stands (R840, R857). -/
def State.mgmtReply (s : State) (status tag : Nat) (payload : List Byte) : State :=
  let s1 := s.cntAdd .mgmt 4 4 0x030 1
  let s2 := if s1.mgmt.reply.isSome then s1.cntAdd .mgmt 4 4 0x050 1 else s1
  s2.setMgmt { s2.mgmt with reply := some (replyFrame status tag payload) }

/-- Run a command frame: the device must hold an address, and the payload must have its size and no reserved bit set (R840 to
R842); `k` gives the status, the reply payload and what the command does once its reply stands. -/
def State.mgmtCmd (s : State) (tag n size : Nat) (payload : List Byte) (rsvd : Bool)
    (k : State → Nat × List Byte × (State → State)) : State :=
  if s.mgmt.addr.isNone then s
  else if n ≠ size ∨ payload.length ≠ size ∨ rsvd = true then s.mgmtReply 3 tag []
  else
    let (st, out, f) := k s
    f (s.mgmtReply st tag out)

/-- The power state byte (R842). -/
def PowerState.code : PowerState → Nat
  | .on => 0
  | .enteringRest => 1
  | .rest => 2
  | .enteringOff => 3
  | .off => 4
  | .booting => 5

/-- IDENT (R841). -/
def execIdent (tag n : Nat) (payload : List Byte) (s : State) : Res :=
  .next (s.mgmtCmd tag n 0 payload false (fun s =>
    (0, leBytes 8 s.sec.serial ++ leBytes 2 0x0412 ++ leBytes 1 Config.revision ++ leBytes 1 s.lifeCycle ++
      leBytes 4 (s.reg (secA 0x10C)).toNat ++ leBytes 4 (s.reg (topA 0x300)).toNat ++ leBytes 1 s.pwr.state.code ++ leBytes 11 0,
     id)))

/-- Consorts that the planner is offered (R809, R843). -/
def State.planned (s : State) : Nat :=
  ((List.range 4).map (fun c => s.planOffer c)).sum

/-- The telemetry record (R843): fields of the main domain read 0 outside `ON`. -/
def State.telem (s : State) : List Byte :=
  if s.pwr.state ≠ .on then leBytes 48 0
  else
    let st := pwrA 4 0x108
    let age := (List.range 8).foldl (fun m d => max m (s.reg (embA d 0x104)).toNat) 0
    leBytes 8 s.breath.number ++ leBytes 2 (s.fld (pwrA 4 0x104) 15 0) ++ leBytes 1 (s.fld st 31 24) ++ leBytes 1 (s.fld st 3 0) ++
      leBytes 1 (s.fld (topA 0x204) 3 0 + 16 * s.fld st 9 9 + 32 * s.fld st 8 8 + 64 * s.fld st 10 10) ++ leBytes 1 s.planned ++
      leBytes 2 s.faults.length ++ leBytes 4 (s.entriesUsed 4 + s.entriesUsed 5) ++
      leBytes 4 (s.fld (sesA 4 0x100) 23 0 + s.fld (sesA 5 0x100) 23 0) ++ leBytes 4 age ++ leBytes 1 (s.droneState 6) ++
      leBytes 1 (s.droneState 7) ++ leBytes 2 0 ++ leBytes 8 (s.count (topA 0x030)) ++
      leBytes 8 (min (s.count (droneA 6 0x060) + s.count (droneA 7 0x060)) cntMax)

/-- TELEM (R843). -/
def execTelem (tag n : Nat) (payload : List Byte) (s : State) : Res :=
  .next (s.mgmtCmd tag n 0 payload false (fun s => (0, s.telem, id)))

/-- WAKE (R805, R806, R842). -/
def execWake (tag n : Nat) (payload : List Byte) (s : State) : Res :=
  .next (s.mgmtCmd tag n 0 payload false (fun s => if s.pwr.state = .on then (4, [], id) else (0, [], State.wake)))

/-- A payload field. -/
def payFld (p : List Byte) (off n : Nat) : Nat := leOf ((p.drop off).take n)

/-- RESET (R815, R841, R842): 3 bytes, key and kind. -/
def execReset (tag n : Nat) (payload : List Byte) (s : State) : Res :=
  let kind := payFld payload 2 1
  .next (s.mgmtCmd tag n 3 payload false (fun s =>
    if s.pwr.state ≠ .on then (4, [], id)
    else if payFld payload 0 2 ≠ 0xA5C3 ∨ (kind ≠ 1 ∧ kind ≠ 2) then (6, [], id)
    else (0, [], fun t => t.doReset (if kind = 1 then .warm else .device) 2)))

/-- LEAVE (R837, R842): it takes effect when its reply has been read. -/
def execLeave (tag n : Nat) (payload : List Byte) (s : State) : Res :=
  .next (s.mgmtCmd tag n 0 payload false (fun _ => (0, [], fun t => t.setMgmt { t.mgmt with leaving := true })))

/-- MGMT_REPLY_READ (R840): a private read returns the reply frame. -/
def execMgmtReplyRead (s : State) : Res :=
  .next (match s.mgmt.addr, s.mgmt.reply with
    | some _, some r =>
      let m := { s.mgmt with reply := none }
      { s with
        readData := leOf r
        mgmt := if m.leaving then { m with leaving := false, left := true, addr := none } else m }
    | _, _ => s)

/-- MGMT_UNKNOWN_COMMAND (R839, R842): a frame with a bad CRC, or with a command that is not in R841. -/
def execMgmtUnknownCommand (frame : List Byte) (s : State) : Res :=
  let body := frame.dropLast
  let tag := payFld frame 1 1
  .next (if s.mgmt.addr.isNone ∨ frame.length < 5 then s
    else if crc8 body ≠ leOf (frame.drop (frame.length - 1)) then (s.mgmtReply 1 tag []).cntAdd .mgmt 4 4 0x038 1
    else if payFld frame 0 1 = 0 ∨ 7 < payFld frame 0 1 then s.mgmtReply 2 tag []
    else s)

/-- Events in sending order (R844). -/
def ibiOrder : List Nat := [2, 3, 4, 1, 5, 6]

/-- IBI (R844): the first pending event is sent; without an acknowledgement it stays pending. -/
def execIbi (acked : Bool) (s : State) : Res :=
  .next (match ibiOrder.find? (fun c => s.mgmt.ibi.contains c) with
    | none => s
    | some c =>
      if acked = false ∨ s.mgmt.addr.isNone ∨ s.mgmt.ibiOn = false then s
      else
        let s1 := (s.setMgmt { s.mgmt with ibi := s.mgmt.ibi.filter (fun x => decide (x ≠ c)) }).cntAdd .mgmt 4 4 0x040 1
        { s1 with readData := c })

/-! ### Self-test (R845 to R852) -/

/-- A start is refused (R850). -/
def State.bistRefused (s : State) (die scope k p : Nat) : Bool :=
  decide (8 ≤ die) || decide (p < 10) || decide (20 < p) ||
    (match scope with
     | 0 => if die < 4 then s.online die else s.bootDone
     | 1 => decide (4 ≤ die) || decide (8 ≤ k) || decide (s.consState die k ≠ 3)
     | 2 => decide (4 ≤ die) || decide (8 ≤ k) || decide (s.fld (consA die k) 25 24 = 1)
     | _ => true)

/-- The controller of a die runs. -/
def State.bistBusy (s : State) (die : Nat) : Bool := (SMap.get (fun _ => none) s.bist die).isSome

/-- Start a run (R859, R860). -/
def State.bistStart (s : State) (die scope k p src : Nat) : State :=
  let s1 : State := { s with bist := SMap.set (fun _ => none) s.bist die (some { scope := scope, consort := k, patterns := p, source := src }) }
  (s1.setFld (bistA die 0x00C) 31 31 1).setFld (bistA die 0x00C) 1 0 src

/-- BIST_START (R841, R842, R850): die slot, scope, consort and log2 patterns. -/
def execBistStart (tag n : Nat) (payload : List Byte) (s : State) : Res :=
  let die := payFld payload 0 1
  let scope := payFld payload 1 1
  let k := payFld payload 2 1
  let p := payFld payload 3 1
  .next (s.mgmtCmd tag n 4 payload (decide (4 ≤ scope)) (fun s =>
    if s.pwr.state ≠ .on then (4, [], id)
    else if s.bistBusy die then (5, [], id)
    else if s.bistRefused die scope k p then (6, [], id)
    else (0, [], fun t => t.bistStart die scope k p 1)))

/-- A write of BIST_CTRL (R850, R859). -/
def State.bistGo (s : State) (who : Requester) (die : Nat) (value : Word) : State :=
  s.gate who (bistA die 0x008) (fun s =>
    (if 8 ≤ die then s
    else
      let s1 := s.writeAt who .bist die die 0x008 value
      if value.getLsbD 31 = false then s1
      else if s.bistBusy die ∨ s.bistRefused die (fieldW value 17 16) (fieldW value 10 8) (fieldW value 4 0) then
        s1.refuseAt who .bist die die 0x008
      else s1.bistStart die (fieldW value 17 16) (fieldW value 10 8) (fieldW value 4 0) (if who = .jtag then 2 else 0)))

/-- BIST_GO: a write of BIST_CTRL (R850, R859). -/
def execBistGo (who : Requester) (die : Nat) (value : Word) (s : State) : Res := .next (s.bistGo who die value)

/-- BIST_RESULT (R841): the last run of a die. -/
def execBistResult (tag n : Nat) (payload : List Byte) (s : State) : Res :=
  let die := payFld payload 0 1
  .next (s.mgmtCmd tag n 1 payload (decide (8 ≤ die)) (fun s =>
    let w (off : Nat) : List Byte := leBytes 4 (s.reg (bistA die off)).toNat
    (0, if s.pwr.state ≠ .on then leBytes 32 0
        else w 0x100 ++ w 0x104 ++ w 0x108 ++ w 0x10C ++ w 0x110 ++ w 0x114 ++ leBytes 1 (s.fld (bistA die 0x00C) 18 16) ++ leBytes 7 0,
     id)))

/-- Zero every word that a run has tested (R847). -/
def State.bistZero (s : State) (die : Nat) (b : BistRun) : State :=
  let lo (r : Nat) : Nat := reedSram ⟨die, b.consort, r⟩ 0
  let clear (t : State) (a n : Nat) : State := { t with mem := SMap.dropRange t.mem a n, flip := SMap.dropRange t.flip (a / 8) (n / 8) }
  match b.scope with
  | 0 => clear s (sramBase + die * 2 ^ 32) (2 ^ 32)
  | 1 => clear s (lo 0) (17 * 2 ^ 22)
  | _ => clear s (lo 16) (2 ^ 22)

/-- The result of a run that was not aborted (R846, R848): signature, expected value of ROM for P of 12, 16 and 20, rows left. -/
def bistResultOf (p : Nat) (x : BistInfo) : Nat :=
  let expect := if p = 12 ∨ p = 16 ∨ p = 20 then x.expected else 0
  if x.left ≠ 0 then 2 else if expect = 0 then 3 else if x.signature = expect then 1 else 2

/-- BIST_DONE (R739, R846 to R849, R858). -/
def execBistDone (die : Nat) (x : BistInfo) (s : State) : Res :=
  .next (match SMap.get (fun _ => none) s.bist die with
    | none => s
    | some b =>
      if x.aborted then s.bistEnd die 4
      else
        let expect : DWord := if b.patterns = 12 ∨ b.patterns = 16 ∨ b.patterns = 20 then x.expected else 0
        let res := bistResultOf b.patterns x
        let put (t : State) (off v : Nat) : State :=
          (t.setReg (bistA die off) (BitVec.ofNat 32 v)).setReg (bistA die (off + 4)) (BitVec.ofNat 32 (v / 2 ^ 32))
        let s1 := put (put (put s 0x100 x.signature.toNat) 0x108 expect.toNat) 0x110
          (x.found % 2 ^ 16 * 2 ^ 48 + x.repaired % 2 ^ 16 * 2 ^ 32 + x.left % 2 ^ 16 * 2 ^ 16 + x.tested % 2 ^ 16)
        let r : FaultRec := { breath := s.breath.number, die := die, kind := 2, action := 2
                              consort := if b.scope = 0 then 0xFF else b.consort, unit := if b.scope = 2 then 16 else 0xFF }
        let s2 := (s1.bistZero die b).bistEnd die res
        let s3 : State := { s2 with
          health := s2.health ++ List.replicate x.repaired r
          spareOk := if b.scope = 2 then SMap.set (fun _ => true) s2.spareOk (8 * die + b.consort) (decide (res ≠ 2)) else s2.spareOk }
        if res = 2 ∧ b.scope = 0 ∧ die < 4 ∧ s.bootDone = false then s3.chanterFail { breath := 0, die := die, kind := 1 } else s3)

/-! ### JTAG (R853 to R856) -/

/-- Load an instruction register: the value captured into it is shifted out (R853). -/
def State.loadIr (s : State) (code : Nat) : State :=
  { s with mgmt := { s.mgmt with ir := code }, readData := 1 + 4 * b2n s.mgmt.noEffect }

/-- Load EXTEST, CLAMP or HIGHZ, which act as BYPASS unless `RESET_N` is low and the rails are within tolerance (R855). -/
def State.loadDrive (s : State) (code : Nat) (resetLow rails : Bool) : State :=
  let s1 := s.loadIr code
  { s1 with mgmt := { s1.mgmt with noEffect := !(resetLow && rails) } }

/-- EXTEST (R854, R855). -/
def execExtest (resetLow rails : Bool) (s : State) : Res := .next (s.loadDrive 0x00 resetLow rails)
/-- SAMPLE/PRELOAD (R854). -/
def execSamplePreload (s : State) : Res := .next (s.loadIr 0x01)
/-- CLAMP (R854, R855). -/
def execClamp (resetLow rails : Bool) (s : State) : Res := .next (s.loadDrive 0x03 resetLow rails)
/-- HIGHZ (R854, R855). -/
def execHighz (resetLow rails : Bool) (s : State) : Res := .next (s.loadDrive 0x04 resetLow rails)
/-- An instrument of a die can be reached: the instruction is loaded, the die's segment is inserted, and the debug level opens the
instruments (R778, R856). -/
def State.instrument (s : State) (die : Nat) : Bool :=
  decide (s.mgmt.ir = 0x10) && decide (die < 8) && s.mgmt.sibs.testBit die && s.jtagOpen

/-- The fuse instrument opens only at level 2 in `BLANK` or `DEVELOP` (R856). -/
def State.fuseOpen (s : State) : Bool := s.instrument 4 && decide (2 ≤ s.debugLevel) && decide (s.lifeCycle ≤ 1)

/-- The bank that holds a row is in reach of an instrument: secure banks from level 2 (R778). -/
def State.rowOpen (s : State) (m : MemRef) (row : Nat) : Bool :=
  decide (row < m.banks * m.rows) && (decide (s.bankState m (row / m.rows) ≠ 3) || decide (2 ≤ s.debugLevel))

/-- The die of an address of the SRAM window. -/
def sramDie (a : Nat) : Nat := if a < sramBase then 8 else bits (sramOff a) 34 32

/-- IJTAG_ACCESS (R197, R778, R854, R856). Fuses gain bits and lose none (DEDUCED, log entry 205); what the loop observation reads is not
stated: a free value. -/
def execIjtagAccess (s : State) (op : IjtagOp := .select) : Res :=
  .next (match op with
    | .select => s.loadIr 0x10
    | .sibs m => if s.mgmt.ir = 0x10 then { s with mgmt := { s.mgmt with sibs := m % 2 ^ 8 } } else s
    | .bistGo die v => if s.instrument die then s.bistGo .jtag die v else s
    | .bistReg die off => if s.instrument die then { s with readData := (s.reg (bistA die (off % 4096))).toNat } else s
    | .delay die n =>
      if s.instrument die then { s with readData := SMap.get (fun _ => 0) s.monDelay (64 * die + n % 64) } else s
    | .loop die => if s.instrument die then (let (v, s1) := s.free 32; { s1 with readData := v }) else s
    | .repair m row =>
      if s.instrument m.die ∧ s.rowOpen m row = true ∧ SMap.get (fun _ => 0) s.spareRows (m.subBank row) < 4 then s.rowSpare m row else s
    | .sramRead a n =>
      if s.instrument (sramDie a) then
        (match s.readDev .jtag none a n with
         | .ok bs => { s.noteDev .jtag none false a n with readData := leOf bs }
         | .error _ => { s.noteDev .jtag none false a n with readData := 0 })
      else s
    | .sramWrite a bs => if s.instrument (sramDie a) then s.writeSeen .jtag none a bs else s
    | .ownerWrite n h =>
      if s.fuseOpen ∧ n < 4 then
        { s with sec := { s.sec with owner := s.sec.owner.set n (s.sec.owner.getD n 0 ||| (h % 2 ^ 384)) } } else s
    | .ownerRead n => if s.fuseOpen ∧ n < 4 then { s with readData := s.sec.owner.getD n 0 } else s
    | .serial => if s.fuseOpen then { s with readData := s.sec.serial } else s)
/-- BYPASS (R854). -/
def execBypass (s : State) : Res := .next (s.loadIr 0xFF)
/-- IDCODE (R854): the register it selects is read. -/
def execIdcode (s : State) : Res :=
  .next { s.loadIr 0x02 with
    readData := Config.revision / 16 % 16 * 2 ^ 28 + 0x0412 * 2 ^ 12 + Config.vendorJep % 2 ^ 11 * 2 + 1 }
/-- TRST_N (R853, R854): the TAP is reset, and IDCODE is loaded. -/
def execTrstN (s : State) : Res := .next { s with mgmt := { s.mgmt with ir := 0x02, sibs := 0, noEffect := false } }

end Sys2Proof.Machine
end

