-- ==== Sys2Proof/Machine/Packer.lean ====
section
/-! DEFINITION. The pipeline packer (R630 to R640). -/
namespace Sys2Proof.Machine

/-! ### Stores, records and templates (R630, R631, R635) -/

/-- The 64-byte descriptor with which firmware registered a passage store (R630). -/
structure Store where
  b : List Byte
  deriving DecidableEq, Repr

/-- A field of it. -/
def Store.f (t : Store) (off n : Nat) : Nat := fieldOf t.b off n
/-- Bytes of a record's vector, rounded up to 64 (R631). -/
def Store.vb (t : Store) : Nat := alignUp (t.f 18 2 * (if t.f 16 1 = 5 then 2 else 1)) 64

/-- A store record, where it is not missing (R632): its id lies in the store and the record carries it. -/
def Store.record (t : Store) (id : Nat) (tile : List Byte) : Option (List Byte) :=
  if id < t.f 8 8 ∧ fieldOf tile 0 8 = id then some tile else none

/-- The token ids of a record's view: A, or B. -/
def Store.view (t : Store) (viewB : Bool) (tile : List Byte) : List Nat :=
  let na := fieldOf tile 8 2
  let off := 64 + t.vb + (if viewB then 4 * na else 0)
  (List.range (if viewB then fieldOf tile 10 2 else na)).map (fun i => fieldOf tile (off + 4 * i) 4)

/-- A template: its header and its runs. -/
structure Template where
  head : List Byte
  runs : List (List Nat)
  deriving DecidableEq, Repr

/-- A run of a template: 0 head, 1 q_pre, 2 q_post, 3 p_pre, 4 p_post, 5 tail. -/
def Template.run (t : Template) (i : Nat) : List Nat := t.runs.getD i []

/-- Read a template at a bellows SRAM offset (R634, R635). -/
def State.readTemplate (s : State) (die part off : Nat) : TextM Template := do
  let h ← s.tread die part 0x23 0x23 4 (bellowsAddr die off) 64
  let ls := (List.range 6).map (fun i => fieldOf h (2 * i) 2)
  let bs ← s.tread die part 0x23 0x23 4 (bellowsAddr die (off + 64)) (4 * ls.sum)
  let start (i : Nat) : Nat := (ls.take i).sum
  pure { head := h, runs := (List.range 6).map (fun i =>
    (List.range (ls.getD i 0)).map (fun j => fieldOf bs (4 * (start i + j)) 4)) }

/-! ### Packing (R635, R636) -/

/-- What packing has done: passages placed, with the ids kept, and its counts. -/
structure Packed where
  placed : List (List Nat) := []
  left : Nat := 0
  capped : Nat := 0
  cut : Nat := 0
  skipped : Nat := 0
  deriving DecidableEq, Repr

/-- Place the candidates in rank order (R636): 0 `CUT`, 1 `SKIP`, 2 `STOP`. -/
def packStep (trunc cap w : Nat) : List (List Nat) → Packed → Packed
  | [], p => p
  | c :: cs, p =>
    let n := min c.length cap
    let big := b2n (decide (cap < c.length))
    if n + w ≤ p.left then
      packStep trunc cap w cs { p with placed := p.placed ++ [c.take n], left := p.left - n - w, capped := p.capped + big }
    else if trunc = 0 then
      (if w < p.left then { p with placed := p.placed ++ [c.take (p.left - w)], left := 0, cut := p.cut + 1, capped := p.capped + big } else p)
    else if trunc = 1 then packStep trunc cap w cs { p with skipped := p.skipped + 1 }
    else p

/-- The packed sequence of a template, a query and the candidates; none where the fixed part exceeds the budget. -/
def packSeq (t : Template) (budget trunc cap : Nat) (q : List Nat) (cands : List (List Nat)) : Option (List Nat × Packed) :=
  let fixed := (t.run 0).length + (t.run 1).length + q.length + (t.run 2).length + (t.run 5).length
  if budget < fixed then none
  else
    let p := packStep trunc cap ((t.run 3).length + (t.run 4).length) cands { left := budget - fixed }
    let fl := fieldOf t.head 12 1
    let order := if bit fl 1 then p.placed.reverse else p.placed
    let qs := t.run 1 ++ q ++ t.run 2
    let ps := order.flatMap (fun c => t.run 3 ++ c ++ t.run 4)
    some (t.run 0 ++ (if bit fl 0 then ps ++ qs else qs ++ ps) ++ t.run 5, p)

/-! ### Descriptors (R639, R640) -/

/-- The status record. -/
def packStatus (ids missing code : Nat) (p : Packed) : List Byte :=
  leBytes 4 ids ++ leBytes 2 p.placed.length ++ leBytes 2 p.capped ++ leBytes 2 p.cut ++ leBytes 2 p.skipped ++ leBytes 2 missing ++
    leBytes 1 code ++ [0]

/-- A descriptor keeps R639. -/
def packOk (v : Nat) : Bool :=
  let op := dfld v 0 1
  decide (op < 3) && decide (dfld v 1 1 < 2) && decide (dfld v 2 1 < 16) &&
  (if op = 1 then decide (dfld v 3 1 < 3) else decide (dfld v 3 1 = 0)) && decide (dfld v 36 4 < 16) && decide (dfld v 56 8 = 0) &&
  (if op = 0 then decide (dfld v 40 8 % 4096 = 0) else if op = 1 then decide (dfld v 40 8 % 4 = 0 ∧ dfld v 40 8 < 2 ^ 27)
    else decide (dfld v 40 8 % 64 = 0))

/-- The ids of the first `n_use` entries of the input list (R383, R632). -/
def State.packList (s : State) (die part v : Nat) : TextM (List Nat) := do
  let h ← s.tread die part 0x23 0x23 8 (dfld v 8 8) 32
  let n := dfld v 16 2
  if fieldOf h 0 2 < n then throw 0x23
  else
    let bs ← s.tread die part 0x23 0x23 8 (dfld v 8 8 + 32) (24 * n)
    pure ((List.range n).map (fun i => fieldOf bs (24 * i) 8))

/-- The records of a list of ids; `bad` names entries whose flash read is uncorrectable. -/
def State.packRecords (s : State) (t : Store) (bad : List Nat) (ids : List Nat) : Except Nat (List (Option (List Byte))) :=
  let obj := t.f 0 8
  let read (q : Nat × Nat) : Except Nat (Option (List Byte)) :=
    if t.f 8 8 ≤ q.1 then .ok none
    else if bad.contains q.2 || (match s.flashCode obj with
      | some c => s.unitBad c obj q.1
      | none => false) then .error 0x20
    else .ok (t.record q.1 (s.flashBytes obj (4096 * q.1) 4096))
  ids.zipIdx.foldl (fun (acc : Except Nat (List (Option (List Byte)))) q =>
    match acc, read q with
    | .ok l, .ok r => .ok (l ++ [r])
    | .error c, _ => .error c
    | _, .error c => .error c) (.ok [])

/-- Write bytes to one chanter-local offset of every chanter in a mask (R632, R637). -/
def State.packWrite (s : State) (die part mask off : Nat) (bs : List Byte) : Except Nat State :=
  ((List.range 4).filter (fun c => mask.testBit c)).foldl (fun (acc : Except Nat State) c =>
    match acc with
    | .error e => .error e
    | .ok t => t.uwrite die part 0x23 0x23 1 (c * chanterBytes + off) bs) (.ok s)

/-- The view of the store that a template's vocabulary names, if its versions agree (R636, R638). -/
def State.packView (s : State) (die uid : Nat) (t : Store) (m : Template) : Option Bool :=
  let v := fieldOf m.head 13 1 % 16
  let ver := fieldOf m.head 16 4
  let bound := match s.boundVer 2 die v uid with
    | some w => decide (w.version = ver)
    | none => false
  if bound = false then none
  else if t.f 20 1 % 16 = v then (if t.f 24 4 = ver then some false else none)
  else if bit (t.f 21 1) 7 = false ∧ t.f 21 1 % 16 = v then (if t.f 28 4 = ver then some true else none)
  else none

/-- Op 0: fetch (R632). -/
def State.packFetch (s : State) (die part v : Nat) (t : Store) (bad : List Nat) : TextM State := do
  let ids ← s.packList die part v
  let rs ← tstep (s.packRecords t bad ids)
  let blank : List Byte := List.replicate 8 0xFF ++ List.replicate 4088 0
  let s1 ← tstep (rs.zipIdx.foldl (fun (acc : Except Nat State) q => match acc with
    | .error e => .error e
    | .ok u => u.packWrite die part (dfld v 36 4) (dfld v 40 8 + 4096 * q.2) (q.1.getD blank)) (.ok s))
  tstep (s1.uwrite die part 0x23 0x23 8 (dfld v 48 8) (packStatus 0 (rs.countP (fun r => r.isNone)) 0 {}))

/-- The query ids of a descriptor. -/
def State.packQuery (s : State) (die part v : Nat) : TextM (List Nat) := do
  let n := min (dfld v 28 4) (dfld v 26 2)
  let bs ← s.tread die part 0x23 0x23 4 (bellowsAddr die (dfld v 32 4)) (4 * n)
  pure ((List.range n).map (fun i => fieldOf bs (4 * i) 4))

/-- Op 1: pack the prompt (R636); `room` is the size of the prompt buffer in ids. -/
def State.packPrompt (s : State) (die part uid v : Nat) (t : Store) (off : Nat) (bad : List Nat) (room : Nat) : TextM State := do
  let ids ← s.packList die part v
  let m ← s.readTemplate die part off
  match s.packView die uid t m with
  | none => throw 0x22
  | some viewB =>
    let rs ← tstep (s.packRecords t bad ids)
    let q ← s.packQuery die part v
    match packSeq m (dfld v 20 4) (dfld v 3 1) (dfld v 24 2) q ((rs.filterMap id).map (fun r => t.view viewB r)) with
    | none => throw 0x21
    | some (seq, p) =>
      if room < seq.length then throw 0x24
      else
        let s1 ← tstep (s.uwrite die part 0x23 0x23 4 (bellowsAddr die (dfld v 40 8)) (seq.flatMap (fun i => leBytes 4 i)))
        tstep (s1.uwrite die part 0x23 0x23 8 (dfld v 48 8) (packStatus seq.length (rs.countP (fun r => r.isNone)) 0 p))

/-- One re-ranker input, with the counts so far (R637). -/
def pairStep (t : Store) (m : Template) (viewB : Bool) (v : Nat) (q : List Nat) (acc : Except Nat (List (List Nat) × Packed))
    (r : Option (List Byte)) : Except Nat (List (List Nat) × Packed) :=
  match acc, r with
  | .error e, _ => .error e
  | .ok a, none => .ok (a.1 ++ [[]], a.2)
  | .ok a, some b =>
    match packSeq m (dfld v 20 4) 0 (dfld v 24 2) q [t.view viewB b] with
    | none => .error 0x21
    | some (seq, p) => .ok (a.1 ++ [seq], { a.2 with placed := a.2.placed ++ p.placed, capped := a.2.capped + p.capped, cut := a.2.cut + p.cut })

/-- Op 2: one re-ranker input per entry (R637). -/
def State.packPairs (s : State) (die part uid v : Nat) (t : Store) (off : Nat) (bad : List Nat) : TextM State := do
  let ids ← s.packList die part v
  let m ← s.readTemplate die part off
  match s.packView die uid t m with
  | none => throw 0x22
  | some viewB =>
    let rs ← tstep (s.packRecords t bad ids)
    let q ← s.packQuery die part v
    let (seqs, p) ← tstep (rs.foldl (pairStep t m viewB v q) (.ok ([], {})))
    let sz := alignUp (4 * dfld v 20 4) 64
    let s1 ← tstep (seqs.zipIdx.foldl (fun (acc : Except Nat State) e => match acc with
      | .error c => .error c
      | .ok u =>
        match u.packWrite die part (dfld v 36 4) (dfld v 40 8 + e.2 * sz) (e.1.flatMap (fun i => leBytes 4 i)) with
        | .error c => .error c
        | .ok w => w.packWrite die part (dfld v 36 4) (dfld v 40 8 + seqs.length * sz + 4 * e.2) (leBytes 4 e.1.length)) (.ok s))
    tstep (s1.uwrite die part 0x23 0x23 8 (dfld v 48 8) (packStatus (seqs.map List.length).sum (rs.countP (fun r => r.isNone)) 0 p))

/-- A descriptor of the packer fails: its status record takes the code, its request fails with err_src 9, and the step carries
`fault` (R447, R640). -/
def State.packFail (s : State) (die : Nat) (r : URun) (v err : Nat) : State :=
  let code := errCode err
  let s0 := s.noteErr die r.part err
  let s1 := match s0.uwrite die r.part 0x23 0x23 8 (dfld v 48 8) (packStatus 0 0 code {}) with
    | .ok t => t
    | .error _ => s0
  let s2 := s1.stepFlag r.uid
  match s2.reqNamed (dfld v 4 4) with
  | some i => s2.reqOutcome i r.uid 5 9 code
  | none => s2

/-- Carry out a packer descriptor: fetch, pack or pairs (R632, R636, R637). -/
def State.packRun (s : State) (die : Nat) (r : URun) (v : Nat) (store : Option (List Byte)) (tmpl : Option Nat) (bad : List Nat)
    (room : Nat) : TextM State :=
  if packOk v = false ∨ (s.textReq die (dfld v 4 4)).isNone = true then throw 0x23
  else match store, tmpl with
    | none, _ => throw 0x23
    | some b, t =>
      if dfld v 0 1 = 0 then s.packFetch die r.part v ⟨b⟩ bad
      else match t with
        | none => throw 0x23
        | some off => if dfld v 0 1 = 1 then s.packPrompt die r.part r.uid v ⟨b⟩ off bad room else s.packPairs die r.part r.uid v ⟨b⟩ off bad

/-- Serve the packer's next descriptor where `sel` takes its op. -/
def State.packServe (s : State) (die : Nat) (sel : Nat → Bool) (store : Option (List Byte)) (tmpl : Option Nat) (bad : List Nat)
    (room : Nat) : State :=
  match s.runOf die 3 with
  | none => s
  | some r =>
    if r.ended ∨ r.hold then s
    else match s.nextDesc die 0x23 0x23 r with
      | .error c => ((s.noteErr die r.part c).stepFault r.uid 9 (errCode c) 0).runNext die 3 true
      | .ok v =>
        if sel (dfld v 0 1) = false then s
        else
          let s0 := s.noteIns die r.part [(r.list + 64 * r.idx, 64)]
          (match s0.noted die r.part (fun t => t.packRun die r v store tmpl bad room) with
           | (.ok t, _) => t
           | (.error c, t) => t.packFail die r v c).runNext die 3 (bit v 8)

/-- PACK_FETCH (R632): `store` is the registered descriptor of the store that the descriptor names. -/
def execPackFetch (die : Nat) (store : Option (List Byte)) (bad : List Nat) (s : State) : Res :=
  .next (if isBellows die then s.packServe die (fun op => decide (op = 0 ∨ 2 < op)) store none bad 0 else s)

/-- PACK_PACK (R636): `tmpl` is the SRAM offset of the template, `room` the ids that the prompt buffer holds. -/
def execPackPack (die : Nat) (store : Option (List Byte)) (tmpl : Option Nat) (bad : List Nat) (room : Nat) (s : State) : Res :=
  .next (if isBellows die then s.packServe die (fun op => decide (op = 1)) store tmpl bad room else s)

/-- PACK_PAIRS (R637). -/
def execPackPairs (die : Nat) (store : Option (List Byte)) (tmpl : Option Nat) (bad : List Nat) (s : State) : Res :=
  .next (if isBellows die then s.packServe die (fun op => decide (op = 2)) store tmpl bad 0 else s)

end Sys2Proof.Machine
end

