-- ==== Sys2Proof/Machine/Repro.lean ====
section
/-! DEFINITION. The comparison of two runs of a request (R483 to R485) and the publish command of the host (R330, R669). -/
namespace Sys2Proof.Machine

/-- Device address of the payload's report (R483). -/
def Repro.report (p : Repro) : Nat := p.cmd.fld 16 8

/-- The payload keeps R483. -/
def reproOk (c : HCmd) : Bool :=
  decide (c.fld 8 2 < 32) && decide (c.fld 10 2 < 2) && decide (c.fld 16 8 % 64 = 0) && decide (c.fld 24 8 = 0) &&
    (if bit (c.fld 8 2) 4 then decide (10000 ≤ c.fld 12 4) else decide (c.fld 12 4 = 0))

/-- The request descriptor of both runs: `no_deadline` gives it the policy `CONTINUE` and no fallback (R483). -/
def reproDesc (c : HCmd) (d : List Byte) : List Byte :=
  if bit (c.fld 10 2) 0 then
    d.take 2 ++ leBytes 2 0xFFFF ++ leBytes 1 (withBits (leOf ((d.drop 4).take 1)) 4 3 0) ++ d.drop 5
  else d

/-- Submit one run; the answer of the submission stays with firmware. The request id, or none where it is refused. -/
def State.reproSubmit (s : State) (p : Repro) : Option Nat × State :=
  let t := s.submit p.cmd p.work p.desc
  if t.reply.status = 0 then (some (t.reply.addr % 2 ^ 32), { t with reply := s.reply })
  else (none, { t with reply := s.reply })

/-- A session-bound request, or one of more than 65,536 tokens, is refused (R484). -/
def reproRefuses (d : List Byte) : Bool :=
  decide (leOf ((d.drop 5).take 1) = 1) || decide (65536 < leOf ((d.drop 16).take 4))

/-- REPRO_CHECK (R483, R484): run 1 is submitted as the request would be. -/
def execReproCheck (c : HCmd) (desc : Option (List Byte)) (wd : WorkInfo) (s : State) : Res :=
  .next (s.hostRun c 32 true (fun s =>
    if reproOk c = false then s.answer c 0xF1 0 0
    else match desc with
      | none => s.answer c 0xF2 0 0
      | some d =>
        if wd.bytes = none ∨ d.length ≠ 64 then s.answer c 0xF2 0 0
        else
          let p : Repro := { cmd := c, desc := reproDesc c d, work := wd }
          if reproRefuses d then { s with repros := s.repros ++ [{ p with refused := true }] }
          else match s.reproSubmit p with
            | (some id, t) => { t with repros := t.repros ++ [{ p with run1 := id }] }
            | (none, t) => { t with repros := t.repros ++ [{ p with refused := true }] }))

/-- A run has ended: its entry is terminal, or holds another request by now (R484). -/
def State.runEnded (s : State) (id : Nat) : Bool :=
  match s.reqNamed id with
  | none => true
  | some i => (s.req i).terminal

/-- The comparison of a command, by function and tag. -/
def State.reproOf (s : State) (fn tag : Nat) : Option Repro :=
  s.repros.find? (fun p => decide (p.cmd.fn = fn) && decide (p.cmd.tag = tag))

/-- REPRO_RUN2_START (R484): run 2 gives the host nothing. -/
def execReproRun2Start (fn tag : Nat) (s : State) : Res :=
  .next (match s.reproOf fn tag with
    | none => s
    | some p =>
      if p.refused ∨ p.run2 ≠ 0 ∨ p.failed ∨ s.runEnded p.run1 = false then s
      else
        let put (t : State) (q : Repro) : State := { t with repros := t.repros.map (fun (e : Repro) => if e = p then q else e) }
        match s.reproSubmit p with
        | (none, t) => put t { p with failed := true }
        | (some id, t) =>
          let t1 := match t.reqNamed id with
            | some i => t.modReq i (fun r => { r with quiet := true, recDone := true })
            | none => t
          put t1 { p with run2 := id })

/-! ### The comparison (R479, R484, R485) -/

/-- The versions of an id that a run bound, in order, repeats dropped: tokens before, version, mark. -/
def RunLog.versions (g : RunLog) (kind id : Nat) : List (Nat × Nat × Nat) :=
  (g.binds.filter (fun b => decide (b.2.1 = kind) && decide (b.2.2.1 = id))).foldl (fun l b =>
    let x := (b.1, b.2.2.2.1, b.2.2.2.2)
    match l.getLast? with
    | some y => if y.2 = x.2 then l else l ++ [x]
    | none => [x]) []

/-- The token at which two such sequences part. -/
def partAt : List (Nat × Nat × Nat) → List (Nat × Nat × Nat) → Option Nat
  | [], [] => none
  | x :: _, [] => some x.1
  | [], y :: _ => some y.1
  | x :: xs, y :: ys => if x.2 = y.2 then partAt xs ys else some (min x.1 y.1)

/-- Where a comparison stops: tokens before, and the bit of the cause: a fallback switch or cancel (1), an index version or its mark
(2), another version (4), a failed run (8). -/
def reproStops (a b : RunLog) : List (Nat × Nat) :=
  let keys := ((a.binds ++ b.binds).map (fun x => (x.2.1, x.2.2.1))).eraseDups
  (a.cut.toList ++ b.cut.toList).map (fun n => (n, 1)) ++
    keys.filterMap (fun k => (partAt (a.versions k.1 k.2) (b.versions k.1 k.2)).map (fun n => (n, if k.1 = 1 then 2 else 4))) ++
    (if a.failed then [(a.toks.length, 8)] else []) ++ (if b.failed then [(b.toks.length, 8)] else [])

/-- The token at which a comparison stops, none where it goes to the end. -/
def reproLimit (a b : RunLog) : Option Nat :=
  match (reproStops a b).map (fun x => x.1) with
  | [] => none
  | n :: ns => some (ns.foldl min n)

/-- The cause bits of the stops at that token. -/
def reproCause (a b : RunLog) : Nat :=
  ((reproStops a b).filter (fun x => decide (some x.1 = reproLimit a b))).foldl (fun m x => m ||| x.2) 0

/-- The token ids and the text of a run that are compared. -/
def RunLog.upTo (g : RunLog) (limit : Option Nat) : List Nat × List Byte :=
  match limit with
  | none => (g.toks.map (fun x => x.1), g.text)
  | some n => ((g.toks.take n).map (fun x => x.1), g.text.take (((g.toks.take n).getLast?.map (fun x => x.2)).getD 0))

/-- The first place at which two lists differ. -/
def firstDiff {α : Type} [DecidableEq α] : List α → List α → Option Nat
  | [], [] => none
  | x :: xs, y :: ys => if x = y then (firstDiff xs ys).map (fun n => n + 1) else some 0
  | _, _ => some 0

/-- The status and cause of a report (R485). -/
def reproStatus (p : Repro) (x : ReproInfo) : Nat × Nat :=
  let lim := reproLimit p.log1 p.log2
  let u := p.log1.upTo lim
  let v := p.log2.upTo lim
  if p.refused then (3, 0)
  else if p.failed then (2, 8)
  else if firstDiff u.1 v.1 ≠ none ∨ firstDiff u.2 v.2 ≠ none then (1, 0)
  else if lim ≠ none then (2, reproCause p.log1 p.log2)
  else if x.outputs then (1, 0)
  else (0, 0)

/-- Distinct versions that a run bound (R485). -/
def RunLog.bindings (g : RunLog) : Nat := ((g.binds.map (fun b => (b.2.1, b.2.2.1, b.2.2.2.1))).eraseDups).length

/-- The 64 bytes of a report (R485). -/
def reproBytes (p : Repro) (x : ReproInfo) : List Byte :=
  let (st, cause) := reproStatus p x
  let lim := reproLimit p.log1 p.log2
  let u := p.log1.upTo lim
  let v := p.log2.upTo lim
  leBytes 1 st ++ leBytes 1 cause ++
    (if p.refused then leBytes 2 0 ++ leBytes 4 0xFFFFFFFF ++ leBytes 4 0xFFFFFFFF ++ leBytes 12 0
     else leBytes 2 p.log1.bindings ++ leBytes 4 ((firstDiff u.1 v.1).getD 0xFFFFFFFF) ++ leBytes 4 ((firstDiff u.2 v.2).getD 0xFFFFFFFF) ++
       leBytes 4 (min u.1.length v.1.length) ++ leBytes 4 (min u.2.length v.2.length) ++
       leBytes 4 (x.perturbDone &&& p.cmd.fld 8 2)) ++ List.replicate 40 0

/-- REPRO_REPORT (R485, R669): the report, then the command's answer. -/
def execReproReport (fn tag : Nat) (x : ReproInfo) (s : State) : Res :=
  .next (match s.reproOf fn tag with
    | none => s
    | some p =>
      if p.refused = false ∧ p.failed = false ∧ (p.run2 = 0 ∨ s.runEnded p.run2 = false) then s
      else
        let s1 : State := { s with repros := s.repros.erase p }
        s1.answerBlock p.cmd p.report (reproBytes p x) 0)

/-! ### VER_PUBLISH (R330, R669) -/

/-- A unit's publish of a version (R328, R365, R405). -/
def State.publishOn (s : State) (kind die id lo : Nat) : State :=
  match kind with
  | 0 => s.publishTable die id lo
  | 1 => s.publishIndex die id lo
  | 2 => (s.noteVer 2 die 128).publish 2 die id lo ((s.readVerDesc 2 die 128).bind (fun x => if id < 16 ∧ vocabDescOk id x then some x else none))
  | _ => (s.noteVer 3 die 64).publish 3 die id lo ((s.readVerDesc 3 die 64).bind (fun x => if gramDescOk id x then some x else none))

/-- Largest id of a kind (R296, R340, R405). -/
def verIdTop : Nat → Nat
  | 0 => 1023
  | 1 => 63
  | 2 => 15
  | _ => 4095

/-- Firmware publishes on one die (R330): the descriptor address, then the publish; the result code and the version. -/
def State.publishAt (s : State) (kind die id ahead desc : Nat) : Nat × Nat × State :=
  let b := verBlk kind
  let s1 := (s.setReg (b.at die die 0x100) (BitVec.ofNat 32 desc)).setReg (b.at die die 0x104) (BitVec.ofNat 32 (desc / 2 ^ 32))
  let s2 := s1.publishOn kind die id ((s.breath.number + ahead) % 2 ^ 16)
  (s2.fld (b.at die die 0x10C) 2 0, ((s2.dir kind die).slots.getLast?.map (fun v => v.version)).getD 0, s2)

/-- The publishes of all dies in ascending order: the first result other than 0, the version, and the dies that accepted. -/
def State.publishEach (s : State) (kind id ahead desc : Nat) : List Nat → Nat × Nat × List Nat × State
  | [] => (0, 0, [], s)
  | d :: ds =>
    let (r, v, t) := s.publishAt kind d id ahead desc
    let (r2, v2, l, u) := State.publishEach t kind id ahead desc ds
    (if r = 0 then r2 else r, if r = 0 then v else v2, if r = 0 then d :: l else l, u)

/-- VER_PUBLISH (R330, R336, R669). -/
def execVerPublish (c : HCmd) (s : State) : Res :=
  let kind := c.fld 0 1
  let id := c.fld 2 2
  let ahead := c.fld 4 4
  let desc := c.fld 8 8
  .next (s.hostRun c 16 true (fun s =>
    if 4 ≤ kind ∨ c.fld 1 1 ≠ 0 ∨ verIdTop kind < id ∨ desc % 64 ≠ 0 ∨ (if kind < 2 then 2 ^ 48 else 2 ^ 27) ≤ desc then s.answer c 1 0 0
    else if ahead = 0 then s.answer c 2 0 0
    else if 1024 < ahead then s.answer c 5 0 0
    else
      let (r, v, l, t) := s.publishEach kind id ahead desc (s.verDies kind)
      if r ≠ 0 then t.answer c r 0 0
      else
        let u : State := { t with pubs := t.pubs ++ [{ kind := kind, id := id, version := v, fn := c.fn, left := l }] }
        u.answer c 0 0 (s.breath.number + ahead)))

end Sys2Proof.Machine
end

