-- ==== Sys2Proof/Machine/Sng.lean ====
section
/-! DEFINITION. The generators' check registers and known-answer tests (R455 to R469). -/
namespace Sys2Proof.Machine

/-- Whether a die has a generator instance. -/
def sngThere (die i : Nat) : Bool := decide (die < 4 ∧ i < 8) || decide (isBellows die = true ∧ i = die)

/-- A register of a generator. -/
def sngA (die i off : Nat) : Nat := Blk.sng.at die i off

/-- Two registers as a 64-bit number. -/
def State.pair (s : State) (a : Nat) : DWord := (s.reg (a + 4)) ++ (s.reg a)

/-- The check that the input registers ask for: output and state (R455, R456). -/
def State.sngCheck (s : State) (die i : Nat) : Word × DWord :=
  let x := rngState (s.pair (sngA die i 0x100)) (s.pair (sngA die i 0x108)) (s.pair (sngA die i 0x110)).toNat
  (rngOut x, x)

/-- SNG_CHK_GO (R467): ignored and recorded while a check runs. -/
def execSngChkGo (who : Requester) (die i : Nat) (value : Word) (s : State) : Res :=
  .next (s.gate who (sngA die i 0x118) (fun s =>
    (if sngThere die i = false then s
    else if s.rbit (sngA die i 0x00C) 31 then s.refuseWrite who .sng die i 0x118 value
    else
      let s1 := s.writeAt who .sng die i 0x118 value
      if value.getLsbD 0 then s1.setFld (sngA die i 0x00C) 31 31 1 else s1)))

/-- SNG_CHK_DONE (R467): SNG_CHK_OUT and SNG_CHK_STATE change together. -/
def execSngChkDone (die i : Nat) (s : State) : Res :=
  let (o, x) := s.sngCheck die i
  .next (if sngThere die i = false ∨ s.rbit (sngA die i 0x00C) 31 = false then s
    else
      let s1 := ((s.setReg (sngA die i 0x11C) o).setReg (sngA die i 0x120) (x.setWidth 32)).setReg (sngA die i 0x124)
        ((x >>> 32).setWidth 32)
      ((s1.setFld (sngA die i 0x00C) 31 31 0).cntAdd .sng die i 0x038 1).raise (sngA die i 0) 1)

/-- SNG_KAT (R465): the outputs that the instance gave for rows 1 and 2 of the known-answer table. -/
def execSngKat (die i : Nat) (out1 out2 : Word) (s : State) : Res :=
  let st := sngA die i 0x00C
  .next (if sngThere die i = false then s
    else if out1 = 0xA3BCA2D4 ∧ out2 = 0x68A6676C then (s.setFld st 0 0 1).setFld st 1 1 0
    else
      let s1 := (s.setFld st 1 0 3).raise (sngA die i 0) 0
      if die < 4 then s1.consortFault { die := die, k := i, reed := none, kind := 0x0A }
      else
        let other := 9 - die
        let r : FaultRec := { breath := 0, die := die, kind := 0x0A }
        if s1.rbit (sngA other other 0x00C) 1 then s1.goFatal r else s1.faultPost r)

end Sys2Proof.Machine
end

