-- ==== Sys2Proof/Machine/Registers.lean ====
section
/-! DEFINITION. Register accesses: a write to any register (R11 to R14, R650, R863 to R867, R872 to R876), INT_FORCE, the
clearing of saturated counters and of the register-error record, and the read of a counter's low word (R746, R880). -/
namespace Sys2Proof.Machine

/-! ### Selected registers -/

/-- The local bucket that PART_SEL selects (R613). -/
def State.selBucket (s : State) (die : Nat) : Nat := s.fld (partA die 0x100) 9 8

/-- The partition that PART_SEL selects (R613). -/
def State.selPart (s : State) (die : Nat) : Nat := s.fld (partA die 0x100) 5 0

/-- The key under which the word at offset `off` of a block stands, which an index register may select (R612, R613, R674);
none where the selection names nothing. -/
def State.regKey (s : State) (b : Blk) (die i off : Nat) : Option Nat :=
  let a := b.at die i off
  match b with
  | .part =>
    if 0x104 ≤ off ∧ off ≤ 0x110 then
      (if bucketsOf die ≤ s.selBucket die then none else some (bank a (4 * s.selPart die + s.selBucket die)))
    else if off = 0x120 ∨ off = 0x124 ∨ off = 0x128 ∨ 0x200 ≤ off then some (bank a (s.selPart die))
    else if off = 0x134 then some (bank a (s.fld (partA die 0x130) 8 0))
    else some a
  | .host =>
    if 0x114 ≤ off then some (bank a (s.fld (Blk.host.at die die 0x110) 8 0)) else some a
  | _ => some a

/-! ### Values a register refuses (R874) -/

/-- `v` lies from `lo` to `hi`. -/
def within (lo hi v : Nat) : Bool := decide (lo ≤ v) && decide (v ≤ hi)

/-- The sum of a field of PART_RSV over the partitions of a die, with `v` in place of partition `p`'s word (R586, R589). -/
def State.rsvSum (s : State) (die p hi lo : Nat) (v : Word) : Nat :=
  ((List.range 64).map (fun q => fieldW (if q = p then v else s.reg (bank (partA die 0x124) q)) hi lo)).sum

/-- A value of PART_RSV is admitted (R586, R589). -/
def State.rsvOk (s : State) (die : Nat) (v : Word) : Bool :=
  if isChanter die then
    within 0 8 (fieldW v 3 0) && within (fieldW v 3 0) 8 (fieldW v 19 16) &&
      decide (s.rsvSum die (s.selPart die) 3 0 v ≤ if s.online die then s.offered die else 0)
  else if isBellows die then
    within 0 32768 (fieldW v 15 0) && within (fieldW v 15 0) 32768 (fieldW v 31 16) &&
      decide (s.rsvSum die (s.selPart die) 15 0 v ≤ 32768)
  else true

/-- A bucket's rate and burst are admitted together (R581). -/
def bktOk (rate burst : Nat) : Bool := decide (rate ≤ burst) && decide (burst < 2 ^ 31)

/-- A BAR4 size code (R674). -/
def bar4Code (n : Nat) : Bool := decide (n = 0) || within 30 41 n

/-- A write of the whole word `v` is admitted by the register's own rule: otherwise it is ignored and recorded. -/
def State.valueOk (s : State) (b : Blk) (die i off : Nat) (v : Word) : Bool :=
  match b with
  | .brth => !decide (die = 4 ∧ off = 0x138) || within 8 20 (fieldW v 4 0)
  | .reed => !decide (off = 0x1A4) || decide (fieldW v 15 0 ≠ 0)
  | .top =>
    if off = 0x200 ∧ die = 4 then within 0 144 (fieldW v 7 0)
    else if off = 0x304 ∧ die = 4 then decide (fieldW v 11 8 ≠ 0) && decide (fieldW v 3 0 ≠ 0)
    else true
  | .horn => !decide (off = 0x100) || (List.range 16).all (fun p => decide (s.ringLeft die i p = 0))
  | .sng => !(within 0x100 0x114 off && s.rbit (sngA die i 0x00C) 31)
  | .reqt => !decide (off = 0x108) || decide (fieldW v 23 16 ≠ 0)
  | .sess => !decide (off = 0x108) || (within 1 256 (fieldW v 24 16) && within 0 100 (fieldW v 6 0))
  | .part =>
    if off = 0x104 then bktOk v.toNat (s.reg (bktA die (s.selPart die) (s.selBucket die) 0x108)).toNat
    else if off = 0x108 then bktOk (s.reg (bktA die (s.selPart die) (s.selBucket die) 0x104)).toNat v.toNat
    else if off = 0x124 then s.rsvOk die v
    else true
  | .host => !decide (off = 0x108) || (bar4Code (fieldW v 13 8) && bar4Code (fieldW v 5 0))
  | .drone =>
    if off = 0x100 then decide (fieldW v 15 0 < fieldW v 31 16) &&
      decide (s.fld (Blk.drone.at die die 0x10C) 15 8 < fieldW v 15 0)
    else if off = 0x104 then decide (fieldW v 15 0 ≠ 0)
    else if off = 0x108 then within 1 255 (fieldW v 23 16) && within 1 120 (fieldW v 15 0)
    else if off = 0x10C then within 1 100 (fieldW v 6 0) &&
      decide (fieldW v 15 8 < s.fld (Blk.drone.at die die 0x100) 15 0)
    else if off = 0x110 then decide (fieldW v 31 16 ≠ 0) && within 64 4096 (fieldW v 15 0)
    else if off = 0x114 then within 7 50 (fieldW v 6 0)
    else true
  | .emb => !decide (off = 0x100) || (within 0 12 (fieldW v 19 16) && decide (fieldW v 15 8 < fieldW v 7 0))
  | .sec => !decide (die = 4 ∧ off = 0x110) || decide (fieldW v 1 0 ≠ 3)
  | .pwr => !decide (off = 0x100) || (within 300 1500 (fieldW v 10 0) && within 10 200 (fieldW v 23 16))
  | .clk => !decide (off = 0x100) || decide (fieldW v 2 1 ≠ 3)
  | .mgmt => !decide (off = 0x508) || decide (fieldW v 15 0 ≠ 0)
  | _ => true

/-- An offset of a bellows-A register that bellows-B does not write: it reads 0, or in SEC_ the value of bellows-A (R791, R857). -/
def onlyA (b : Blk) (die off : Nat) : Bool :=
  decide (die = 5) &&
    match b with
    | .sec => decide (0x100 ≤ off) && !within 0x200 0x208 off
    | .mgmt => within 0x100 0x10C off
    | _ => false

/-! ### Effects beside the stored word -/

/-- The offset of a unit's STATUS register whose error fields the `error` bit of INT_STATUS clears (R298, R339, R378, R402,
R453). -/
def unitStatus : Blk → Option Nat
  | .horn => some 0x104
  | .serp => some 0x118
  | .panp => some 0x118
  | .mouth => some 0x118
  | .bell => some 0x118
  | .keyw => some 0x118
  | .picc => some 0x100
  | _ => none

/-- What clearing bits of INT_STATUS clears beside them; the position of a Horn that is busy is again the one it serves (R298). -/
def State.intCleared (s : State) (b : Blk) (die i : Nat) (v : Word) : State :=
  match unitStatus b with
  | some off =>
    if v.getLsbD 0 then
      (let t := s.setFld (b.at die i off) 30 0 0
       match (if b = .horn then (t.horn die i).job else none) with
       | some jb => t.setFld (b.at die i off) 12 8 jb.pos
       | none => t)
    else s
  | none => if b = .sess ∧ v.getLsbD 2 then s.setFld (sesA die 0x00C) 29 29 0 else s

/-- The offsets of the low words of a block's counters (R217, R218, R877). -/
def cntOffs (b : Blk) (die : Nat) : List Nat :=
  (List.range (blkSpec b die).cnt).map (fun n => 0x030 + 8 * n) ++
  (match b with
   | .reed => [0x1A8]
   | .mgmt => [0x0E0, 0x0E8, 0x0F0, 0x0F8, 0x510]
   | _ => [])

/-- Clear the counters whose bits of CNT_OVF are written as 1 (R746). -/
def State.ovfClear (s : State) (who : Requester) (b : Blk) (die i : Nat) (v : Word) : State :=
  (cntOffs b die).foldl (fun (t : State) off =>
      if v.getLsbD (ovfBit b off) then { t with cnt := SMap.set (fun _ => 0) t.cnt (b.at die i off) 0 } else t)
    (s.writeAt who b die i 0x028 v)

/-- Set the bits of INT_STATUS that a write of INT_FORCE names (R872). -/
def State.intForce (s : State) (who : Requester) (b : Blk) (die i : Nat) (v : Word) : State :=
  let a := b.at die i 0x010
  (s.writeAt who b die i 0x018 v).setReg a (s.reg a ||| (v &&& BitVec.ofNat 32 (blkSpec b die).int))

/-- A write to a bellows's TOP_REG_ERR_HI: a 1 in `valid` clears both words (R880). -/
def State.regErrClear (s : State) (who : Requester) (die : Nat) (v : Word) : State :=
  let s1 := s.writeAt who .top die die 0x504 v
  if v.getLsbD 31 then (s1.setReg (Blk.top.at die die 0x500) 0).setReg (Blk.top.at die die 0x504) 0 else s1

/-- The reserved bits of word `n` of a directory entry (R530). -/
def sessReserved (n : Nat) : Word :=
  if n = 1 then 0x00FC8000 else if n = 2 then 0xFC00FFC0 else if n = 14 ∨ n = 15 then 0xFFFFFFFF else 0

/-- The entry that 64 bytes spell; the turns that wait stay as they are (R530, R543). -/
def Sess.ofBytes (x : Sess) (bs : List Byte) : Sess :=
  let f (off n : Nat) : Nat := leOf ((bs.drop off).take n)
  { x with
    gen := f 0 5, state := f 5 1 % 8, dest := f 5 1 / 8 % 4, rolledBack := bit (f 5 1) 5, damaged := bit (f 5 1) 6
    mode := f 6 1 % 4, part := f 8 1 % 64, fn := f 10 2 % 1024, req := f 12 4, warm := f 16 8, cold := f 24 8
    tokens := f 32 4, turns := f 36 4, imageKib := f 40 4, model := f 44 2, parked := f 48 8 }

/-- A write of word `n` of the entry window of SESS_ (R563): firmware alone writes it. -/
def State.sessEntryWrite (s : State) (who : Requester) (die n : Nat) (v : Word) : State :=
  let k := (die - 4) * 2 ^ 23 + s.fld (sesA die 0x10C) 22 0
  let off := 0x180 + 4 * n
  let s1 := if v &&& sessReserved n ≠ 0 then s.err who .sess (sesA die off) .reservedWrite else s
  match who with
  | .host _ => s1.refuseAt who .sess die die off
  | _ =>
    let bs := (s.ses k).bytes (s.queueRec k)
    s1.modSes k (fun x => x.ofBytes (bs.take (4 * n) ++ leBytes 4 (v &&& ~~~ sessReserved n).toNat ++ bs.drop (4 * n + 4)))

/-! ### A write of one 32-bit word -/

/-- The state that a command leaves. -/
def Res.after (s : State) : Res → State
  | .next t => t
  | _ => s

/-- A write to a register that the table gives a row of its own, as that row's command; none for the other registers. A write
that would need what the die measures (MEASURE_NOW, DRONE_FORMAT, PLAN_COMMIT) is that row's command alone. -/
def State.ownRow (s : State) (who : Requester) (b : Blk) (die i off : Nat) (v : Word) : Option State :=
  let go (r : Res) : Option State := some (Res.after s r)
  if off = 0x018 then some (s.intForce who b die i v)
  else if off = 0x028 then some (s.ovfClear who b die i v)
  else match b with
  | .reed =>
    let x : ReedRef := ⟨die, i / 17, i % 17⟩
    if off = 0x01C then some (s.excClear who x v)
    else if off = 0x110 then some (s.engineCtrl who x false v)
    else if off = 0x130 then some (s.engineCtrl who x true v)
    else if 0x180 ≤ off ∧ off < 0x1A0 then some (s.writeBankOwn who (.reed x) ((off - 0x180) / 4) v)
    else if off = 0x1A0 then go (execEccAddrClear who (.reed x) v s)
    else none
  | .mgmt =>
    if 0x400 ≤ off ∧ off < 0x500 then some (s.writeBankOwn who (.bellows die) ((off - 0x400) / 4) v)
    else if off = 0x504 then go (execEccAddrClear who (.bellows die) v s)
    else none
  | .sec =>
    if off = 0x200 ∨ off = 0x204 then some (s.writeSecureMap who die (decide (off = 0x204)) v)
    else if off = 0x104 then go (execSecLcReq who die v s)
    else if off = 0x108 then go (execSecBootDone who die v s)
    else if off = 0x118 then go (execSecSvnRaise who die v s)
    else if off = 0x11C then go (execSecRevoke who die v s)
    else if off = 0x128 then go (execSecKeyLoad who die v s)
    else if off = 0x4FC then go (execSecDbgResp63 who die v s)
    else if 0x400 ≤ off then some (if die = 4 ∧ s.sec.verifying = false then s.setReg (b.at die i off) v else s)
    else none
  | .brth =>
    if die ≠ 4 then none
    else if off = 0x008 then some (s.brthCtrl who die v)
    else if off = 0x104 then go (execBrthPeriodNext who die v s)
    else if off = 0x108 then go (execBrthGuard who die v s)
    else if off = 0x124 then some s
    else none
  | .top => if off = 0x504 then some (s.regErrClear who die v) else none
  | .serp =>
    if off = 0x108 then go (execSerpVerPublish who die v s)
    else if 0x140 ≤ off then some (s.writeCreg who die ((off - 0x140) / 4) v)
    else none
  | .panp => if off = 0x108 then go (execPanpVerPublish who die v s) else none
  | .mouth => if off = 0x108 then go (execMouthVerPublish who die v s) else none
  | .keyw => if off = 0x108 then go (execKeywVerPublish who die v s) else none
  | .horn => if off = 0x10C then go (execHornRingReset who die i v s) else none
  | .sng => if off = 0x118 then go (execSngChkGo who die i v s) else none
  | .cons => if off = 0x108 then go (execConsFence who die i v s) else none
  | .part => if off = 0x140 then go (execPartPreempt who die v s) else none
  | .reqt => if 0x180 ≤ off then go (execReqtEntryWrite who die ((off - 0x180) / 4) v s) else none
  | .sess =>
    if off = 0x008 then go (execSessRebuild who die v s)
    else if 0x180 ≤ off then some (s.sessEntryWrite who die ((off - 0x180) / 4) v)
    else none
  | .mbx =>
    if off = 0x008 then go (execMbxReady who die v s)
    else if off = 0x12C then go (execMbxSendNotice who die v s)
    else none
  | .drone => if off = 0x008 then (if v.getLsbD 1 then some s else go (execCkptNow who die v s)) else none
  | .emb => if off = 0x008 ∧ v.getLsbD 1 = true then some s else none
  | .pwr =>
    if off = 0x10C then go (execPwrStateReq who die v s)
    else if off = 0x114 then some (s.resetWrite who die v)
    else none
  | .bist => if off = 0x008 then go (execBistGo who die v s) else none
  | _ => none

/-- The word a write stores in a register with a rule of its own: ageing values only rise (R758), and the privileges of the
physical function of link B are held inverted (R674). -/
def State.wordFor (s : State) (b : Blk) (die off key : Nat) (v : Word) : Word :=
  if b = .emb ∧ (off = 0x104 ∨ 0x140 ≤ off) then (if v.toNat ≤ (s.reg key).toNat then s.reg key else v)
  else if b = .host ∧ off = 0x114 ∧ s.fld (Blk.host.at die die 0x110) 8 0 = 256 ∧ s.bifurcated die = true then v ^^^ 3
  else v

/-- A write of one word to a register of a block: as its own row's command, or by the access types of its fields (R11). -/
def State.regPut (s : State) (who : Requester) (b : Blk) (die i off : Nat) (v : Word) : State :=
  let a := b.at die i off
  match s.ownRow who b die i off v with
  | some t => t
  | none =>
    if onlyA b die off then s
    else if s.valueOk b die i off v = false then s.refuseWrite who b die i off v
    else match s.regKey b die i off with
      | none => s
      | some key =>
        let s1 := s.writeFields who b a key (s.wordFor b die off key v)
        if off = 0x010 then s1.intCleared b die i v
        else if b = .brth ∧ off = 0x140 then s1.recsRead (s.reg key).toNat (s1.reg key).toNat
        else s1

/-- A host function's own selection of an entry window (R650): the register and the bits it stores. -/
def privateSel (b : Blk) (off : Nat) : Option Nat :=
  if b = .reqt ∧ off = 0x104 then some 15 else if b = .sess ∧ off = 0x10C then some 23 else none

/-- A write of one word at an aligned register address (R650, R865, R866). -/
def State.regWrite32 (s : State) (who : Requester) (a : Nat) (v : Word) : State :=
  let die := a / 2 ^ 23
  let off := a % 4096
  let sel : Option (Nat × Nat) := match who, pageBlk die (a / 4096 % 2048) with
    | .host fn, some (b, _) => if s.manage fn then none else (privateSel b off).map (fun n => (fn, n))
    | _, _ => none
  match sel with
  | some (fn, n) => s.setFn fn { s.fn fn with sel := SMap.set (fun _ => 0) (s.fn fn).sel a (BitVec.ofNat 32 (v.toNat % 2 ^ n)) }
  | none => s.gate who a (fun t =>
      match pageBlk die (a / 4096 % 2048) with
      | none => t.badAccess who a 1 true
      | some (b, i) => if regRow b die off = none then t.badAccess who a 1 true else t.regPut who b die i off v)

/-! ### The commands -/

/-- REGISTER_WRITE (R11, R864): 32 bits at a multiple of 4, or 64 bits at a multiple of 8 as two words, the lower first; any
other width or alignment is a bad access. -/
def execRegisterWrite (who : Requester) (a width value : Nat) (s : State) : Res :=
  .next (if width = 4 ∧ a % 4 = 0 then s.regWrite32 who a (BitVec.ofNat 32 value)
    else if width = 8 ∧ a % 8 = 0 then
      (s.regWrite32 who a (BitVec.ofNat 32 value)).regWrite32 who (a + 4) (BitVec.ofNat 32 (value / 2 ^ 32))
    else s.gate who a (fun t => t.badAccess who a 0 true))

/-- The block page that a header register's address lies in, with the register's offset. -/
def hdrAt (a off : Nat) : Option (Blk × Nat) :=
  if a % 4096 = off then pageBlk (a / 2 ^ 23) (a / 4096 % 2048) else none

/-- INT_FORCE: a write of INT_FORCE of any block (R872). -/
def execIntForce (who : Requester) (a : Nat) (value : Word) (s : State) : Res :=
  .next (match hdrAt a 0x018 with
    | none => s
    | some (b, i) => s.gate who a (fun t => t.intForce who b (a / 2 ^ 23) i value))

/-- CNT_OVF_CLEAR: a write of CNT_OVF of any block (R746). -/
def execCntOvfClear (who : Requester) (a : Nat) (value : Word) (s : State) : Res :=
  .next (match hdrAt a 0x028 with
    | none => s
    | some (b, i) => s.gate who a (fun t => t.ovfClear who b (a / 2 ^ 23) i value))

/-- TOP_REG_ERR_CLEAR (R880). -/
def execTopRegErrClear (who : Requester) (die : Nat) (value : Word) (s : State) : Res :=
  .next (s.gate who (Blk.top.at die die 0x504) (fun t => if isBellows die then t.regErrClear who die value else t))

/-- COUNTER_LO_READ: the read returns the low word and latches the high word (R40, R650, R746, R866). -/
def execCounterLoRead (who : Requester) (a : Nat) (s : State) : Res :=
  let there := match pageBlk (a / 2 ^ 23) (a / 4096 % 2048) with
    | some (b, _) => (cntOffs b (a / 2 ^ 23)).contains (a % 4096)
    | none => false
  let filtered := match who with
    | .host fn => !s.manage fn
    | _ => false
  .next (if there = false then s
    else if filtered then { s with readData := 0 }
    else if s.unreachable who (a / 2 ^ 23) then { s.badAccess who a 2 false with readData := 0xFFFFFFFF }
    else { s with
      readData := s.count a % 2 ^ 32
      cntHi := SMap.set (fun _ => 0) s.cntHi a (BitVec.ofNat 32 (s.count a / 2 ^ 32)) })

end Sys2Proof.Machine
end

