-- ==== Sys2Proof/Machine/Revive.lean ====
section
/-! DEFINITION. Revives of sessions (R4, R5, R551 to R554): the image is checked, the turn placed, its pages, page lists, KV map,
history and grammar state written, or the turn fails. -/
namespace Sys2Proof.Machine

/-! ### The image (R551 item 1, R554) -/

/-- An image object can be read: its slot holds a key where it is wrapped (R789), its tags hold, and its fields keep R537. Gives the
bytes in clear, or the code of R554. -/
def State.checkImage (s : State) (id : Nat) : Except Nat (List Byte) :=
  match s.obj id with
  | none => .error 7
  | some o =>
    if o.lost then .error 7
    else
      let h := o.data.bytes 0 4096
      if bit (hdr h 7 1) 0 ∧ (s.keySlot (hdr h 128 4)).isNone then .error 6
      else match s.imageOf id with
        | none => .error 3
        | some img => if imageFieldsOk img then .ok img else .error 3

/-- A tag of the image or of its base fails: the security unit counts it. -/
def State.tagFails (s : State) (id : Nat) : Bool :=
  match s.obj id with
  | none => false
  | some o => bit (hdr (o.data.bytes 0 4096) 7 1) 0 && (s.keySlot (hdr (o.data.bytes 0 4096) 128 4)).isSome && (s.imageOf id).isNone

/-- The object of a session's committed image. -/
def Sess.image (x : Sess) : Nat := if x.cold ≠ 0 then x.cold else x.warm

/-- A revive reads and checks the image and, for a delta, its base, and gives the full image in clear; else the first code of R554 in
the order: the objects, unreadable units, keys and tags, fields, the limits of R511 and what the device lacks (R5). -/
def State.reviveImage (s : State) (k : Nat) (info : ReviveInfo) : Except Nat (List Byte) :=
  let x := s.ses k
  match s.checkImage x.image with
  | .error c => .error (if c = 7 then 7 else if info.unreadable then 4 else c)
  | .ok d =>
    let own := match s.obj x.image with | some o => o.pages | none => []
    if info.unreadable ∨ s.pagesBad own (hdr d 52 4) = true then .error 4
    else
      let base : Except Nat Unit := if bit (hdr d 7 1) 1 then
          (match s.checkImage (hdr d 56 8) with
           | .error c => .error (if c = 7 then 4 else c)
           | .ok b => if imageOk b ∧ (b.drop 26).take 7 = (d.drop 26).take 7 ∧ hdr d 48 4 ≤ hdr b 44 4 then .ok () else .error 3)
        else if hdr d 48 4 = 0 ∧ hdr d 56 8 = 0 then .ok () else .error 3
      match base with
      | .error c => .error c
      | .ok _ =>
        if info.known = false then .error 3
        else if s.tokenLimit < hdr d 20 4 then
          .error (if (List.range 4).countP (fun c => s.online c) = 3 then 2 else 6)
        else match s.fullImage x with
          | none => .error 3
          | some img => .ok img

/-! ### The layout (R551 items 2 to 5, R552, R553) -/

/-- What a revive prefills (R553): the whole history; the tokens of a missing prefix; nothing. -/
inductive RevivePrefill where
  | whole
  | pfx (tokens : Nat)
  | none
  deriving DecidableEq, Repr

/-- The ids of an image's history. -/
def histIds (img : List Byte) : List Nat := (List.range (hdr img 20 4)).map (fun i => hdr img (4096 + 4 * i) 4)

/-- The prefix that an image names is there, its object too, and its first ids are the history's (R551, R553). -/
def State.prefixOf (s : State) (img : List Byte) : Option Pfx :=
  match SMap.get (fun _ => Option.none) s.pfxs (hdr img 36 4) with
  | Option.none => Option.none
  | some p =>
    let n := 128 * hdr img 40 4
    let there := match s.obj p.obj with | some o => !o.lost && o.addr.isSome | Option.none => false
    if there && decide (p.ids.take n = (histIds img).take n) && decide (n ≤ p.ids.length) then some p else Option.none

/-- The case of R553 of a turn whose request runs the model `m`. -/
def State.prefillOf (s : State) (img : List Byte) (m : Nat) : RevivePrefill :=
  if hdr img 6 1 = 2 ∨ hdr img 24 2 ≠ m then .whole
  else if hdr img 40 4 = 0 ∨ (s.prefixOf img).isSome then .none
  else .pfx (128 * hdr img 40 4)

/-- The shape that an image gives. -/
def shapeOf (img : List Byte) : KvShape :=
  { fmt := hdr img 26 1, grain := hdr img 27 1, layers := hdr img 28 1, heads := hdr img 29 1, width := hdr img 30 2, qPerKv := hdr img 32 1 }

/-- First token of each stretch of a layout. -/
def firsts : Nat → List ReviveStretch → List Nat
  | _, [] => []
  | at', x :: xs => at' :: firsts (at' + x.count) xs

/-- The KV map of a layout, as 128 bytes (R265). -/
def mapBytes (model length : Nat) (k : KvShape) (xs : List ReviveStretch) : List Byte :=
  let es := (List.zip xs (firsts 0 xs)).flatMap (fun p =>
    leBytes 4 p.1.chanter ++ leBytes 4 p.2 ++ leBytes 4 p.1.count ++ leBytes 4 0 ++ leBytes 8 p.1.table)
  let front := leBytes 2 model ++ leBytes 1 k.fmt ++ leBytes 1 k.layers ++ leBytes 1 k.heads ++ leBytes 1 k.qPerKv ++ leBytes 2 k.width ++
    leBytes 4 length ++ leBytes 1 k.grain ++ leBytes 1 xs.length ++ List.replicate 18 0
  front ++ es ++ List.replicate (96 - es.length) 0

/-- The layout that a revive starts with: while a history or a missing prefix is prefilled, the first stretch alone, and empty. -/
def startLayout (p : RevivePrefill) (xs : List ReviveStretch) : List ReviveStretch :=
  match p with
  | .none => xs
  | _ => (xs.take 1).map (fun x => { x with count := 0 })

/-- The placement keeps R552 and the layout R260: stretches on different online chanters where the turn's model is `READY`; the tail on
the chanter of a `WARM` image, where the model is `READY` there and pages are free. -/
def State.placed (s : State) (k m : Nat) (img : List Byte) (p : RevivePrefill) (info : ReviveInfo) : Bool :=
  let x := s.ses k
  let shape := if p = .whole then info.shape else shapeOf img
  let n := if p = .whole then 0 else hdr img 20 4
  let ready (c : Nat) : Bool := decide (s.modelSt m c = 2)
  let whole : KvMap := kvMapOf (leOf (mapBytes m n shape (if p = .whole then startLayout p info.stretches else info.stretches)))
  s.kvMapOk whole && info.stretches.all (fun y => ready y.chanter) &&
    (if x.warm ≠ 0 ∧ x.dest = 0 ∧ s.online x.chanter = true ∧ ready x.chanter = true ∧ info.noPages = false then
      decide ((info.stretches.getLast?).map (fun y => y.chanter) = some x.chanter) else true)

/-- The page-list entry of page `j` of layer `l` (R262): of the prefix, or one of the pages that the runtime gives. A prefix's pages lie
layer by layer in its object (log entry 206). -/
def State.pageEntryFor (s : State) (img : List Byte) (info : ReviveInfo) (l j : Nat) : Nat :=
  let pages := pagesOf (hdr img 20 4)
  match s.prefixOf img with
  | some p =>
    let sh := hdr img 40 4
    if j < sh then
      let a := match s.obj p.obj with | some o => o.addr.getD 0 | Option.none => 0
      2 ^ 48 + ownBase + localOff a + (l * (p.ids.length / 128) + j) * hdr img 52 4
    else info.pages.getD (l * (pages - sh) + (j - sh)) 0
  | Option.none => info.pages.getD (l * pages + j) 0

/-- Write the private pages, the page lists and the stretch tables of a layout (R551 items 3 and 4). -/
def State.writeLayout (s : State) (img : List Byte) (info : ReviveInfo) : State :=
  let pb := hdr img 52 4
  let sh := hdr img 40 4
  let per := hdr img 44 4
  let pages := pagesOf (hdr img 20 4)
  (List.zip info.stretches (firsts 0 info.stretches)).foldl (fun (t : State) q =>
    let c := q.1.chanter
    let put (u : State) (a : Nat) (bs : List Byte) : State := u.writeSeen (.unit c) Option.none a bs
    (List.range (hdr img 28 1)).foldl (fun (u : State) l =>
      let list := q.1.lists.getD l 0
      let js := (List.range pages).filter (fun j => decide (q.2 ≤ 128 * j ∧ 128 * j < q.2 + q.1.count))
      (js.foldl (fun (v : State) j =>
        let e := s.pageEntryFor img info l j
        let v1 := put v (list + 8 * (j - q.2 / 128)) (leBytes 8 e)
        if j < sh then v1
        else put v1 (e % 2 ^ 48) ((img.drop (hdr img 80 4 + (l * per + (j - sh)) * pb)).take pb)) u)
      |> fun v => put v (q.1.table + 8 * l) (leBytes 8 list)) t) s

/-- The history and the grammar state go back to the turn (R551 item 5). -/
def State.writeTurn (s : State) (die : Nat) (img : List Byte) (info : ReviveInfo) : State :=
  let s1 := s.writeSeen (.fife die 0) Option.none info.hist ((img.drop 4096).take (4 * hdr img 20 4))
  if bit (hdr img 7 1) 2 then
    let kw := (img.drop (hdr img 76 4)).take 128
    s1.writeSeen (.fife die 0) Option.none (bellowsSram die info.keywork) (kw.take 16 ++ leBytes 8 info.kwHist ++ kw.drop 24)
  else s1

/-- A revive succeeds: pages, lists, KV map, history and grammar state are written, and the request is `PREFILL` at the next edge. -/
def State.reviveDo (s : State) (k i : Nat) (img : List Byte) (p : RevivePrefill) (info : ReviveInfo) : State :=
  let x := s.ses k
  let d := sesDie k
  let m := (s.req i).runs
  let shape := if p = .whole then info.shape else shapeOf img
  let n := hdr img 20 4
  let start := if p = .none then n else 0
  let s1 := if p = .whole then s else s.writeLayout img info
  let s2 := (s1.writeTurn (reqDie i) img info).writeSeen (.fife (reqDie i) 0) Option.none (bellowsSram (reqDie i) info.kvRoot)
    (mapBytes m start shape (startLayout p info.stretches))
  let s3 := s2.modReq i (fun r => { r with
    kvRoot := info.kvRoot, length := start, grown := []
    pfx := if p = .none ∧ hdr img 40 4 ≠ 0 then some (hdr img 36 4) else Option.none
    kept := (match p with
      | .pfx t => (t, leOf (mapBytes m n shape info.stretches))
      | _ => (0, 0)) })
  (s3.reqOutcome i 0 6 0 0).cntAdd .sess d d (if x.warm ≠ 0 then 0x048 else 0x050) 1

/-- REVIVE_COMPLETE (R5, R551 to R554): the image stands as the turn's KV and the request becomes `PREFILL` at the next edge, or the
turn fails with the first code of R554 that applies. A revive whose runtime has not placed the turn as R552 and R260 say is not
complete. -/
def execReviveComplete (k : Nat) (info : ReviveInfo) (s : State) : Res :=
  let x := s.ses k
  let i := x.req % 65536
  let s1 := s.setOps (s.sessOps.filter (fun o => !(decide (o.slot = k) && decide (o.kind = .revive))))
  .next (if s.sessOps.any (fun o => decide (o.slot = k) && o.running && decide (o.kind = .revive)) = false then s
    else match s.reviveImage k info with
      | .ok img =>
        let p := s.prefillOf img (s.req i).runs
        if s.placed k (s.req i).runs img p info then (s1.imageOpened x).reviveDo k i img p info else s
      | .error c =>
        let s2 := (s1.sesFail k).reqOutcome i 0 5 9 c
        let s3 := if s.tagFails x.image then s2.tagFailed else s2
        if c = 3 ∨ c = 4 ∨ c = 7 then s3.modSes k (fun y => { y with damaged := true, damage := c }) else s3)

end Sys2Proof.Machine
end

