-- ==== Sys2Proof/Machine/Dispatch.lean ====
section
/-! DEFINITION. One arm for each command: a direct call of its meaning. -/
namespace Sys2Proof.Machine

def exec (i : Instr) (s : State) : Host.Outcome State Fault Refusal :=
  match i with
  | .breathEdge info => Sys2Proof.Machine.execBreathEdge info s
  | .shedResume die part => Sys2Proof.Machine.execShedResume die part s
  | .capRaise => Sys2Proof.Machine.execCapRaise s
  | .useCountDecay => Sys2Proof.Machine.execUseCountDecay s
  | .markerMiss die => Sys2Proof.Machine.execMarkerMiss die s
  | .brthPeriodNext who die value => Sys2Proof.Machine.execBrthPeriodNext who die value s
  | .brthGuard who die value => Sys2Proof.Machine.execBrthGuard who die value s
  | .runSet who die value => Sys2Proof.Machine.execRunSet who die value s
  | .runClear who die value => Sys2Proof.Machine.execRunClear who die value s
  | .brthNumberLo die => Sys2Proof.Machine.execBrthNumberLo die s
  | .brthSkewMax die => Sys2Proof.Machine.execBrthSkewMax die s
  | .planCommit who die value plan => Sys2Proof.Machine.execPlanCommit who die value plan s
  | .stepRetire die slot meas => Sys2Proof.Machine.execStepRetire die slot meas s
  | .thermalThrottle die tj => Sys2Proof.Machine.execThermalThrottle die tj s
  | .thermalTrip die => Sys2Proof.Machine.execThermalTrip die s
  | .tongueIssue x isA => Sys2Proof.Machine.execTongueIssue x isA s
  | .tileLanded x isA num uncorrectable => Sys2Proof.Machine.execTileLanded x isA num uncorrectable s
  | .tongueWriteDone x => Sys2Proof.Machine.execTongueWriteDone x s
  | .tongueFlush who x isA value => Sys2Proof.Machine.execTongueFlush who x isA value s
  | .tongueCfgApply x isA => Sys2Proof.Machine.execTongueCfgApply x isA s
  | .nop x => Sys2Proof.Machine.execNop x s
  | .add x => Sys2Proof.Machine.execAdd x s
  | .sub x => Sys2Proof.Machine.execSub x s
  | .andR x => Sys2Proof.Machine.execAndR x s
  | .orR x => Sys2Proof.Machine.execOrR x s
  | .xorR x => Sys2Proof.Machine.execXorR x s
  | .shl x => Sys2Proof.Machine.execShl x s
  | .shr x => Sys2Proof.Machine.execShr x s
  | .sra x => Sys2Proof.Machine.execSra x s
  | .mul x => Sys2Proof.Machine.execMul x s
  | .slt x => Sys2Proof.Machine.execSlt x s
  | .sltu x => Sys2Proof.Machine.execSltu x s
  | .min x => Sys2Proof.Machine.execMin x s
  | .max x => Sys2Proof.Machine.execMax x s
  | .addi x => Sys2Proof.Machine.execAddi x s
  | .andi x => Sys2Proof.Machine.execAndi x s
  | .ori x => Sys2Proof.Machine.execOri x s
  | .xori x => Sys2Proof.Machine.execXori x s
  | .shli x => Sys2Proof.Machine.execShli x s
  | .shri x => Sys2Proof.Machine.execShri x s
  | .srai x => Sys2Proof.Machine.execSrai x s
  | .lui x => Sys2Proof.Machine.execLui x s
  | .crr x => Sys2Proof.Machine.execCrr x s
  | .crw x => Sys2Proof.Machine.execCrw x s
  | .beq x => Sys2Proof.Machine.execBeq x s
  | .bne x => Sys2Proof.Machine.execBne x s
  | .blt x => Sys2Proof.Machine.execBlt x s
  | .bge x => Sys2Proof.Machine.execBge x s
  | .bltu x => Sys2Proof.Machine.execBltu x s
  | .bgeu x => Sys2Proof.Machine.execBgeu x s
  | .jal x => Sys2Proof.Machine.execJal x s
  | .jr x => Sys2Proof.Machine.execJr x s
  | .endProg x => Sys2Proof.Machine.execEndProg x s
  | .trap x => Sys2Proof.Machine.execTrap x s
  | .brk x => Sys2Proof.Machine.execBrk x s
  | .ld x => Sys2Proof.Machine.execLd x s
  | .st x => Sys2Proof.Machine.execSt x s
  | .lw x => Sys2Proof.Machine.execLw x s
  | .sw x => Sys2Proof.Machine.execSw x s
  | .vld x => Sys2Proof.Machine.execVld x s
  | .vst x => Sys2Proof.Machine.execVst x s
  | .vlds x => Sys2Proof.Machine.execVlds x s
  | .vsts x => Sys2Proof.Machine.execVsts x s
  | .vop x => Sys2Proof.Machine.execVop x s
  | .vfma x => Sys2Proof.Machine.execVfma x s
  | .vcmp x => Sys2Proof.Machine.execVcmp x s
  | .vsel x => Sys2Proof.Machine.execVsel x s
  | .vfn x => Sys2Proof.Machine.execVfn x s
  | .vcvt x => Sys2Proof.Machine.execVcvt x s
  | .vbcast x => Sys2Proof.Machine.execVbcast x s
  | .vget x => Sys2Proof.Machine.execVget x s
  | .vidx x => Sys2Proof.Machine.execVidx x s
  | .vrand x => Sys2Proof.Machine.execVrand x s
  | .vperm x => Sys2Proof.Machine.execVperm x s
  | .vredl x => Sys2Proof.Machine.execVredl x s
  | .vred x => Sys2Proof.Machine.execVred x s
  | .var x => Sys2Proof.Machine.execVar x s
  | .vaw x => Sys2Proof.Machine.execVaw x s
  | .vmov x => Sys2Proof.Machine.execVmov x s
  | .mop x => Sys2Proof.Machine.execMop x s
  | .mset x => Sys2Proof.Machine.execMset x s
  | .mget x => Sys2Proof.Machine.execMget x s
  | .tcfg x => Sys2Proof.Machine.execTcfg x s
  | .tload x => Sys2Proof.Machine.execTload x s
  | .tsweep x => Sys2Proof.Machine.execTsweep x s
  | .tclr x => Sys2Proof.Machine.execTclr x s
  | .tgo x => Sys2Proof.Machine.execTgo x s
  | .twait x => Sys2Proof.Machine.execTwait x s
  | .trel x => Sys2Proof.Machine.execTrel x s
  | .tput x => Sys2Proof.Machine.execTput x s
  | .tstat x => Sys2Proof.Machine.execTstat x s
  | .fence x => Sys2Proof.Machine.execFence x s
  | .bar x => Sys2Proof.Machine.execBar x s
  | .barrierRelease x => Sys2Proof.Machine.execBarrierRelease x s
  | .excValidClear who x value => Sys2Proof.Machine.execExcValidClear who x value s
  | .bankPort1Grant m n waiting cycles => Sys2Proof.Machine.execBankPort1Grant m n waiting cycles s
  | .eccWriteback m off => Sys2Proof.Machine.execEccWriteback m off s
  | .scrubPassStart m => Sys2Proof.Machine.execScrubPassStart m s
  | .scrubRowRead m upsets => Sys2Proof.Machine.execScrubRowRead m upsets s
  | .eccAddrClear who m value => Sys2Proof.Machine.execEccAddrClear who m value s
  | .bankHandoverGo who m n value => Sys2Proof.Machine.execBankHandoverGo who m n value s
  | .bankDrainDone m n => Sys2Proof.Machine.execBankDrainDone m n s
  | .bankClearDone m n => Sys2Proof.Machine.execBankClearDone m n s
  | .sbankMaskWrite who die hi value => Sys2Proof.Machine.execSbankMaskWrite who die hi value s
  | .secureWipeDone die => Sys2Proof.Machine.execSecureWipeDone die s
  | .objAlloc c place => Sys2Proof.Machine.execObjAlloc c place s
  | .objFree c => Sys2Proof.Machine.execObjFree c s
  | .objQuery c => Sys2Proof.Machine.execObjQuery c s
  | .modelSwap c registered place phraseNs => Sys2Proof.Machine.execModelSwap c registered place s phraseNs
  | .swapTileWritten model tile uncorrectable waited => Sys2Proof.Machine.execSwapTileWritten model tile uncorrectable waited s
  | .swapTimeout model => Sys2Proof.Machine.execSwapTimeout model s
  | .modelUnload c registered => Sys2Proof.Machine.execModelUnload c registered s
  | .modelUnloadDone model => Sys2Proof.Machine.execModelUnloadDone model s
  | .hornPost die k pos => Sys2Proof.Machine.execHornPost die k pos s
  | .hornAttendPaged die k => Sys2Proof.Machine.execHornAttendPaged die k s
  | .hornAttendDense die k n => Sys2Proof.Machine.execHornAttendDense die k s n
  | .hornMerge die k n => Sys2Proof.Machine.execHornMerge die k s n
  | .hornAppendOnly die k => Sys2Proof.Machine.execHornAppendOnly die k s
  | .hornBackward die k => Sys2Proof.Machine.execHornBackward die k s
  | .hornPreemptStop die k pos => Sys2Proof.Machine.execHornPreemptStop die k pos s
  | .hornRingReset who die k value => Sys2Proof.Machine.execHornRingReset who die k value s
  | .serpGather die => Sys2Proof.Machine.execSerpGather die s
  | .serpPoolSum die => Sys2Proof.Machine.execSerpPoolSum die s
  | .serpPoolMean die => Sys2Proof.Machine.execSerpPoolMean die s
  | .serpPoolMax die => Sys2Proof.Machine.execSerpPoolMax die s
  | .serpUpdateOverwrite die => Sys2Proof.Machine.execSerpUpdateOverwrite die s
  | .serpUpdateScatterAdd die => Sys2Proof.Machine.execSerpUpdateScatterAdd die s
  | .serpFlashRowRead die uncorrectable => Sys2Proof.Machine.execSerpFlashRowRead die uncorrectable s
  | .migrationCommit die n => Sys2Proof.Machine.execMigrationCommit die n s
  | .migrationUpdateRelease die => Sys2Proof.Machine.execMigrationUpdateRelease die s
  | .serpVerPublish who die value => Sys2Proof.Machine.execSerpVerPublish who die value s
  | .serpRetirePop die => Sys2Proof.Machine.execSerpRetirePop die s
  | .serpCreg who die idx value => Sys2Proof.Machine.execSerpCreg who die idx value s
  | .panpSearch die => Sys2Proof.Machine.execPanpSearch die s
  | .panpExactSearch die => Sys2Proof.Machine.execPanpExactSearch die s
  | .panpInsert die => Sys2Proof.Machine.execPanpInsert die s
  | .panpDelete die => Sys2Proof.Machine.execPanpDelete die s
  | .panpCompare die => Sys2Proof.Machine.execPanpCompare die s
  | .panpMerge die => Sys2Proof.Machine.execPanpMerge die s
  | .panpRecordTileRead die uncorrectable => Sys2Proof.Machine.execPanpRecordTileRead die uncorrectable s
  | .panpVerPublish who die value => Sys2Proof.Machine.execPanpVerPublish who die value s
  | .panpRetirePop die => Sys2Proof.Machine.execPanpRetirePop die s
  | .piccTopk die => Sys2Proof.Machine.execPiccTopk die s
  | .piccThreshold die => Sys2Proof.Machine.execPiccThreshold die s
  | .piccMerge die => Sys2Proof.Machine.execPiccMerge die s
  | .piccSort die => Sys2Proof.Machine.execPiccSort die s
  | .mouthTokenise die host => Sys2Proof.Machine.execMouthTokenise die host s
  | .bellDetokenise die tail refused => Sys2Proof.Machine.execBellDetokenise die tail refused s
  | .keywInit die => Sys2Proof.Machine.execKeywInit die s
  | .keywAdvanceMask die => Sys2Proof.Machine.execKeywAdvanceMask die s
  | .keywMask die => Sys2Proof.Machine.execKeywMask die s
  | .mouthVerPublish who die value => Sys2Proof.Machine.execMouthVerPublish who die value s
  | .keywVerPublish who die value => Sys2Proof.Machine.execKeywVerPublish who die value s
  | .mouthRetirePop die => Sys2Proof.Machine.execMouthRetirePop die s
  | .keywRetirePop die => Sys2Proof.Machine.execKeywRetirePop die s
  | .sngChkGo who die idx value => Sys2Proof.Machine.execSngChkGo who die idx value s
  | .sngChkDone die idx => Sys2Proof.Machine.execSngChkDone die idx s
  | .sngKat die idx out1 out2 => Sys2Proof.Machine.execSngKat die idx out1 out2 s
  | .reproCheck c desc wd => Sys2Proof.Machine.execReproCheck c desc wd s
  | .reproRun2Start fn tag => Sys2Proof.Machine.execReproRun2Start fn tag s
  | .reproReport fn tag x => Sys2Proof.Machine.execReproReport fn tag x s
  | .reqSubmit c wd => Sys2Proof.Machine.execReqSubmit c wd s
  | .reqCancel c => Sys2Proof.Machine.execReqCancel c s
  | .reqPause c => Sys2Proof.Machine.execReqPause c s
  | .reqResume c => Sys2Proof.Machine.execReqResume c s
  | .reqUpdate c => Sys2Proof.Machine.execReqUpdate c s
  | .reqQuery c => Sys2Proof.Machine.execReqQuery c s
  | .completionRecord idx => Sys2Proof.Machine.execCompletionRecord idx s
  | .reqtEventLo die => Sys2Proof.Machine.execReqtEventLo die s
  | .reqtEntryWrite who die n value => Sys2Proof.Machine.execReqtEntryWrite who die n value s
  | .turnForward die => Sys2Proof.Machine.execTurnForward die s
  | .sessCreate c => Sys2Proof.Machine.execSessCreate c s
  | .sessSet c => Sys2Proof.Machine.execSessSet c s
  | .sessDelete c => Sys2Proof.Machine.execSessDelete c s
  | .sessQuery c => Sys2Proof.Machine.execSessQuery c s
  | .sessMove c => Sys2Proof.Machine.execSessMove c s
  | .sessExport c => Sys2Proof.Machine.execSessExport c s
  | .sessImport c host known obj => Sys2Proof.Machine.execSessImport c host known obj s
  | .sessPrefix c ids shape place => Sys2Proof.Machine.execSessPrefix c ids shape place s
  | .sessPrefixDelete c => Sys2Proof.Machine.execSessPrefixDelete c s
  | .sessOpStart die => Sys2Proof.Machine.execSessOpStart die s
  | .reviveComplete k info => Sys2Proof.Machine.execReviveComplete k info s
  | .parkCommit k src ok => Sys2Proof.Machine.execParkCommit k src ok s
  | .moveComplete k obj chanter addr ok => Sys2Proof.Machine.execMoveComplete k obj chanter addr ok s
  | .exportComplete k ok => Sys2Proof.Machine.execExportComplete k ok s
  | .sessRebuild who die value => Sys2Proof.Machine.execSessRebuild who die value s
  | .rebuildDone die => Sys2Proof.Machine.execRebuildDone die s
  | .sessLostLo die => Sys2Proof.Machine.execSessLostLo die s
  | .partPreempt who die value => Sys2Proof.Machine.execPartPreempt who die value s
  | .preemptTake die slot r => Sys2Proof.Machine.execPreemptTake die slot r s
  | .contextSaveDone die slot finish dram stall => Sys2Proof.Machine.execContextSaveDone die slot finish dram stall s
  | .bucketGrant die bkt waiting cycles => Sys2Proof.Machine.execBucketGrant die bkt waiting cycles s
  | .chainLinkStart die slot => Sys2Proof.Machine.execChainLinkStart die slot s
  | .packFetch die store bad => Sys2Proof.Machine.execPackFetch die store bad s
  | .packPack die store tmpl bad room => Sys2Proof.Machine.execPackPack die store tmpl bad room s
  | .packPairs die store tmpl bad => Sys2Proof.Machine.execPackPairs die store tmpl bad s
  | .h2fStage fn off data => Sys2Proof.Machine.execH2fStage fn off data s
  | .doorbell fn off data => Sys2Proof.Machine.execDoorbell fn off data s
  | .mbxTake die bad => Sys2Proof.Machine.execMbxTake die s bad
  | .mbxSendNotice who die value => Sys2Proof.Machine.execMbxSendNotice who die value s
  | .mbxSendReply who die value => Sys2Proof.Machine.execMbxSendReply who die value s
  | .f2hTake fn bad => Sys2Proof.Machine.execF2hTake fn s bad
  | .cqWrite fn bad => Sys2Proof.Machine.execCqWrite fn s bad
  | .cqHead fn value => Sys2Proof.Machine.execCqHead fn value s
  | .f2hStatus fn => Sys2Proof.Machine.execF2hStatus fn s
  | .mbxReady who die value => Sys2Proof.Machine.execMbxReady who die value s
  | .mbxAbortPop die => Sys2Proof.Machine.execMbxAbortPop die s
  | .firmwareRestart die core => Sys2Proof.Machine.execFirmwareRestart die core s
  | .flr fn => Sys2Proof.Machine.execFlr fn s
  | .flrComplete fn => Sys2Proof.Machine.execFlrComplete fn s
  | .portReset port => Sys2Proof.Machine.execPortReset port s
  | .linkChange die status => Sys2Proof.Machine.execLinkChange die status s
  | .bar4Access fn off write data => Sys2Proof.Machine.execBar4Access fn off write data s
  | .verPublish c => Sys2Proof.Machine.execVerPublish c s
  | .flashRead b req => Sys2Proof.Machine.execFlashRead b req s
  | .flashWrite b req => Sys2Proof.Machine.execFlashWrite b req s
  | .flashCreate b req => Sys2Proof.Machine.execFlashCreate b req s
  | .flashCommit b req => Sys2Proof.Machine.execFlashCommit b req s
  | .flashDelete b req => Sys2Proof.Machine.execFlashDelete b req s
  | .nandProgramDone die st ok => Sys2Proof.Machine.execNandProgramDone die st ok s
  | .nandReadDone die id u steps bits uncorrectable => Sys2Proof.Machine.execNandReadDone die id u steps bits uncorrectable s
  | .nandEraseDone die b ok => Sys2Proof.Machine.execNandEraseDone die b ok s
  | .mapPageRead die obj level idx => Sys2Proof.Machine.execMapPageRead die obj level idx s
  | .gcStart die lun => Sys2Proof.Machine.execGcStart die lun s
  | .wearLevelStart die => Sys2Proof.Machine.execWearLevelStart die s
  | .relocateCommit die => Sys2Proof.Machine.execRelocateCommit die s
  | .targetTimeout die ch t => Sys2Proof.Machine.execTargetTimeout die ch t s
  | .nandCalibration die ch t warm => Sys2Proof.Machine.execNandCalibration die ch t warm s
  | .checkpoint die slots => Sys2Proof.Machine.execCheckpoint die slots s
  | .ckptNow who die value => Sys2Proof.Machine.execCkptNow who die value s
  | .droneFormat who die value cap => Sys2Proof.Machine.execDroneFormat who die value cap s
  | .droneRecovery die cap => Sys2Proof.Machine.execDroneRecovery die cap s
  | .powerFail => Sys2Proof.Machine.execPowerFail s
  | .flushDone die => Sys2Proof.Machine.execFlushDone die s
  | .pwrFailRise => Sys2Proof.Machine.execPwrFailRise s
  | .pgCoreLoss => Sys2Proof.Machine.execPgCoreLoss s
  | .rowRepair m row => Sys2Proof.Machine.execRowRepair m row s
  | .dramRowRepair die stack bankNo granules spare uncorrectable moves => Sys2Proof.Machine.execDramRowRepair die stack bankNo granules spare uncorrectable moves s
  | .reedFence x kind detail => Sys2Proof.Machine.execReedFence x kind detail s
  | .consFence who die k value => Sys2Proof.Machine.execConsFence who die k value s
  | .dieQuiesce die kind unit detail => Sys2Proof.Machine.execDieQuiesce die kind unit detail s
  | .recoveryPoint => Sys2Proof.Machine.execRecoveryPoint s
  | .flitReplay link far => Sys2Proof.Machine.execFlitReplay link far s
  | .linkRetrain link => Sys2Proof.Machine.execLinkRetrain link s
  | .reedWatchdog x => Sys2Proof.Machine.execReedWatchdog x s
  | .spareSelfTest die k passed => Sys2Proof.Machine.execSpareSelfTest die k passed s
  | .embMeasure die delays => Sys2Proof.Machine.execEmbMeasure die delays s
  | .measureNow who die value delays => Sys2Proof.Machine.execMeasureNow who die value delays s
  | .monitorAlarm die m delays => Sys2Proof.Machine.execMonitorAlarm die m delays s
  | .pllLockLoss die loop => Sys2Proof.Machine.execPllLockLoss die loop s
  | .cntOvfClear who a value => Sys2Proof.Machine.execCntOvfClear who a value s
  | .counterLoRead who a => Sys2Proof.Machine.execCounterLoRead who a s
  | .topFaultPop3 => Sys2Proof.Machine.execTopFaultPop3 s
  | .secBootDone who die value => Sys2Proof.Machine.execSecBootDone who die value s
  | .secLcReq who die value => Sys2Proof.Machine.execSecLcReq who die value s
  | .secSvnRaise who die value => Sys2Proof.Machine.execSecSvnRaise who die value s
  | .secRevoke who die value => Sys2Proof.Machine.execSecRevoke who die value s
  | .secDbgChal0 die => Sys2Proof.Machine.execSecDbgChal0 die s
  | .secDbgResp63 who die value => Sys2Proof.Machine.execSecDbgResp63 who die value s
  | .unlockVerifyDone sigOk qHash => Sys2Proof.Machine.execUnlockVerifyDone sigOk qHash s
  | .secKeyLoad who die value => Sys2Proof.Machine.execSecKeyLoad who die value s
  | .tamperEvent src held => Sys2Proof.Machine.execTamperEvent src held s
  | .secureMonitorCall die core entry => Sys2Proof.Machine.execSecureMonitorCall die core entry s
  | .pwrStateReq who die value => Sys2Proof.Machine.execPwrStateReq who die value s
  | .powerStateEntered slotsA slotsB => Sys2Proof.Machine.execPowerStateEntered slotsA slotsB s
  | .wakeN => Sys2Proof.Machine.execWakeN s
  | .pgCoreTimeout => Sys2Proof.Machine.execPgCoreTimeout s
  | .powerOn straps => Sys2Proof.Machine.execPowerOn straps s
  | .resetN => Sys2Proof.Machine.execResetN s
  | .pwrResetWarm who die value => Sys2Proof.Machine.execPwrResetWarm who die value s
  | .pwrResetDevice who die value => Sys2Proof.Machine.execPwrResetDevice who die value s
  | .stage2Load a1 a2 b1 b2 => Sys2Proof.Machine.execStage2Load a1 a2 b1 b2 s
  | .stackTrainingDone chanter failed => Sys2Proof.Machine.execStackTrainingDone chanter failed s
  | .dramClearDone chanter => Sys2Proof.Machine.execDramClearDone chanter s
  | .dramRefresh chanter stack => Sys2Proof.Machine.execDramRefresh chanter stack s
  | .avsAck chanter => Sys2Proof.Machine.execAvsAck chanter s
  | .avsTimeout chanter => Sys2Proof.Machine.execAvsTimeout chanter s
  | .entdaa addr => Sys2Proof.Machine.execEntdaa addr s
  | .rstdaa => Sys2Proof.Machine.execRstdaa s
  | .setnewda addr => Sys2Proof.Machine.execSetnewda addr s
  | .getpid => Sys2Proof.Machine.execGetpid s
  | .getbcr => Sys2Proof.Machine.execGetbcr s
  | .getdcr => Sys2Proof.Machine.execGetdcr s
  | .getstatus => Sys2Proof.Machine.execGetstatus s
  | .getmwl => Sys2Proof.Machine.execGetmwl s
  | .getmrl => Sys2Proof.Machine.execGetmrl s
  | .setmwl n => Sys2Proof.Machine.execSetmwl n s
  | .setmrl n => Sys2Proof.Machine.execSetmrl n s
  | .getmxds => Sys2Proof.Machine.execGetmxds s
  | .enec int hj => Sys2Proof.Machine.execEnec int hj s
  | .disec int hj => Sys2Proof.Machine.execDisec int hj s
  | .hotJoin acked => Sys2Proof.Machine.execHotJoin acked s
  | .ident tag n payload => Sys2Proof.Machine.execIdent tag n payload s
  | .telem tag n payload => Sys2Proof.Machine.execTelem tag n payload s
  | .wake tag n payload => Sys2Proof.Machine.execWake tag n payload s
  | .reset tag n payload => Sys2Proof.Machine.execReset tag n payload s
  | .bistStart tag n payload => Sys2Proof.Machine.execBistStart tag n payload s
  | .bistResult tag n payload => Sys2Proof.Machine.execBistResult tag n payload s
  | .leave tag n payload => Sys2Proof.Machine.execLeave tag n payload s
  | .mgmtReplyRead => Sys2Proof.Machine.execMgmtReplyRead s
  | .ibi acked => Sys2Proof.Machine.execIbi acked s
  | .bistGo who die value => Sys2Proof.Machine.execBistGo who die value s
  | .bistDone die x => Sys2Proof.Machine.execBistDone die x s
  | .extest resetLow rails => Sys2Proof.Machine.execExtest resetLow rails s
  | .samplePreload => Sys2Proof.Machine.execSamplePreload s
  | .idcode => Sys2Proof.Machine.execIdcode s
  | .clamp resetLow rails => Sys2Proof.Machine.execClamp resetLow rails s
  | .highz resetLow rails => Sys2Proof.Machine.execHighz resetLow rails s
  | .ijtagAccess op => Sys2Proof.Machine.execIjtagAccess s op
  | .bypass => Sys2Proof.Machine.execBypass s
  | .trstN => Sys2Proof.Machine.execTrstN s
  | .intForce who a value => Sys2Proof.Machine.execIntForce who a value s
  | .topRegErrClear who die value => Sys2Proof.Machine.execTopRegErrClear who die value s
  | .registerWrite who a width value => Sys2Proof.Machine.execRegisterWrite who a width value s
  | .pgCoreGood straps => Sys2Proof.Machine.execPgCoreGood straps s
  | .configurationWrite fn cfg => Sys2Proof.Machine.execConfigurationWrite fn cfg s
  | .illegalInstruction x => Sys2Proof.Machine.execIllegalInstruction x s
  | .fetchPastEnd x => Sys2Proof.Machine.execFetchPastEnd x s
  | .mgmtUnknownCommand frame => Sys2Proof.Machine.execMgmtUnknownCommand frame s
  | .protectionParityError die => Sys2Proof.Machine.execProtectionParityError die s
  | .bellowsLogicFault die => Sys2Proof.Machine.execBellowsLogicFault die s
  | .droneTraining die targets => Sys2Proof.Machine.execDroneTraining die targets s
  | .calibrationDone die ch t => Sys2Proof.Machine.execCalibrationDone die ch t s

end Sys2Proof.Machine
end

