-- ==== Sys2Proof/Machine/RegRead.lean ====
section
/-! DEFINITION. What a read of a register returns: stored words, the views that the hardware computes, the interrupt
aggregation, and who may read what (R11, R105, R106, R492, R563, R650, R674, R858 to R888). No command of the table carries a
plain register read, so nothing here changes the state; the reads that do are commands of their own. -/
namespace Sys2Proof.Machine

/-! ### Interrupt aggregation (R882 to R884) -/

/-- A block instance is pending on a bellows, whose TOP_IRQ_CFG says whether saturated counters count (R882). -/
def State.blkPending (s : State) (bellows : Nat) (b : Blk) (die i : Nat) : Bool :=
  decide (s.reg (b.at die i 0x010) &&& s.reg (b.at die i 0x014) ≠ 0) ||
    (decide (s.reg (b.at die i 0x028) ≠ 0) && s.rbit (Blk.top.at bellows bellows 0x408) 0) ||
    (decide (b = .top ∧ die = 4) && decide (s.reg (Blk.top.at 4 4 0x320) &&& s.reg (Blk.top.at 4 4 0x324) ≠ 0))

/-- The block instances of a die (R870). -/
def dieBlks (die : Nat) : List (Blk × Nat) := (List.range 2048).filterMap (pageBlk die)

/-- TOP_IRQ_DIE of a die slot: the types with a pending instance; an unreachable die's bits read 0 (R883). -/
def State.irqDie (s : State) (bellows die : Nat) : Nat :=
  if s.unreachable (.fife bellows 0) die then 0
  else (dieBlks die).foldl (fun m p => if s.blkPending bellows p.1 die p.2 then m ||| 2 ^ p.1.code else m) 0

/-- TOP_IRQ_PEND (R883). -/
def State.irqPend (s : State) (bellows : Nat) : Nat :=
  (List.range 8).foldl (fun m d => if s.irqDie bellows d = 0 then m else m + 2 ^ d) 0

/-- TOP_IRQ_INST: the pending instances of the selected type and die, in words of 32 (R879, R883). -/
def State.irqInst (s : State) (bellows w : Nat) : Nat :=
  let sel := Blk.top.at bellows bellows 0x440
  let die := s.fld sel 2 0
  if s.unreachable (.fife bellows 0) die then 0
  else (dieBlks die).foldl (fun m p =>
    if p.1.code = s.fld sel 20 16 ∧ p.2 / 32 = w ∧ s.blkPending bellows p.1 die p.2 = true then m ||| 2 ^ (p.2 % 32) else m) 0

/-- The level that a bellows drives to its Fife cores (R884). -/
def State.irqLevel (s : State) (bellows : Nat) : Bool :=
  decide (s.irqPend bellows &&& s.fld (Blk.top.at bellows bellows 0x400) 7 0 ≠ 0)

/-! ### Views -/

/-- CAP (R878). -/
def State.capWord (s : State) (b : Blk) (die i : Nat) : Nat :=
  match b with
  | .reed => 0x00202020
  | .cons => s.fld (Blk.cons.at die i 0x100) 20 16 * 2 ^ 16 + 0x11
  | .horn => 0x800
  | .serp => 0x02000008
  | .panp => 0x40
  | .picc => 0x20
  | .reqt => 0x8000
  | .sess => 0x800000
  | .host => 0x200
  | .drone => 0x18
  | .hbm => 0x30
  | _ => 0

/-- REED_POS (R105). -/
def State.reedPos (s : State) (x : ReedRef) : Nat :=
  let pos := s.posOf x
  b2n pos.isSome * 2 ^ 26 + b2n (s.fenced x.die x.k x.r) * 2 ^ 25 + b2n (decide (x.r = 16)) * 2 ^ 24 + x.k * 2 ^ 16 +
    pos.getD 0x1F * 2 ^ 8 + x.r

/-- TOP_CAP_CONSORTS (R879). -/
def State.capConsorts (s : State) : Nat :=
  (List.range 32).foldl (fun m n => if s.online (n / 8) = true ∧ s.withdrawn (n / 8) (n % 8) = false then m + 2 ^ n else m) 0

/-- WWAY_LINK_STATUS of a link at a die; a link that does not end there reads 0 (R886). -/
def State.linkStatus (s : State) (die l : Nat) : Nat :=
  let (a, b) := linkEnds l
  if 11 ≤ l ∨ (a ≠ die ∧ b ≠ die) then 0
  else
    let down := s.linksDown.contains l
    b2n (!down) * 2 ^ 31 + b2n down * 2 ^ 29 + (a + b - die) * 2 ^ 24 + min 255 (s.retrainsOf l).length * 2 ^ 16 +
      min 65535 (s.replay l).2.2

/-- WWAY_LINKS (R885). -/
def dieLinks (die : Nat) : Nat :=
  (List.range 11).foldl (fun m l => if (linkEnds l).1 = die ∨ (linkEnds l).2 = die then m + 2 ^ l else m) 0

/-- DRONE_TGT_STATUS (R715). -/
def State.targetStatus (s : State) (die : Nat) : Nat :=
  let sel := Blk.drone.at die die 0x140
  let t := (s.drone die).target (8 * s.fld sel 12 8 + s.fld sel 2 0)
  b2n t.present * 2 ^ 31 + b2n t.offline * 2 ^ 30 + b2n t.disabled * 2 ^ 29 + b2n t.training * 2 ^ 28 + min 65535 t.grownBad

/-- MGMT_I3C_STATUS (R857). -/
def State.i3cStatus (s : State) : Nat :=
  let m := s.mgmt
  b2n m.addr.isSome * 2 ^ 31 + b2n m.left * 2 ^ 30 + b2n m.hjPend * 2 ^ 29 + m.addr.getD 0 * 2 ^ 16 +
    (List.range 6).foldl (fun x n => if m.ibi.contains (n + 1) then x + 2 ^ (8 + n) else x) 0

/-- Word `n` of the entry window of REQT_ or SESS_ for a selected slot (R491, R530). -/
def entryWord (bs : List Byte) (n : Nat) : Nat := leOf ((bs.drop (4 * n)).take 4)

/-- Word `n` of the notice that MBX_TAKE shows: the one a read of MBX_TAKE3 would take, 0 where none waits (R657, R676). -/
def State.takeWord (s : State) (die n : Nat) : Nat :=
  match (if s.sec.pendingReset then none else s.nextFn die) with
  | none => 0
  | some f => entryWord (((s.fn f).h2f.find? (fun h => !h.taken)).map (fun h => h.note.bytes) |>.getD []) n

/-- A register whose word the hardware computes: none for a register that reads as it is stored. -/
def State.computed (s : State) (b : Blk) (die i off : Nat) : Option Nat :=
  if off = 0x000 then some (b.code * 2 ^ 16 + i * 2 ^ 8 + 1)
  else if off = 0x004 then some (s.capWord b die i)
  else if off = 0x02C then some (b2n s.bootDone * 2 ^ 31 + s.fld (b.at die i 0x02C) 0 0)
  else if (cntOffs b die).contains off then some (s.count (b.at die i off) % 2 ^ 32)
  else if off % 8 = 4 ∧ (cntOffs b die).contains (off - 4) = true then
    some (SMap.get (fun _ => 0) s.cntHi (b.at die i (off - 4))).toNat
  else match b with
  | .brth =>
    if off = 0x110 then some (s.breath.number % 2 ^ 32)
    else if off = 0x114 then some (SMap.get (fun _ => 0) s.breath.hi die).toNat
    else none
  | .reed =>
    let x : ReedRef := ⟨die, i / 17, i % 17⟩
    if off = 0x100 then some (s.reedPos x)
    else if off = 0x114 then some (s.reed x).w.status
    else if off = 0x134 then some (s.reed x).a.status
    else if off = 0x118 then some ((s.reed x).w.consumption.1 % 2 ^ 32)
    else if off = 0x11C then some ((s.reed x).w.consumption.2 % 2 ^ 16)
    else if off = 0x138 then some ((s.reed x).a.consumption.1 % 2 ^ 32)
    else if off = 0x13C then some ((s.reed x).a.consumption.2 % 2 ^ 16)
    else none
  | .top =>
    if off = 0x100 then some (0x0412 * 2 ^ 16 + Config.revision % 256 * 2 ^ 8 + 1)
    else if off = 0x11C then some s.capConsorts
    else if off = 0x200 ∨ off = 0x204 then (if die = 5 then some (s.reg (topA off)).toNat else none)
    else if 0x310 ≤ off ∧ off < 0x320 ∧ die = 4 then some (entryWord ((s.faults.head?).map FaultRec.bytes |>.getD []) ((off - 0x310) / 4))
    else if off = 0x404 then some (s.irqPend die)
    else if 0x420 ≤ off ∧ off < 0x440 then some (s.irqDie die ((off - 0x420) / 4))
    else if 0x444 ≤ off ∧ off < 0x458 then some (s.irqInst die ((off - 0x444) / 4))
    else none
  | .cons => if off = 0x104 then some (s.fld (Blk.cons.at die i 0x104) 16 0) else none
  | .host =>
    let f := 512 * (die - 4) + s.fld (Blk.host.at die die 0x110) 8 0
    if off = 0x114 then some (s.fpriv f) else if off = 0x118 then some (s.fstatus f).toNat else none
  | .mbx => if 0x100 ≤ off ∧ off < 0x110 then some (s.takeWord die ((off - 0x100) / 4)) else none
  | .reqt =>
    if 0x180 ≤ off then
      some (entryWord ((s.req (32768 * (die - 4) + s.fld (Blk.reqt.at die die 0x104) 14 0)).bytes
        (32768 * (die - 4) + s.fld (Blk.reqt.at die die 0x104) 14 0)) ((off - 0x180) / 4))
    else none
  | .sess =>
    if 0x180 ≤ off then
      let k := (die - 4) * 2 ^ 23 + s.fld (sesA die 0x10C) 22 0
      some (entryWord ((s.ses k).bytes (s.queueRec k)) ((off - 0x180) / 4))
    else none
  | .sec =>
    if off = 0x100 ∧ die = 4 then some (b2n s.sec.pendingReset * 2 ^ 31 + s.lifeCycle)
    else if off = 0x110 ∧ die = 4 then some (withBits (s.reg (secA 0x110)).toNat 17 16 s.debugLevel)
    else if off = 0x114 ∧ die = 4 then some s.sec.minSvn
    else none
  | .emb =>
    let m := s.fld (embA die 0x110) 5 0
    let d := SMap.get (fun _ => 0) s.monDelay (64 * die + m)
    if off = 0x114 then some (min 65535 d)
    else if off = 0x118 then some (if d = 0 then 0 else monAge die m (if die < 4 then (s.oppOf die (m / 8)).2 else 750) d)
    else none
  | .serp => if 0x140 ≤ off then some (Serpent.cregAt (s.serp die) ((off - 0x140) / 4)).toNat else none
  | .drone => if off = 0x144 then some (s.targetStatus die) else none
  | .wway =>
    if off = 0x104 then some (s.linkStatus die (s.fld (Blk.wway.at die die 0x100) 3 0))
    else if off = 0x108 then some (dieLinks die)
    else none
  | .mgmt =>
    if die ≠ 4 then none
    else if off = 0x100 then some s.i3cStatus
    else if off = 0x104 then some (s.pid % 2 ^ 32)
    else if off = 0x108 then some (s.pid / 2 ^ 32)
    else none
  | _ => none

/-- The die whose register a read of `die` shows: bellows-B's SEC_ page shows what bellows-A holds but for its own secure bank registers,
header and counters (R791). -/
def shownDie (b : Blk) (die i off : Nat) : Nat × Nat := if b = .sec ∧ onlyA b die off = true then (4, 4) else (die, i)

/-- The word of a register as firmware reads it: WO fields read 0 (R11); registers that bellows-B lacks read 0, those of SEC_ apart
(R791); a selection that names nothing reads 0. BRTH_ELAPSED, a time within the breath, is not modelled and reads 0. -/
def State.view (s : State) (b : Blk) (die0 i0 off : Nat) : Word :=
  let (die, i) := shownDie b die0 i0 off
  match regRow b die off with
  | none => 0
  | some r =>
    if onlyA b die off then 0
    else match s.computed b die i off with
      | some v => BitVec.ofNat 32 v
      | none =>
        match s.regKey b die i off with
        | none => 0
        | some key => s.reg key &&& ~~~ r.accMask .wo

/-- What a host function without `manage` reads of a block (R492, R563, R650); while boot has halted, a physical function reads the
SEC_ page of bellows-A, and no function anything else (R770). -/
def State.hostView (s : State) (fn : Nat) (b : Blk) (die i off : Nat) : Word :=
  let sel (a : Nat) : Nat := (SMap.get (fun _ => 0) (s.fn fn).sel a).toNat
  let k := (die - 4) * 2 ^ 23 + sel (sesA die 0x10C)
  let q := 32768 * (die - 4) + sel (Blk.reqt.at die die 0x104)
  if s.pwr.halted then (if b = .sec ∧ die = 4 ∧ s.pfOf fn = fn then s.view b die i off else 0)
  else if off = 0x000 ∨ off = 0x004 then s.view b die i off
  else if b = .reqt ∧ 0x180 ≤ off then
    (if (s.req q).fn = fn then BitVec.ofNat 32 (entryWord ((s.req q).bytes q) ((off - 0x180) / 4)) else 0)
  else if b = .sess ∧ 0x180 ≤ off then
    (if s.fnPart fn = (s.ses k).part then BitVec.ofNat 32 (entryWord ((s.ses k).bytes (s.queueRec k)) ((off - 0x180) / 4)) else 0)
  else 0

/-- The word that a read of an aligned register address returns to a requester (R650, R863 to R866): a bad access reads 0, an
unreachable die all-ones. -/
def State.readReg (s : State) (who : Requester) (a : Nat) : Word :=
  if s.unreachable who (a / 2 ^ 23) then 0xFFFFFFFF
  else match pageBlk (a / 2 ^ 23) (a / 4096 % 2048) with
    | none => 0
    | some (b, i) =>
      if regRow b (a / 2 ^ 23) (a % 4096) = none then 0
      else match who with
        | .host fn =>
          if s.manage fn then s.view b (a / 2 ^ 23) i (a % 4096) else s.hostView fn b (a / 2 ^ 23) i (a % 4096)
        | _ => s.view b (a / 2 ^ 23) i (a % 4096)

end Sys2Proof.Machine
end

