-- ==== Sys2Proof/Safety.lean ====
section
/-! DEFINITION. What counts as a sound state and a safe step, in the terms that statements use. -/
namespace Sys2Proof.Machine

/-- Every memory and register map is in its canonical form: addresses strictly rising, and no entry that an unlisted address
reads as. -/
def State.canonical (s : State) : Bool :=
  Memory.wf s.mem && Memory.wf s.hostMem && SMap.wf regReset s.regs && SMap.wf (fun _ => 0) s.cnt && SMap.wf (fun _ => 0) s.flip

/-- No counter passes its 48 bits (R746). -/
def State.countersBounded (s : State) : Bool := s.cnt.all (fun e => decide (e.2 ≤ cntMax))

/-- A step that goes on: neither a fault nor a refusal. -/
def State.goesOn (s : State) : Prop := ∃ t : State, step s = .next t

/-- Every byte of memory reads as before. -/
def sameMem (s t : State) : Prop := ∀ a : Nat, t.mem.byte a = s.mem.byte a

/-- Every byte of memory outside `n` bytes from `lo` reads as before. -/
def sameMemOutside (lo n : Nat) (s t : State) : Prop := ∀ a : Nat, a < lo ∨ lo + n ≤ a → t.mem.byte a = s.mem.byte a

/-- Every stored register word other than those of `as` reads as before. -/
def sameRegsBut (as : List Nat) (s t : State) : Prop := ∀ a : Nat, a ∉ as → t.reg a = s.reg a

/-- Every counter other than those of `as` holds its value. -/
def sameCountsBut (as : List Nat) (s t : State) : Prop := ∀ a : Nat, a ∉ as → t.count a = s.count a


/-! ### Terms of the statements about the reeds -/

/-- The reed runs, its next instruction lies in its program, and the instruction's unused fields are 0 (R114, R122). -/
def ready (u : Uses) (x : RI) (s : State) : Bool :=
  decide ((s.reed x.reed).run = .running) && decide ((s.reed x.reed).pc < 8 * (s.reed x.reed).ibuf.length) && u.ok x

/-- A reed whose instruction has completed: the next instruction follows, and it waits for nothing. -/
def Reed.advanced (r : Reed) : Reed := { r with pc := r.pc + 8, wait := .none, redo := none }

/-- A reed that has jumped. -/
def Reed.jumped (r : Reed) (n : Nat) : Reed := { r with pc := n, wait := .none, redo := none }

/-- No reed waits at a barrier: an exception then stops no other reed. -/
def State.noBarWait (s : State) : Bool := s.reeds.all (fun e => match e.2.wait with | .bar _ => false | _ => true)

/-- `t` is `s` with reed `x` stopped on an exception: its registers, its program counter and the buffer stand, the record of R148
names the code and the detail, and the step carries the fault (R147). -/
def stoppedOn (x : ReedRef) (code detail : Nat) (s t : State) : Prop :=
  t.reed x = { s.reed x with run := .stopped, wait := .none } ∧
  (∀ y : ReedRef, reedNo y ≠ reedNo x → t.reed y = s.reed y) ∧
  t.fld (Blk.reed.at x.die (17 * x.k + x.r) 0x01C) 31 31 = 1 ∧
  t.fld (Blk.reed.at x.die (17 * x.k + x.r) 0x01C) 23 16 = code ∧
  t.fld (Blk.reed.at x.die (17 * x.k + x.r) 0x01C) 15 8 = detail % 256 ∧
  sameRegsBut [Blk.reed.at x.die (17 * x.k + x.r) 0x01C, Blk.reed.at x.die (17 * x.k + x.r) 0x020,
    Blk.reed.at x.die (17 * x.k + x.r) 0x024] s t ∧
  (∀ e ∈ s.steps, e.uid = (s.reed x).step → ∃ f ∈ t.steps, f.uid = e.uid ∧ f.desc = e.desc ∧ f.fault = true) ∧
  { t with regs := s.regs, reeds := s.reeds, steps := s.steps } = s

/-- The `n` bytes at offset `a` lie in the SRAM of reed `x`, in banks that the reed owns (R142, R197). -/
def owned (s : State) (x : ReedRef) (a n : Nat) : Prop :=
  a + n ≤ 2 ^ 22 ∧ ∀ i : Nat, i < n → s.reedBank x (bits (a + i) 21 19) = (0, 1)

/-- The words of the `n` bytes at offset `a` of reed `x` carry no error (R210). -/
def clean (s : State) (x : ReedRef) (a n : Nat) : Prop := ∀ i : Nat, i < n → s.flipOf (reedSram x (a + i)) = 0

/-- No queue region of an enabled engine and no permitted write tile touches the `n` bytes at offset `a` (R142). -/
def storable (s : State) (x : ReedRef) (a n : Nat) : Prop :=
  queueHit (s.reed x).w (s.qbase x false) a n = false ∧ queueHit (s.reed x).a (s.qbase x true) a n = false ∧
  ∀ w ∈ s.permittedSrcs x, w.1 + w.2 ≤ a ∨ a + n ≤ w.1

/-- `t` is `s` with the `n` low bytes of `v` stored at offset `a` of reed `x`, least significant first: every other byte of memory,
every other reed, and everything but memory and reeds is unchanged. -/
def stored (x : ReedRef) (a n v : Nat) (s t : State) : Prop :=
  (∀ i : Nat, i < n → t.mem.byte (reedSram x (a + i)) = BitVec.ofNat 8 (v / 256 ^ i)) ∧
  sameMemOutside (reedSram x a) n s t ∧ (∀ p : Nat, t.flipOf p = s.flipOf p) ∧
  (∀ y : ReedRef, reedNo y ≠ reedNo x → t.reed y = s.reed y) ∧
  { t with mem := s.mem, flip := s.flip, reeds := s.reeds } = s

/-! ### Register writes that are turned away (R650, R778, R866) -/

/-- A register write of the requester reaches the register at address `a`. -/
def State.writable (s : State) (who : Requester) (a : Nat) : Bool :=
  (match who with | .host fn => s.manage fn | _ => true) && s.jtagPasses who a && !s.unreachable who (a / 2 ^ 23)

/-- What a write that does not reach its register leaves: it is counted and dropped; that of a JTAG instrument that the debug level
does not open is not made (R778). -/
def State.turnedAway (s : State) (who : Requester) (a : Nat) : State :=
  match who with
  | .host fn => if s.manage fn then s.badAccess who a 2 true else s.cntAdd .host (fnDie fn) (fnDie fn) 0x050 1
  | _ => if s.jtagPasses who a = false then s else s.badAccess who a 2 true

end Sys2Proof.Machine
namespace Sys2Proof
open Sys2Proof.Machine

/-- The requester and the address of the register that a command writes, for the commands that write one register. -/
def Instr.target (c : Instr) : Option (Requester × Nat) :=
  match c with
  | .brthPeriodNext w d _ => some (w, Blk.brth.at d d 0x104)
  | .brthGuard w d _ => some (w, Blk.brth.at d d 0x108)
  | .runSet w d _ => some (w, Blk.brth.at d d 0x008)
  | .runClear w d _ => some (w, Blk.brth.at d d 0x008)
  | .planCommit w d _ _ => some (w, Blk.brth.at d d 0x124)
  | .tongueFlush w x isA _ => some (w, Blk.reed.at x.die (17 * x.k + x.r) (engCtrl isA))
  | .excValidClear w x _ => some (w, Blk.reed.at x.die (17 * x.k + x.r) 0x01C)
  | .eccAddrClear w m _ => some (w, m.eccHi)
  | .bankHandoverGo w m n _ => some (w, m.own n)
  | .sbankMaskWrite w d hi _ => some (w, Blk.sec.at d d (if hi then 0x204 else 0x200))
  | .hornRingReset w d k _ => some (w, Blk.horn.at d k 0x10C)
  | .serpVerPublish w d _ => some (w, Blk.serp.at d d 0x108)
  | .serpCreg w d n _ => some (w, Blk.serp.at d d (0x140 + 4 * n))
  | .panpVerPublish w d _ => some (w, Blk.panp.at d d 0x108)
  | .mouthVerPublish w d _ => some (w, Blk.mouth.at d d 0x108)
  | .keywVerPublish w d _ => some (w, Blk.keyw.at d d 0x108)
  | .sngChkGo w d n _ => some (w, Blk.sng.at d n 0x118)
  | .reqtEntryWrite w d n _ => some (w, Blk.reqt.at d d (0x180 + 4 * n))
  | .sessRebuild w d _ => some (w, Blk.sess.at d d 0x008)
  | .partPreempt w d _ => some (w, Blk.part.at d d 0x140)
  | .mbxSendNotice w d _ => some (w, Blk.mbx.at d d 0x12C)
  | .mbxSendReply w d _ => some (w, Blk.mbx.at d d 0x12C)
  | .mbxReady w d _ => some (w, Blk.mbx.at d d 0x008)
  | .ckptNow w d _ => some (w, Blk.drone.at d d 0x008)
  | .droneFormat w d _ _ => some (w, Blk.drone.at d d 0x008)
  | .consFence w d k _ => some (w, Blk.cons.at d k 0x108)
  | .measureNow w d _ _ => some (w, Blk.emb.at d d 0x008)
  | .secBootDone w d _ => some (w, Blk.sec.at d d 0x108)
  | .secLcReq w d _ => some (w, Blk.sec.at d d 0x104)
  | .secSvnRaise w d _ => some (w, Blk.sec.at d d 0x118)
  | .secRevoke w d _ => some (w, Blk.sec.at d d 0x11C)
  | .secDbgResp63 w d _ => some (w, Blk.sec.at d d 0x4FC)
  | .secKeyLoad w d _ => some (w, Blk.sec.at d d 0x128)
  | .pwrStateReq w d _ => some (w, Blk.pwr.at d d 0x10C)
  | .pwrResetWarm w d _ => some (w, Blk.pwr.at d d 0x114)
  | .pwrResetDevice w d _ => some (w, Blk.pwr.at d d 0x114)
  | .bistGo w d _ => some (w, Blk.bist.at d d 0x008)
  | .topRegErrClear w d _ => some (w, Blk.top.at d d 0x504)
  | _ => none

/-- The host command of a command, with the payload size of its row and whether the function must hold `manage` (R669). -/
def Instr.hostCmd (c : Instr) : Option (HCmd × Nat × Bool) :=
  match c with
  | .objAlloc h _ => some (h, 24, true)
  | .objFree h => some (h, 8, true)
  | .objQuery h => some (h, 16, true)
  | .modelSwap h _ _ _ => some (h, 16, true)
  | .modelUnload h _ => some (h, 8, true)
  | .reproCheck h _ _ => some (h, 32, true)
  | .verPublish h => some (h, 16, true)
  | .reqSubmit h _ => some (h, 64, false)
  | .reqCancel h => some (h, 8, false)
  | .reqPause h => some (h, 8, false)
  | .reqResume h => some (h, 8, false)
  | .reqUpdate h => some (h, 24, false)
  | .reqQuery h => some (h, 16, false)
  | .sessCreate h => some (h, 8, false)
  | .sessSet h => some (h, 16, false)
  | .sessDelete h => some (h, 8, false)
  | .sessQuery h => some (h, 16, false)
  | .sessMove h => some (h, 16, false)
  | .sessExport h => some (h, 24, false)
  | .sessImport h _ _ _ => some (h, 24, false)
  | .sessPrefix h _ _ _ => some (h, 16, true)
  | .sessPrefixDelete h => some (h, 8, true)
  | _ => none

/-- The command names a die, a consort or a fault that no unit of its kind has. -/
def Instr.nowhere (c : Instr) : Bool :=
  match c with
  | .serpGather d | .serpPoolSum d | .serpPoolMean d | .serpPoolMax d | .serpUpdateOverwrite d | .serpUpdateScatterAdd d
  | .serpRetirePop d | .panpSearch d | .panpExactSearch d | .panpInsert d | .panpDelete d | .panpCompare d | .panpMerge d
  | .panpRetirePop d | .piccTopk d | .piccThreshold d | .piccMerge d | .piccSort d => !isChanter d
  | .serpFlashRowRead d _ | .migrationCommit d _ | .panpRecordTileRead d _ => !isChanter d
  | .mouthTokenise d _ | .bellDetokenise d _ _ | .packFetch d _ _ | .packPack d _ _ _ _ | .packPairs d _ _ _
  | .reqtEventLo d | .sessOpStart d | .rebuildDone d | .sessLostLo d | .mbxTake d _ | .linkChange d _ | .flashRead d _
  | .flashWrite d _ | .flashCreate d _ | .flashCommit d _ | .flashDelete d _ | .firmwareRestart d _ | .secureWipeDone d
  | .keywInit d | .keywAdvanceMask d | .keywMask d | .mouthRetirePop d | .keywRetirePop d => !isBellows d
  | .hornAttendPaged d k | .hornAttendDense d k _ | .hornMerge d k _ | .hornAppendOnly d k | .hornBackward d k => !consOk d k
  | .hornPost d k pos | .hornPreemptStop d k pos => !(consOk d k && decide (pos < 16))
  | .nandProgramDone d _ _ | .nandEraseDone d _ _ | .nandReadDone d _ _ _ _ _ | .mapPageRead d _ _ _ | .gcStart d _
  | .wearLevelStart d | .relocateCommit d | .targetTimeout d _ _ | .nandCalibration d _ _ _ | .calibrationDone d _ _
  | .checkpoint d _ | .droneTraining d _ | .droneRecovery d _ | .flushDone d => !isDrone d
  | .brthNumberLo d | .brthSkewMax d | .markerMiss d | .dieQuiesce d _ _ _ | .embMeasure d _ | .monitorAlarm d _ _
  | .thermalThrottle d _ | .thermalTrip d | .protectionParityError d => decide (8 ≤ d)
  | .dramClearDone d | .stackTrainingDone d _ | .avsAck d | .avsTimeout d | .dramRefresh d _ => decide (4 ≤ d)
  | .reedFence x _ _ => decide (4 ≤ x.die ∨ 8 ≤ x.k ∨ 17 ≤ x.r)
  | .tamperEvent n _ => decide (4 ≤ n)
  | .portReset n => decide (2 ≤ n)
  | .flitReplay n _ => decide (11 ≤ n)
  | .linkRetrain n => decide (11 ≤ n)
  | _ => false

end Sys2Proof
end

