-- ==== Sys2Proof/Certificates/Slice0/Obligations.lean ====
section
/-! DEFINITION. The statements for the provers. -/
open Sys2Proof Sys2Proof.Machine

/-- A step takes the command at the front of the queue and answers what the command does on the state with the rest of the
queue; on an empty queue the block idles. Every command completes: each of the constructors of `Instr`, with any operands, in any
state, answers a next state and leaves the queue's rest alone, for the spec stops none of them; what each next state is, the other
statements say. -/
def Obligations.StepRunsFront : Prop :=
  (∀ (c : Instr) (q : List Instr) (s : State),
    (s.pending = c :: q → step s = exec c { s with pending := q }) ∧ (s.pending = [] → step s = .next s)) ∧
  (∀ (c : Instr) (s : State), ∃ t : State, exec c s = .next t)

/-- What power-on reset leaves: the breath number, the period and the guard, no run bit, no step, no plan, memory that reads 0,
and the reset word of every register (R34, R38, R873). -/
def Obligations.ResetValues : Prop :=
  let s := State.reset
  s.breath.number = 0 ∧ s.breath.period = 500 ∧ s.rbit (Blk.brth.at 4 4 0x008) 0 = false ∧ s.steps = [] ∧ s.breath.plans = [] ∧
  (∀ a : Nat, s.mem.byte a = 0) ∧ (∀ a : Nat, s.reg a = regReset a) ∧ (∀ a : Nat, s.count a = 0) ∧
  s.reg (Blk.brth.at 4 4 0x104) = 500 ∧ s.pending = [] ∧ s.canonical = true

/-- Every instruction of the reed whose fields fit their places is read back from its 64-bit word, each field at every value its
place admits (R120). -/
def Obligations.ReedWordRoundTrip : Prop :=
  ∀ (i : Instr) (p : Nat × RI) (w : DWord), reedParts i = some p → p.2.fits = true → encodeReedWord i = some w →
    decodeReedWord p.2.reed w = some i

/-- Every instruction of the reed has a word, and a word whose opcode the table defines is the word of the instruction that it
spells: no bit of it is lost (R120, R122). Four words written out from R120 and R123: ADD s3, s1, s2; ADDI s1, s1, -1; BEQ s0,
s0, 0; an opcode of 0 is undefined. -/
def Obligations.ReedWords : Prop :=
  (∀ (i : Instr) (p : Nat × RI), reedParts i = some p → ∃ w : DWord, encodeReedWord i = some w) ∧
  (∀ (x : ReedRef) (w : DWord) (i : Instr), decodeReedWord x w = some i → encodeReedWord i = some w) ∧
  (∀ x : ReedRef, decodeReedWord x 0x0218440000000000 = some (.add { reed := x, d := 3, a := 1, b := 2 }) ∧
    decodeReedWord x 0x1008400000FFFFFF = some (.addi { reed := x, d := 1, a := 1, imm := 0xFFFFFF }) ∧
    decodeReedWord x 0x2000000000000000 = some (.beq { reed := x }) ∧ decodeReedWord x 0 = none)

/-- A field written reads back modulo its width; the other bits of the register, and every other register, keep their values. A
counter adds what is counted and saturates at all-ones; then its bit of CNT_OVF is set. Nothing but the counter and that bit
changes (R746, R877). -/
def Obligations.RegisterAndCounterLaws : Prop :=
  (∀ (s : State) (a hi lo v : Nat), lo ≤ hi → hi < 32 →
      (s.setFld a hi lo v).fld a hi lo = v % 2 ^ (hi + 1 - lo) ∧
      (∀ n : Nat, n < lo ∨ hi < n → ((s.setFld a hi lo v).reg a).getLsbD n = (s.reg a).getLsbD n) ∧
      sameRegsBut [a] s (s.setFld a hi lo v) ∧ { s.setFld a hi lo v with regs := s.regs } = s) ∧
  (∀ (s : State) (b : Blk) (die i off n : Nat),
      (s.cntAdd b die i off n).count (b.at die i off) = min (s.count (b.at die i off) + n) (2 ^ 48 - 1) ∧
      (2 ^ 48 - 1 ≤ s.count (b.at die i off) + n → ovfBit b off < 32 →
        (s.cntAdd b die i off n).rbit (inPage (b.at die i off) 0x028) (ovfBit b off) = true) ∧
      (s.count (b.at die i off) + n < 2 ^ 48 - 1 → (s.cntAdd b die i off n).regs = s.regs) ∧
      sameCountsBut [b.at die i off] s (s.cntAdd b die i off n) ∧
      { s.cntAdd b die i off n with cnt := s.cnt, regs := s.regs } = s)

/-- A register write of a host function that does not hold `manage` is counted and dropped, one of a JTAG instrument that the debug
level does not open is not made, and one to a die that cannot be reached is recorded and dropped, whatever the register: for every
command that writes a register of its own (R650, R778, R865, R866, R880). -/
def Obligations.WriteTurnedAway : Prop :=
  ∀ (c : Instr) (s : State) (who : Requester) (a : Nat), c.target = some (who, a) → s.writable who a = false →
    exec c s = .next (s.turnedAway who a)

/-- s0 reads 0 and a write to it is discarded; m0 reads all ones and cannot be written; a write to another register is read back
and leaves the others; a write of the 32 lanes of a vector register changes the lanes that the mask enables and no other; a
reed's state is changed at that reed alone (R116, R124). -/
def Obligations.ReedRegisterLaws : Prop :=
  (∀ (r : Reed) (i j : Nat) (v : DWord), r.sget 0 = 0 ∧ r.sset 0 v = r ∧ (i ≠ 0 → (r.sset i v).sget i = v) ∧
    (j ≠ i → (r.sset i v).sget j = r.sget j) ∧ { r.sset i v with s := r.s } = r) ∧
  (∀ (r : Reed) (i j : Nat) (w : Word), r.mget 0 = 0xFFFFFFFF ∧ r.mset 0 w = r ∧ (i ≠ 0 → (r.mset i w).mget i = w) ∧
    (j ≠ i → (r.mset i w).mget j = r.mget j) ∧ { r.mset i w with m := r.m } = r) ∧
  (∀ (r : Reed) (d : Nat) (mask : Word) (f : Nat → Word),
    (∀ e : Nat, e < 32 → (r.vwrite d mask f).vget d e = if mask.getLsbD e then f e else r.vget d e) ∧
    (∀ d' e : Nat, d' ≠ d → e < 32 → (r.vwrite d mask f).vget d' e = r.vget d' e) ∧ { r.vwrite d mask f with v := r.v } = r) ∧
  (∀ (s : State) (x y : ReedRef) (r : Reed), (s.setReed x r).reed x = r ∧
    (reedNo y ≠ reedNo x → (s.setReed x r).reed y = s.reed y) ∧ { s.setReed x r with reeds := s.reeds } = s)

/-- ADD to MAX, ADDI, ANDI, ORI, XORI and LUI complete: s[d] takes the result of s[a] and of s[b] or the immediate, the program
counter goes to the next instruction, and nothing else changes; SHLI, SHRI and SRAI complete for an amount of 0 to 63 and are
illegal above it (R123, R125). A branch, JAL or JR computes its target exactly: pc + imm * 8, or the signed value of s[a]. A
target in the program is taken; one that is negative, no multiple of 8 or past the program raises the instruction-fetch
exception and writes no register, JAL included (R114); so does the jump of a reed restored with the exception it had raised
(R151, R607). -/
def Obligations.ScalarInstructions : Prop :=
  (∀ (x : RI) (s : State),
      let r := s.reed x.reed
      let a := r.sget x.a
      let b := r.sget x.b
      let k := b.toNat % 64
      let n := x.imm.toNat
      let put : DWord → Res := fun v => .next (s.setReed x.reed (r.sset x.d v).advanced)
      let ill : Res := .next (s.reedExc x.reed 0x01 0 0)
      (ready { d := true, a := true, b := true } x s = true →
        exec (.add x) s = put (a + b) ∧ exec (.sub x) s = put (a - b) ∧ exec (.andR x) s = put (a &&& b) ∧
        exec (.orR x) s = put (a ||| b) ∧ exec (.xorR x) s = put (a ^^^ b) ∧ exec (.shl x) s = put (a <<< k) ∧
        exec (.shr x) s = put (a >>> k) ∧ exec (.sra x) s = put (a.sshiftRight k) ∧ exec (.mul x) s = put (a * b) ∧
        exec (.slt x) s = put (if a.toInt < b.toInt then 1 else 0) ∧ exec (.sltu x) s = put (if a.toNat < b.toNat then 1 else 0) ∧
        exec (.min x) s = put (if a.toInt < b.toInt then a else b) ∧ exec (.max x) s = put (if a.toInt < b.toInt then b else a)) ∧
      (ready { d := true, a := true, imm := true } x s = true →
        exec (.addi x) s = put (a + x.imm.signExtend 64) ∧ exec (.andi x) s = put (a &&& x.imm.zeroExtend 64) ∧
        exec (.ori x) s = put (a ||| x.imm.zeroExtend 64) ∧ exec (.xori x) s = put (a ^^^ x.imm.zeroExtend 64) ∧
        exec (.shli x) s = (if n ≤ 63 then put (a <<< n) else ill) ∧ exec (.shri x) s = (if n ≤ 63 then put (a >>> n) else ill) ∧
        exec (.srai x) s = (if n ≤ 63 then put (a.sshiftRight n) else ill)) ∧
      (ready { d := true, imm := true } x s = true → exec (.lui x) s = put (x.imm.signExtend 64 <<< 24))) ∧
  (∀ (x : RI) (s : State),
      let r := s.reed x.reed
      let a := r.sget x.a
      let b := r.sget x.b
      let rel : Int := (r.pc : Int) + x.imm.toInt * 8
      let go : Reed → Int → Res := fun q t =>
        if 0 ≤ t ∧ t % 8 = 0 ∧ t < 8 * (r.ibuf.length : Int) ∧ r.redo = none then .next (s.setReed x.reed (q.jumped t.toNat))
        else .next (s.reedExc x.reed 0x05 0 0)
      let br : Prop → Res → Prop := fun c o =>
        (c → o = go r rel) ∧ (¬c → o = .next (s.setReed x.reed r.advanced))
      (ready { a := true, b := true, imm := true } x s = true →
        br (a = b) (exec (.beq x) s) ∧ br (a ≠ b) (exec (.bne x) s) ∧ br (a.toInt < b.toInt) (exec (.blt x) s) ∧
        br (b.toInt ≤ a.toInt) (exec (.bge x) s) ∧ br (a.toNat < b.toNat) (exec (.bltu x) s) ∧
        br (b.toNat ≤ a.toNat) (exec (.bgeu x) s)) ∧
      (ready { d := true, imm := true } x s = true →
        exec (.jal x) s = go (r.sset x.d (BitVec.ofNat 64 (r.pc + 8))) rel) ∧
      (ready { a := true } x s = true → exec (.jr x) s = go r a.toInt))

/-- NOP changes nothing but the program counter. CRR reads the control registers 0 to 8 and CRW writes mode (its three bits),
sr_seed, sr_stream and sr_base; every other number, a read-only register and a reserved bit raise the illegal-operand exception,
which changes no register (R117, R118). -/
def Obligations.ControlRegisterInstructions : Prop :=
  ∀ (x : RI) (s : State),
    let r := s.reed x.reed
    let n := x.imm.toNat
    let v := r.sget x.a
    let bad : Res := .next (s.reedExc x.reed 0x02 0 0)
    let put : Reed → Res := fun q => .next (s.setReed x.reed q.advanced)
    (ready {} x s = true → exec (.nop x) s = put r) ∧
    (ready { d := true, imm := true } x s = true →
      (n ≤ 8 → exec (.crr x) s = put (r.sset x.d
        ([r.mode, r.tcfg, r.srSeed, r.srStream, r.srBase, r.prog, r.role, r.statSrc, r.statStride].getD n 0))) ∧
      (8 < n → exec (.crr x) s = bad)) ∧
    (ready { a := true, imm := true } x s = true →
      (n = 0 → exec (.crw x) s = (if v.toNat < 8 then put { r with mode := v } else bad)) ∧
      (n = 2 → exec (.crw x) s = put { r with srSeed := v }) ∧ (n = 3 → exec (.crw x) s = put { r with srStream := v }) ∧
      (n = 4 → exec (.crw x) s = put { r with srBase := v }) ∧ (n = 1 ∨ 4 < n → exec (.crw x) s = bad)) ∧
    (s.noBarWait = true → stoppedOn x.reed 0x02 0 s (s.reedExc x.reed 0x02 0 0))

/-- TRAP takes the software exception and reports imm[7:0], BRK the breakpoint exception, an undefined opcode the
illegal-instruction exception, a fetch past the last instruction the instruction-fetch exception (or, at a restored reed, the
exception its image recorded: R607), and an unused field that is not 0 makes an instruction illegal. Where no reed waits at a barrier an exception stops the reed with its state as it was, its
ERR_STATUS says so, and its step carries the fault. END ends the reed's part of its step; a reed that runs no step executes
nothing (R114, R115, R122, R147 to R149). -/
def Obligations.ReedExceptions : Prop :=
  ∀ (x : RI) (s : State),
    let r := s.reed x.reed
    let exc : Nat → Nat → Res := fun c d => .next (s.reedExc x.reed c d 0)
    (ready { imm := true } x s = true → exec (.trap x) s = exc 0x09 (x.imm.toNat % 256)) ∧
    (ready {} x s = true → exec (.brk x) s = exc 0x0A 0 ∧ exec (.endProg x) s = .next (s.endReed x.reed)) ∧
    (r.run = .running →
      (8 * r.ibuf.length ≤ r.pc →
        let f : Nat × Nat := r.redo.getD (0x05, 0)
        exec (.fetchPastEnd x.reed) s = exc f.1 f.2 ∧ exec (.illegalInstruction x.reed) s = exc f.1 f.2 ∧
        exec (.add x) s = exc f.1 f.2 ∧ exec (.endProg x) s = exc f.1 f.2) ∧
      (r.pc < 8 * r.ibuf.length → exec (.illegalInstruction x.reed) s = exc 0x01 0 ∧ exec (.fetchPastEnd x.reed) s = .next s ∧
        (x.d ≠ 0 → exec (.endProg x) s = exc 0x01 0) ∧ (x.c ≠ 0 → exec (.add x) s = exc 0x01 0))) ∧
    (r.run ≠ .running → exec (.endProg x) s = .next s ∧ exec (.add x) s = .next s ∧ exec (.st x) s = .next s ∧
      exec (.tsweep x) s = .next s) ∧
    (s.noBarWait = true →
      (∀ c d a : Nat, c < 128 → stoppedOn x.reed c d s (s.reedExc x.reed c d a)) ∧
      s.endReed x.reed = s.setReed x.reed { r with run := .ended, wait := .none })

/-- An aligned LD, LW, ST or SW in the reed's own banks, on words without errors, completes. A load puts the little-endian word
in s[d] and changes nothing else. A store, where no enabled queue region and no permitted write tile meets it, writes its 8 or 4
bytes of s[b] at s[a] + sext(imm), and every other byte of memory keeps its value. An access that is misaligned or passes
0x3F_FFFF, and a store that touches the queue region of an enabled engine, raises the address exception with its address, and
stores nothing (R123, R142, R149). In the last two clauses the reed owns every bank, so no refused access is counted. -/
def Obligations.ScalarLoadsAndStores : Prop :=
  ∀ (x : RI) (s : State),
    let r := s.reed x.reed
    let a := (r.sget x.a + x.imm.signExtend 64).toNat
    let put : DWord → Res := fun v => .next (s.setReed x.reed (r.sset x.d v).advanced)
    let bad : Res := .next (s.reedExc x.reed 0x04 0 (a % 2 ^ 48))
    let hit : Nat → Prop := fun n => queueHit r.w (s.qbase x.reed false) a n = true ∨ queueHit r.a (s.qbase x.reed true) a n = true
    (ready { d := true, a := true, imm := true } x s = true →
      (owned s x.reed a 8 → clean s x.reed a 8 → a % 8 = 0 →
        exec (.ld x) s = put (BitVec.ofNat 64 (s.mem.le (reedSram x.reed a) 8))) ∧
      (owned s x.reed a 4 → clean s x.reed a 4 → a % 4 = 0 →
        exec (.lw x) s = put ((BitVec.ofNat 32 (s.mem.le (reedSram x.reed a) 4)).signExtend 64))) ∧
    (ready { a := true, b := true, imm := true } x s = true →
      (owned s x.reed a 8 → clean s x.reed a 8 → a % 8 = 0 → storable s x.reed a 8 →
        ∃ t : State, exec (.st x) s = .next t ∧ stored x.reed a 8 (r.sget x.b).toNat s t ∧ t.reed x.reed = r.advanced) ∧
      (owned s x.reed a 4 → clean s x.reed a 4 → a % 4 = 0 → storable s x.reed a 4 →
        ∃ t : State, exec (.sw x) s = .next t ∧ stored x.reed a 4 (r.sget x.b).toNat s t ∧ t.reed x.reed = r.advanced)) ∧
    ((∀ n : Nat, n < 8 → s.reedBank x.reed n = (0, 1)) →
      (ready { d := true, a := true, imm := true } x s = true →
        (2 ^ 22 < a + 8 ∨ a % 8 ≠ 0 → exec (.ld x) s = bad) ∧ (2 ^ 22 < a + 4 ∨ a % 4 ≠ 0 → exec (.lw x) s = bad)) ∧
      (ready { a := true, b := true, imm := true } x s = true →
        (2 ^ 22 < a + 8 ∨ a % 8 ≠ 0 ∨ hit 8 → exec (.st x) s = bad) ∧
        (2 ^ 22 < a + 4 ∨ a % 4 ≠ 0 ∨ hit 4 → exec (.sw x) s = bad)))

/-- VLD and VLDS, where every enabled element can be read, widen the elements into the enabled lanes; VST and VSTS, where every
enabled element can be stored, write the narrowed lanes in ascending order and change no register. An INT4 format in a strided
form is an illegal operand (R132, R133). -/
def Obligations.VectorLoadsAndStores : Prop :=
  ∀ (x : RI) (s : State),
    let r := s.reed x.reed
    let base := (r.sget x.a + x.imm.signExtend 64).toNat
    let k := r.mget x.m
    let al := elemAlign x.fmt
    let stride := (r.sget x.c).toNat
    let at_ : Nat → Nat → Nat := fun st e => (elemAt x.fmt base st e).1
    let len : Nat → Nat → Nat := fun st e => (elemAt x.fmt base st e).2.1
    let rd : Nat → Res := fun st => .next ((s.elemsNote x.reed x.fmt base st k 32).setReed x.reed
      (r.vwrite x.d k (fun e => widen x.fmt (s.elemRead x.reed x.fmt base st e))).advanced)
    let wr : Nat → Res := fun st => .next ((((s.elemsNote x.reed x.fmt base st k 32).elemsWrite x.reed x.fmt base st k
      (fun e => narrow x.fmt r.ieee (r.rnd e) (r.vget x.b e)) 32).drew x.reed
        (if 3 ≤ x.fmt ∧ x.fmt ≤ 6 ∧ r.stoch = true then popcount 32 k.toNat else 0)).setReed x.reed r.advanced)
    let canRead : Nat → Prop := fun st => ∀ e : Nat, e < 32 → k.getLsbD e = true → s.sramCheck x.reed false (at_ st e) (len st e) al = .ok
    let canStore : Nat → Prop := fun st => ∀ e : Nat, e < 32 → k.getLsbD e = true → s.storeCheck x.reed (at_ st e) (len st e) al = .ok
    (ready { d := true, a := true, imm := true, fmt := true, m := true } x s = true → base % al = 0 → canRead al → exec (.vld x) s = rd al) ∧
    (ready { d := true, a := true, c := true, imm := true, fmt := true, m := true } x s = true →
      (x.fmt = 0 → exec (.vlds x) s = .next (s.reedExc x.reed 0x02 0 0)) ∧
      (x.fmt ≠ 0 → base % al = 0 → canRead stride → exec (.vlds x) s = rd stride)) ∧
    (ready { a := true, b := true, imm := true, fmt := true, m := true } x s = true → base % al = 0 → canStore al → exec (.vst x) s = wr al) ∧
    (ready { a := true, b := true, c := true, imm := true, fmt := true, m := true } x s = true →
      (x.fmt = 0 → exec (.vsts x) s = .next (s.reedExc x.reed 0x02 0 0)) ∧
      (x.fmt ≠ 0 → base % al = 0 → canStore stride → exec (.vsts x) s = wr stride))

/-- The lane instructions that always complete: VSEL, VFN with a defined fn, VCVT with a defined fn, VBCAST, VGET, VIDX, VRAND,
VPERM and VMOV. Only v[d] (s[d] for VGET) and the program counter change, and the count of generator outputs where the
instruction draws some (R124, R126, R134, R185). -/
def Obligations.LaneInstructions : Prop :=
  ∀ (x : RI) (s : State),
    let r := s.reed x.reed
    let k := r.mget x.m
    let drawn := popcount 32 k.toNat
    let put : (Nat → Word) → Res := fun f => .next (s.setReed x.reed (r.vwrite x.d k f).advanced)
    (ready { d := true, a := true, b := true, m := true } x s = true →
      exec (.vsel x) s = .next (s.setReed x.reed
        (r.vwrite x.d 0xFFFFFFFF (fun e => if k.getLsbD e then r.vget x.a e else r.vget x.b e)).advanced) ∧
      exec (.vperm x) s = put (fun e => r.vget x.a ((r.vget x.b e).toNat % 32))) ∧
    (ready { d := true, a := true, m := true, fn := true } x s = true → x.fn < 10 →
      exec (.vfn x) s = put (fun e => vfn x.fn r.ieee (r.vget x.a e))) ∧
    (ready { d := true, a := true, m := true, fmt := true, fn := true } x s = true → x.fn < 3 → (x.fn ≤ 1 → x.fmt = 0) →
      exec (.vcvt x) s = .next ((s.drew x.reed (if r.stoch then drawn else 0)).setReed x.reed
        (r.vwrite x.d k (fun e => vcvt x.fn x.fmt r.ieee (r.rnd e) (r.vget x.a e))).advanced)) ∧
    (ready { d := true, a := true, m := true } x s = true →
      exec (.vbcast x) s = put (fun _ => (r.sget x.a).setWidth 32) ∧
      exec (.vidx x) s = put (fun e => BitVec.ofNat 32 ((r.sget x.a).toNat + e)) ∧ exec (.vmov x) s = put (r.vget x.a)) ∧
    (ready { d := true, a := true, b := true } x s = true →
      exec (.vget x) s = .next (s.setReed x.reed
        (r.sset x.d ((r.vget x.a ((r.sget x.b).toNat % 32)).signExtend 64)).advanced)) ∧
    (ready { d := true, a := true, b := true, c := true, m := true } x s = true →
      exec (.vrand x) s = .next ((s.drew x.reed drawn).setReed x.reed
        (r.vwrite x.d k (fun e => rng (r.sget x.a) (r.sget x.b) (((r.sget x.c).toNat + e) % 2 ^ 64))).advanced))

/-- VOP, VFMA, VCMP, VREDL, MOP, MSET and MGET complete on the formats and functions that the tables define, and change their
destination alone. An undefined fn is illegal, and a format that is neither INT32 nor FP32 is an illegal operand (R122, R124,
R125, R135). -/
def Obligations.ArithmeticAndMaskInstructions : Prop :=
  ∀ (x : RI) (s : State),
    let r := s.reed x.reed
    let k := r.mget x.m
    let put : Reed → Res := fun q => .next (s.setReed x.reed q.advanced)
    let exc : Nat → Res := fun c => .next (s.reedExc x.reed c 0 0)
    let ar := x.fmt = 2 ∨ x.fmt = 7
    (ready { d := true, a := true, b := true, fmt := true, m := true, fn := true } x s = true →
      (ar → x.fn < 5 ∨ (x.fn < 11 ∧ x.fmt = 2) ∨ (x.fn < 13 ∧ x.b = 0 ∧ 10 < x.fn) →
        exec (.vop x) s = put (r.vwrite x.d k (fun e => vop x.fn x.fmt r.ieee r.wrapMode (r.vget x.a e) (r.vget x.b e)))) ∧
      (13 ≤ x.fn → exec (.vop x) s = exc 1) ∧ (x.fn < 11 → ¬ar → exec (.vop x) s = exc 2) ∧
      (x.fn < 4 → ar → 0 < x.d → x.d < 8 → exec (.vcmp x) s = put (r.mset x.d (maskBits k (r.mget x.d)
        (fun e => vcmp x.fn x.fmt (r.vget x.a e) (r.vget x.b e)) 32))) ∧
      (4 ≤ x.fn ∨ x.d = 0 ∨ 8 ≤ x.d → exec (.vcmp x) s = exc 1)) ∧
    (ready { d := true, a := true, b := true, c := true, fmt := true, m := true } x s = true →
      (ar → exec (.vfma x) s = put (r.vwrite x.d k
        (fun e => vfma x.fmt r.ieee r.wrapMode (r.vget x.a e) (r.vget x.b e) (r.vget x.c e)))) ∧ (¬ar → exec (.vfma x) s = exc 2)) ∧
    (ready { d := true, a := true, fmt := true, m := true, fn := true } x s = true → x.fn < 3 → ar →
      exec (.vredl x) s = put (r.lane0 x.d (reduce x.fn x.fmt r.ieee r.wrapMode
        (fun e => if k.getLsbD e then some (r.vget x.a e) else none)))) ∧
    (ready { d := true, a := true, b := true, fn := true } x s = true → 0 < x.d → x.d < 8 → x.a < 8 →
      (x.b < 8 → (x.fn = 0 → exec (.mop x) s = put (r.mset x.d (r.mget x.a &&& r.mget x.b))) ∧
        (x.fn = 1 → exec (.mop x) s = put (r.mset x.d (r.mget x.a ||| r.mget x.b))) ∧
        (x.fn = 2 → exec (.mop x) s = put (r.mset x.d (r.mget x.a ^^^ r.mget x.b)))) ∧
      (x.fn = 3 → x.b = 0 → exec (.mop x) s = put (r.mset x.d (~~~ r.mget x.a))) ∧ (4 ≤ x.fn → exec (.mop x) s = exc 1)) ∧
    (ready { d := true, a := true } x s = true →
      (0 < x.d → x.d < 8 → exec (.mset x) s = put (r.mset x.d ((r.sget x.a).setWidth 32))) ∧
      (x.d = 0 ∨ 8 ≤ x.d → exec (.mset x) s = exc 1) ∧
      (x.a < 8 → exec (.mget x) s = put (r.sset x.d ((r.mget x.a).setWidth 64))) ∧ (8 ≤ x.a → exec (.mget x) s = exc 1))

/-- In INT32 the lane operations are exact modulo 2^32 under WRAP, and saturate to the INT32 range under SAT; the logic
operations and shifts act on the bits, a shift by the low 5 bits of its amount (R124, R166, R177). -/
def Obligations.LaneIntegerArithmetic : Prop :=
  ∀ (a b : Word) (ieee : Bool),
    let sat : Int → Int := fun v => max (-(2 ^ 31)) (min (2 ^ 31 - 1) v)
    vop 0 2 ieee true a b = a + b ∧ vop 1 2 ieee true a b = a - b ∧ vop 2 2 ieee true a b = a * b ∧
    (vop 0 2 ieee false a b).toInt = sat (a.toInt + b.toInt) ∧ (vop 1 2 ieee false a b).toInt = sat (a.toInt - b.toInt) ∧
    (vop 2 2 ieee false a b).toInt = sat (a.toInt * b.toInt) ∧
    (∀ w : Bool, (vop 3 2 ieee w a b).toInt = min a.toInt b.toInt ∧ (vop 4 2 ieee w a b).toInt = max a.toInt b.toInt ∧
      vop 5 2 ieee w a b = (a &&& b) ∧ vop 6 2 ieee w a b = (a ||| b) ∧ vop 7 2 ieee w a b = (a ^^^ b) ∧
      vop 8 2 ieee w a b = a <<< (b.toNat % 32) ∧ vop 9 2 ieee w a b = a >>> (b.toNat % 32) ∧
      vop 10 2 ieee w a b = a.sshiftRight (b.toNat % 32)) ∧
    (vop 11 2 ieee false a b).toInt = sat |a.toInt| ∧ (vop 12 2 ieee false a b).toInt = sat (-a.toInt)

/-- VAR reads and VAW writes four accumulator rows of one array; TCLR zeroes the rows it names of every array and no other; TCFG
takes a configuration that passes its checks; TLOAD loads the stationary registers, records its source and counts itself. A row
past 1,023 raises the accumulator-range exception, a configuration that fails its checks the illegal-operand exception (R79,
R89, R127, R128, R131, R137). -/
def Obligations.AccumulatorAndArrayInstructions : Prop :=
  ∀ (x : RI) (s : State),
    let r := s.reed x.reed
    let arr := (r.sget x.a).toNat % 32
    let row := (r.sget x.b).toNat
    let n := (r.sget x.a).toNat
    let t := r.tcfg.toNat
    let put : Reed → Res := fun q => .next (s.setReed x.reed q.advanced)
    let exc : Nat → Res := fun c => .next (s.reedExc x.reed c 0 0)
    (ready { d := true, a := true, b := true, m := true } x s = true →
      exec (.var x) s = if row + 3 ≤ 1023 then put (r.vwrite x.d (r.mget x.m) (fun e => r.accGet arr (row + e / 8) (e % 8)))
        else exc 3) ∧
    (ready { a := true, b := true, c := true, m := true } x s = true →
      exec (.vaw x) s = if row + 3 ≤ 1023 then put (r.vaw x.c arr row (r.mget x.m) 32) else exc 3) ∧
    (ready { a := true } x s = true →
      exec (.tcfg x) s = if tcfgOk n = true then put { r with tcfg := r.sget x.a } else exc 2) ∧
    (ready { a := true, b := true } x s = true →
      (n = 0 ∨ 1024 < n → exec (.tclr x) s = exc 2) ∧ (0 < n → n ≤ 1024 → 1024 < row + n → exec (.tclr x) s = exc 3) ∧
      (0 < n → row + n ≤ 1024 → ∃ q : Reed, exec (.tclr x) s = put q ∧ { q with acc := r.acc } = r ∧
        ∀ i ρ c : Nat, ρ < 1024 → c < 8 → q.accGet i ρ c = if row ≤ ρ ∧ ρ < row + n then 0 else r.accGet i ρ c) ∧
      (n % (if blockBytes t = 32 then 32 else 64) = 0 → row % (if blockBytes t = 32 then 32 else 64) = 0 →
        tloadBad s x.reed t n row = none → tloadWait s x.reed t n row = false →
        exec (.tload x) s = .next (((noteArrays s x.reed t n row (tG t * tL t)).cntAdd .reed x.reed.die (17 * x.reed.k + x.reed.r) 0x040 1).setReed x.reed
          ({ loadArrays s x.reed t n row (tG t * tL t) r with statSrc := r.sget x.a, statStride := r.sget x.b } : Reed).advanced)) ∧
      (n % (if blockBytes t = 32 then 32 else 64) = 0 → row % (if blockBytes t = 32 then 32 else 64) = 0 →
        tloadBad s x.reed t n row = none → tloadWait s x.reed t n row = true →
        exec (.tload x) s = .next (s.setReed x.reed { r with wait := .bank })))

/-- The last block of a TSWEEP commits its rows, counts its beats and clears the progress; the last group of a VRED leaves the
reduction in lane 0 and clears the progress; a VRED of no element needs no alignment. A sweep that finds its stream empty waits,
the rows of its block kept aside. Under a pre-emption request a sweep stops at the end of a block and a VRED at the end of a
group, with the progress that has committed. Counts and rows out of range raise their exceptions (R89, R92, R129, R136, R153). -/
def Obligations.SweepAndReduction : Prop :=
  ∀ (x : RI) (s : State),
    let r := s.reed x.reed
    let t := r.tcfg.toNat
    let n := (r.sget x.a).toNat
    let row := (r.sget x.b).toNat
    let src := (r.sget x.c).toNat
    let stride := (r.sget x.d).toNat
    let j := r.prog.toNat
    let beats : Nat → Nat := fun rows => ceilDiv rows (if t44 t && !tSw t then 2 else 1) * cyclesPerBeat t
    let active : State → Nat → State := fun u rows => u.cntAdd .reed x.reed.die (17 * x.reed.k + x.reed.r) 0x030 (beats rows)
    let base := n
    let cnt := min 32 (row - j)
    let bytes := if fmtBits x.fmt = 4 then (cnt + 1) / 2 else cnt * (fmtBits x.fmt / 8)
    let fmtAt := (elemAt x.fmt base (elemAlign x.fmt) j).1
    let g := vredGroup s x r base j cnt
    (ready { d := true, a := true, b := true, c := true } x s = true → 0 < n → n ≤ 1024 → row + n ≤ 1024 →
      (tSw t = false → x.c = 0 ∧ x.d = 0) → (t44 t = true → tSw t = false → n % 2 = 0) →
      (tSw t = true → src % 64 = 0 ∧ stride % 64 = 0) → j < n →
      (∀ (s1 : State) (r1 : Reed), sweepBlock x.reed n row src stride 8 r.sub (j + r.sub) s r.openBlock = .ok s1 r1 →
        (n ≤ j + 8 → exec (.tsweep x) s =
          .next ((active s1 (n - j)).setReed x.reed ({ r1.commitBlock n with prog := 0 } : Reed).advanced)) ∧
        (j + 8 < n → s.preAsked r = true → exec (.tsweep x) s =
          .next ((active s1 8).setReed x.reed { r1.commitBlock (j + 8) with wait := .none }))) ∧
      (∀ (s1 : State) (r1 : Reed) (rows : Nat) (w : Wait),
        sweepBlock x.reed n row src stride 8 r.sub (j + r.sub) s r.openBlock = .stall s1 r1 rows w →
          exec (.tsweep x) s = .next (s1.setReed x.reed { r1.keepBlock r rows with wait := w }))) ∧
    (ready { d := true, a := true, b := true, c := true } x s = true → tSw t = true →
      (n = 0 ∨ 1024 < n → exec (.tsweep x) s = .next (s.reedExc x.reed 0x02 0 0)) ∧
      (0 < n → n ≤ 1024 → src % 64 = 0 → stride % 64 = 0 → 1024 < row + n →
        exec (.tsweep x) s = .next (s.reedExc x.reed 0x03 0 0))) ∧
    (ready { d := true, a := true, b := true, fmt := true, m := true, fn := true } x s = true → x.m = 0 → x.fn < 3 → row ≤ 4194304 →
      row = 0 ∨ base % elemAlign x.fmt = 0 →
      (row ≤ j → exec (.vred x) s = .next (s.setReed x.reed ({ r.lane0 x.d (reduce x.fn x.fmt r.ieee r.wrapMode
        (fun l => if l < row then some (r.vget x.d l) else none)) with prog := 0 } : Reed).advanced)) ∧
      (j < row → s.sramCheck x.reed false fmtAt bytes 1 = .ok →
        (row < j + 32 → exec (.vred x) s = .next ((s.noteRead x.reed fmtAt bytes).setReed x.reed
          ({ g.lane0 x.d (reduce x.fn x.fmt r.ieee r.wrapMode (fun l => if l < row then some (g.vget x.d l) else none)) with
            prog := 0 } : Reed).advanced)) ∧
        (j + 32 ≤ row → s.preAsked r = true → exec (.vred x) s = .next ((s.noteRead x.reed fmtAt bytes).setReed x.reed
          { g with prog := BitVec.ofNat 64 (j + 32), wait := .none }))))

/-- TGO starts an engine on a list; TWAIT returns the slot of a landed tile and waits for one that has not landed; TREL releases
the oldest tiles; TPUT permits further write tiles; TSTAT reads the status; FENCE waits until the permitted write tiles have
reached memory; BAR fences and waits at its barrier (R139, R140). When every busy reed of the scope waits at the barrier, one
command takes all of them past it in the same step: each waits for nothing, its program counter goes to the next instruction and
it has passed one barrier more; no reed outside the scope changes, and nothing but the reeds changes (R143). -/
def Obligations.TongueInstructions : Prop :=
  (∀ (x : RI) (s : State),
      let r := s.reed x.reed
      let isA := decide (x.fn = 1)
      let e := r.eng isA
      let n := (r.sget x.a).toNat
      let put : Reed → Res := fun q => .next (s.setReed x.reed q.advanced)
      let waits : Wait → Res := fun w => .next (s.setReed x.reed { r with wait := w })
      (ready { a := true, fn := true } x s = true → x.fn < 2 →
        (e.err = 0 → e.active = false → s.qbase x.reed isA + 4096 * e.slots ≤ 2 ^ 22 →
          (∀ b : Nat, b < 8 → s.reedBank x.reed b = (0, 1)) →
          exec (.tgo x) s = .next ((s.setFld (Blk.reed.at x.reed.die (17 * x.reed.k + x.reed.r) (if isA then 0x130 else 0x110)) 0 0 1).setReed
            x.reed (r.setEng isA { enable := true, slots := e.slots, look := e.look, cfgPend := e.cfgPend, active := true,
                                   list := n, desc := n }).advanced)) ∧
        ((isA = true → s.hornOwnsA x.reed = false) → n ≤ (e.tiles.takeWhile (fun t => t.landed)).length → (isA = false → e.col = 0) →
          exec (.trel x) s = .next ((s.releaseTiles x.reed isA n).setReed x.reed ((s.releaseTiles x.reed isA n).reed x.reed).advanced))) ∧
      (ready { d := true, a := true, fn := true } x s = true → x.fn < 2 → (isA = true → s.hornOwnsA x.reed = false) → n < e.slots →
        (∀ t : Tile, e.tiles[n]? = some t → t.landed = true → t.poison = false →
          exec (.twait x) s = put (r.sset x.d (BitVec.ofNat 64 t.slot))) ∧
        (∀ t : Tile, e.tiles[n]? = some t → t.landed = false → exec (.twait x) s = waits .tile) ∧
        (∀ t : Tile, e.tiles[n]? = some t → t.landed = true → t.poison = true → exec (.twait x) s = .next (s.reedExc x.reed 0x07 0 0))) ∧
      (ready { a := true } x s = true → r.a.active = true →
        exec (.tput x) s = put { r with a := { r.a with permits := r.a.permits + n } }) ∧
      (ready { d := true, fn := true } x s = true → x.fn < 2 → exec (.tstat x) s = put (r.sset x.d (BitVec.ofNat 64 e.status))) ∧
      (ready {} x s = true → exec (.fence x) s = if s.fenceDone x.reed = true then put r else waits .fence) ∧
      (ready { fn := true } x s = true → x.fn < 3 → s.inPart r = false → s.reeds.all (fun f => !f.2.over) = true →
        exec (.bar x) s = if s.fenceDone x.reed = true then waits (.bar x.fn) else waits .fence)) ∧
  (∀ (x : ReedRef) (s : State) (sc : Nat), (s.reed x).wait = .bar sc → s.barReady x sc = true →
      ∃ t : State, exec (.barrierRelease x) s = .next t ∧ { t with reeds := s.reeds } = s ∧
        (∀ y : ReedRef, (s.reed y).wait = .bar sc → s.inScope x sc (reedNo y) = true →
          (t.reed y).wait = .none ∧ (t.reed y).pc = (s.reed y).pc + 8 ∧ SMap.get (fun _ => 0) (t.reed y).bars sc =
            SMap.get (fun _ => 0) (s.reed y).bars sc + 1) ∧
        (∀ y : ReedRef, s.inScope x sc (reedNo y) = false → t.reed y = s.reed y))

/-- A read issues while a slot is free within the horizon, into slot number mod queue_slots of the queue region; a permitted
write tile issues; the tile that lands fills its slot and counts, poisoned where it could not be corrected; a finished write tile
reaches memory once the reads before it have landed; a pending control write takes effect once no read is outstanding; a flush
discards the tiles and clears the error; a 1 in exc_valid releases a stopped reed (R94, R95, R98, R101, R107, R140, R150). -/
def Obligations.TongueEvents : Prop :=
  ∀ (who : Requester) (x : ReedRef) (isA : Bool) (s : State),
    let r := s.reed x
    let e := r.eng isA
    let page := 17 * x.k + x.r
    (∀ d : TDesc, e.enable = true → e.active = true → e.done = false → e.issuedW ≤ e.wnum →
      let s1 := s.tongueDecode x isA 64
      let s2 := s1.setReed x (s1.reed x)
      let q := s2.reed x
      let f := q.eng isA
      f.cur = some d → f.done = false → f.issuedW ≤ f.wnum →
      (d.kind ≠ 2 → s2.slotFree x isA f = true → exec (.tongueIssue x isA) s = .next (s2.setReed x (q.setEng isA { f.advance d with
        num := f.num + 1, tiles := f.tiles ++ [{ addr := d.tileAddr f.row f.idx, phys := d.tilePhys s2 x f.row f.idx
                                                 slot := s2.qbase x isA + f.num % f.slots * 4096, desc := f.desc, row := f.row, idx := f.idx
                                                 num := f.num, wnum := f.wnum, landed := false, poison := false
                                                 notify := d.notify && f.atFinal d }] }))) ∧
      (let src := d.aux + 4096 * (f.row * d.inner + f.idx)
       let ps := (List.range 4096).map (fun i => reedSram x (src + i))
       d.kind = 2 → 0 < f.permits → s2.ownRange x src 4096 = .ok → s2.anyBad ps = false →
       exec (.tongueIssue x isA) s = .next ((s2.setReed x (q.setEng isA { f.advance d with
        wnum := f.wnum + 1, issuedW := f.issuedW + 1, permits := f.permits - 1, writes := f.writes ++
          [{ src := src, addr := d.tileAddr f.row f.idx, phys := d.tilePhys s2 x f.row f.idx, num := f.wnum
             notify := d.notify && f.atFinal d }] })).noteWords ps))) ∧
    (∀ t : Tile, e.writes = [] → e.tiles.find? (fun u => decide (u.num = t.num) && !u.landed) = some t →
      let ps := (List.range 4096).map (fun i => t.phys + i)
      let marked : Bool → List Tile := fun bad => e.tiles.map (fun u => if u.num = t.num then { u with landed := true, poison := bad } else u)
      (s.anyBad ps = false → exec (.tileLanded x isA t.num false) s =
        .next (((((s.noteWords ps).writePhys ((List.range 4096).map (fun i => reedSram x t.slot + i)) (s.readPhys ps)).setReed x
          (r.setEng isA { e with tiles := marked false })).cntAdd .reed x.die page (if isA then 0x050 else 0x048) 1))) ∧
      (∃ u : State, exec (.tileLanded x isA t.num true) s = .next u ∧ ((u.reed x).eng isA).tiles = marked true)) ∧
    (∀ (w : WTile) (ws : List WTile), r.a.writes = w :: ws →
      let s1 := (s.applyWrite x w).cntAdd .reed x.die page 0x050 1
      (r.a.readBefore w = true → exec (.tongueWriteDone x) s = .next s) ∧
      (r.a.readBefore w = false → w.notify = false → exec (.tongueWriteDone x) s =
        .next (s1.setReed x { s1.reed x with a := { (s1.reed x).a with writes := ws }.settle }))) ∧
    (∀ slots look : Nat, e.cfgPend = some (slots, look) → e.outstanding = false →
      exec (.tongueCfgApply x isA) s = .next (s.setReed x (r.setEng isA { e with cfgPend := none, slots := slots, look := look }))) ∧
    (∀ v : Word, s.writable who (Blk.reed.at x.die page (if isA then 0x130 else 0x110)) = true → fieldW v 31 21 = 0 →
      fieldW v 7 2 = 0 → 2 ≤ fieldW v 20 16 → fieldW v 20 16 ≤ 16 → 1 ≤ fieldW v 15 8 → fieldW v 15 8 ≤ 64 → fieldW v 0 0 = 0 →
      e.writes = [] →
      ∃ t : State, exec (.tongueFlush who x isA v) s = .next t ∧ ((t.reed x).eng isA).err = 0 ∧ ((t.reed x).eng isA).tiles = [] ∧
        ((t.reed x).eng isA).enable = false ∧ sameMem s t ∧
        sameRegsBut [Blk.reed.at x.die page (if isA then 0x130 else 0x110)] s t) ∧
    (∀ v : Word, s.writable who (Blk.reed.at x.die page 0x01C) = true → v = 0x80000000 → r.run = .stopped →
      exec (.excValidClear who x v) s = .next ((s.setReg (Blk.reed.at x.die page 0x01C)
        (s.reg (Blk.reed.at x.die page 0x01C) &&& 0x7FFFFFFF)).setReed x { r with run := .ended }))

/-- A read of BRTH_NUMBER_LO returns the low half of the breath number and latches the high half; a read of BRTH_NUMBER_HI
returns what is latched, whatever the number has become. Nothing else changes (R40). -/
def Obligations.BreathNumberRead : Prop :=
  ∀ (die : Nat) (s : State), die < 8 →
    ∃ t : State, exec (.brthNumberLo die) s = .next t ∧ t.readData = s.breath.number % 2 ^ 32 ∧
      { t with readData := s.readData, breath := s.breath } = s ∧ { t.breath with hi := s.breath.hi } = s.breath ∧
      ∀ u : State, u.breath.hi = t.breath.hi → SMap.get (fun _ => 0) u.breath.hi die = BitVec.ofNat 32 (s.breath.number / 2 ^ 32)

/-- A write of BRTH_PERIOD_NEXT with a value below 100 or above 4,000 is refused: every pending value stands, `period_reject` is
set in BRTH_INT_STATUS and the event is recorded in the block's ERR_STATUS (R37). -/
def Obligations.PeriodOutOfRange : Prop :=
  ∀ (who : Requester) (v : Word) (s : State), s.writable who (Blk.brth.at 4 4 0x104) = true →
    fieldW v 11 0 < 100 ∨ 4000 < fieldW v 11 0 →
    ∃ t : State, exec (.brthPeriodNext who 4 v) s = .next t ∧ t.breath = s.breath ∧
      t.reg (Blk.brth.at 4 4 0x104) = s.reg (Blk.brth.at 4 4 0x104) ∧ t.rbit (Blk.brth.at 4 4 0x010) 4 = true ∧
      t.rbit (Blk.brth.at 4 4 0x01C) 2 = true ∧ { t with regs := s.regs } = s ∧
      sameRegsBut [Blk.brth.at 4 4 0x010, Blk.brth.at 4 4 0x01C, Blk.brth.at 4 4 0x020, Blk.brth.at 4 4 0x024] s t

/-- A period of 100 to 4,000 that lies above the guard is pending for the edge that starts the next breath but one, the last
write of a breath counting; a period not above the guard is refused, and one that a registered model would not fit is not written
(R56; that the register then stands is the model's choice, log entry 200). A guard of at least 2 that lies below the period and every
pending period is stored; any other is refused (R36, R53). After BOOT_DONE, while the block is not frozen, a write that sets
`run` starts the generator and one that clears it stops it, the breath number standing; before BOOT_DONE setting it is refused.
A read of BRTH_SKEW_MAX returns the largest offset and clears it (R38, R39, R41, R773). -/
def Obligations.BreathRegisters : Prop :=
  (∀ (who : Requester) (v : Word) (s : State),
      let p := fieldW v 11 0
      let g := fieldW v 9 0
      let guard := s.fld (Blk.brth.at 4 4 0x108) 9 0
      (s.writable who (Blk.brth.at 4 4 0x104) = true → 100 ≤ p → p ≤ 4000 →
        (guard < p → s.modelsFit p = false → exec (.brthPeriodNext who 4 v) s = .next s) ∧
        (guard < p → s.modelsFit p = true → s.frozen (Blk.brth.at 4 4 0x104) = false →
          ∃ t : State, exec (.brthPeriodNext who 4 v) s = .next t ∧ t.breath.number = s.breath.number ∧ t.breath.period = s.breath.period ∧
            t.breath.pendPeriod = s.breath.pendPeriod.filter (fun q => decide (q.1 ≠ s.breath.number + 2)) ++ [(s.breath.number + 2, p)] ∧
            t.rbit (Blk.brth.at 4 4 0x104) 31 = true ∧ sameMem s t ∧ { t with regs := s.regs, breath := s.breath } = s) ∧
        (p ≤ guard → exec (.brthPeriodNext who 4 v) s =
          .next ((s.refuseWrite who .brth 4 4 0x104 v).raise (Blk.brth.at 4 4 0) 4))) ∧
      (s.writable who (Blk.brth.at 4 4 0x108) = true →
        (2 ≤ g → g < s.breath.period → (∀ q ∈ s.breath.pendPeriod, g < q.2) →
          exec (.brthGuard who 4 v) s = .next (s.writeAt who .brth 4 4 0x108 v)) ∧
        (g < 2 ∨ s.breath.period ≤ g ∨ (∃ q ∈ s.breath.pendPeriod, q.2 ≤ g) →
          exec (.brthGuard who 4 v) s = .next (s.refuseWrite who .brth 4 4 0x108 v)))) ∧
  ((∀ (who : Requester) (v : Word) (s : State), s.writable who (Blk.brth.at 4 4 0x008) = true →
      s.frozen (Blk.brth.at 4 4 0x008) = false → s.bootDone = true →
        (∃ t : State, exec (.runSet who 4 v) s = .next t ∧ t.rbit (Blk.brth.at 4 4 0x008) 0 = true ∧ { t with regs := s.regs } = s) ∧
        (∃ t : State, exec (.runClear who 4 v) s = .next t ∧ t.rbit (Blk.brth.at 4 4 0x008) 0 = false ∧ { t with regs := s.regs } = s)) ∧
    (∀ (who : Requester) (v : Word) (s : State), s.writable who (Blk.brth.at 4 4 0x008) = true → s.bootDone = false →
      s.rbit (Blk.brth.at 4 4 0x008) 0 = false →
        exec (.runSet who 4 v) s = .next ((s.writeAt who .brth 4 4 0x008 ((v ||| 1) &&& 0xFFFFFFFE)).refuseAt who .brth 4 4 0x008)) ∧
    (∀ (die : Nat) (s : State), die < 8 →
      ∃ t : State, exec (.brthSkewMax die) s = .next t ∧ t.readData = (s.reg (Blk.brth.at die die 0x148)).toNat ∧
        t.reg (Blk.brth.at die die 0x148) = 0 ∧ sameRegsBut [Blk.brth.at die die 0x148] s t ∧
        { t with regs := s.regs, readData := s.readData } = s))

/-- A commit of at most 96 good descriptors whose target has the low bits of the next breath is accepted for it, one with the
low bits of the current breath is accepted late for the edge after next and counted, any other is stale; a count above 96 and a
bad descriptor have the plan rejected, and an accepted plan alone replaces an earlier one (R48 to R50). The planner commits a
plan that keeps its contract, the objects that the plan needs staged first; one that breaks it is not committed (R54 to R57, R65
to R67; the contract's place in the model is log entry 178). -/
def Obligations.PlanCommitResults : Prop :=
  (∀ (who : Requester) (v : Word) (plan : PlanCase) (s : State),
    s.writable who (Blk.brth.at 4 4 0x124) = true → s.sec.pendingReset = false →
    let lo := fieldW v 15 0
    let n := fieldW v 23 16
    let s0 := plan.staged.foldl (fun u p => u.stageObj p) s
    let s1 := s0.writeAt who .brth 4 4 0x124 v
    let c := s1.breath.number
    let go : Res := exec (.planCommit who 4 v plan) s
    (s0.plannerCommits lo n plan = false → go = .next s) ∧
    (s0.plannerCommits lo n plan = true →
      (n ≤ 96 → lo = (c + 1) % 2 ^ 16 → s1.firstBad (c + 1) n s1.goneNow = none →
        go = .next (((s1.notePlan (c + 1) n).planAccept (c + 1) n false plan).planResult 0 0)) ∧
      (n ≤ 96 → lo = c % 2 ^ 16 → s1.firstBad c n s1.goneNow = none →
        go = .next ((((s1.notePlan c n).planAccept (c + 2) n true plan).cntAdd .brth 4 4 0x038 1).planResult 1 0)) ∧
      (n ≤ 96 → lo ≠ (c + 1) % 2 ^ 16 → lo ≠ c % 2 ^ 16 → go = .next (s1.planResult 2 0)) ∧
      (96 < n → go = .next (s1.planResult 3 0xFF)) ∧
      (∀ i : Nat, n ≤ 96 → lo = (c + 1) % 2 ^ 16 → s1.firstBad (c + 1) n s1.goneNow = some i →
        go = .next ((s1.notePlan (c + 1) (i + 1)).planResult 3 i)))) ∧
  (∀ (u : State) (b n : Nat) (late : Bool) (plan : PlanCase),
    (u.planAccept b n late plan).breath = { u.breath with plans := u.breath.plans.filter (fun p => decide (p.breath ≠ b)) ++
      [{ breath := b, count := n, late := late, uses := plan.uses, gone := u.goneNow, moved := u.movedParts plan }] }) ∧
  (∀ (u : State) (r i : Nat), r < 4 → i < 256 →
    let t := u.planResult r i
    t.fld (Blk.brth.at 4 4 0x128) 1 0 = r ∧ t.fld (Blk.brth.at 4 4 0x128) 23 16 = i ∧ { t with regs := u.regs } = u ∧
    (r = 1 ∨ r = 3 → t.rbit (Blk.brth.at 4 4 0x010) 1 = true) ∧
    sameRegsBut [Blk.brth.at 4 4 0x128, Blk.brth.at 4 4 0x010] u t)

/-- While `run` is set an edge performs its actions in the order of R43: overruns, the number and a due period, quiesces and
publishes, the refill of the buckets, the requests, the clocks, then the held steps and the plan. Its second action adds 1 to
the breath number and brings a due period into effect; its first marks the steps still running (R36, R38, R43, R61). The place
of the work that R43 does not list is the model's choice (log entry 12). -/
def Obligations.EdgeActions : Prop :=
  ∀ (info : EdgeInfo) (s : State), s.rbit (Blk.brth.at 4 4 0x008) 0 = true →
    let s0 : State := { s with edgeReplies := [] }
    let s1 := s0.overrunEdge
    let s2 := s1.numberEdge info.skews
    let s3 := s2.recoverQuiesce.versionEdge.refill
    let s4 := (s3.requestEdge info).clockEdge info.avgW info.cool
    exec (.breathEdge info) s = .next ((s4.dispatchEdge.recoverWindows 18).topFault.modelsReady.linkEdge).forgetSteps ∧
    s2.breath.number = s.breath.number + 1 ∧
    s2.breath.period = (match s.breath.pendPeriod.find? (fun p => decide (p.1 = s.breath.number + 1)) with
      | some p => p.2
      | none => s.breath.period) ∧
    (∀ e ∈ s.steps, e.active = true → ∃ f ∈ s1.steps, f.uid = e.uid ∧ f.overrun = true ∧ f.overBreaths = min (e.overBreaths + 1) 255) ∧
    (∀ e ∈ s.steps, e.active = false → e ∈ s1.steps)

/-- A step of no group that has ended on all its units retires with its measures, each step record of 32 bytes holding its
fields in their places, its DRAM traffic at least the program bytes that its reeds copied (R112); a chain step whose link has ended goes to the next link; without `run` a recovery point takes the place
of the edge (R45, R58, R625, R911). A die other than bellows-A that misses the marker of an edge counts it and says so once an
edge; a second edge in a row takes its link down. In a breath whose number is a multiple of 4,096 every use count of every
Serpent is halved, once (R42, R321). -/
def Obligations.StepRetires : Prop :=
  ((∀ (die slot : Nat) (f d u : Nat) (e : Step) (s : State), s.stepIn die slot = some e → s.stepOf e.uid = some e → e.desc.group = 0 →
      s.stepDone e = true → e.lastLink = true → (e.chain = [] ∨ e.fault = false) →
      exec (.stepRetire die slot [(f, d, u)]) s = .next (s.retire e.uid f d u false)) ∧
    (∀ (die slot : Nat) (e : Step) (s : State), s.stepIn die slot = some e → s.stepDone e = false → s.groupOf e = [e] →
      exec (.stepRetire die slot []) s = .next s) ∧
    (∀ (e : Step) (f d u : Nat) (drop : Bool), e.breath < 2 ^ 64 → e.desc.stepId < 2 ^ 32 → e.desc.group < 2 ^ 16 → e.desc.die < 8 →
      let b := e.record f d u drop
      b.length = 32 ∧ leOf (b.take 8) = e.breath ∧ leOf ((b.drop 8).take 4) = e.desc.stepId ∧ leOf ((b.drop 12).take 2) = e.desc.group ∧
      leOf ((b.drop 14).take 1) = e.desc.die ∧ leOf ((b.drop 16).take 4) = min f (2 ^ 32 - 1) ∧
      leOf ((b.drop 24).take 4) = min (max d (ceilDiv e.progBytes 1024)) (2 ^ 32 - 1) ∧ leOf ((b.drop 28).take 2) = min u 65535 ∧ leOf ((b.drop 30).take 1) = min e.overBreaths 255) ∧
    (∀ (die slot : Nat) (e : Step) (s : State), s.stepIn die slot = some e → s.groupOf e = [e] → e.chain ≠ [] → e.lastLink = false →
      e.stopping = false → s.stepDone e = true → e.fault = false → exec (.chainLinkStart die slot) s = .next (s.nextLink e)) ∧
    (∀ s : State, s.rbit (Blk.brth.at 4 4 0x008) 0 = false →
      exec .recoveryPoint s = .next ((s.recoverQuiesce.recoverWindows 18).topFault) ∧ ∀ info : EdgeInfo, exec (.breathEdge info) s = .next s)) ∧
  ((∀ (die : Nat) (s : State), die < 8 → die ≠ 4 → die ∉ s.breath.missedNow →
      let s1 := (s.cntAdd .brth die die 0x048 1).raise (Blk.brth.at die die 0) 3
      let s2 : State := { s1 with breath := { s1.breath with missedNow := s1.breath.missedNow ++ [die] } }
      exec (.markerMiss die) s = .next (if s.breath.missed.contains die then s2.linkDown (if die < 4 then 4 + die else 3 + die) 8 else s2)) ∧
    (∀ s : State, s.breath.number ≠ 0 → s.breath.number % 4096 = 0 → s.breath.decayed ≠ s.breath.number →
      ∃ t : State, exec .useCountDecay s = .next t ∧ t.breath.decayed = s.breath.number ∧ t.breath.number = s.breath.number ∧
        ∀ c : Nat, c < 4 → (t.serp c).cache = (s.serp c).cache.map (fun e => { e with use := e.use / 2 }) ∧
          (t.serp c).pool = (s.serp c).pool.map (fun e => (e.1, (e.2.1 / 2, e.2.2)))) ∧
    (∀ s : State, s.breath.number % 4096 ≠ 0 → exec .useCountDecay s = .next s))

/-- A `go` that nothing forbids starts a handover: the bank drains, and the new owner and whether the bank is cleared are kept;
a forbidden one sets `rejected`, is recorded and changes nothing else; a reserved owner code has the whole write ignored (R197,
R200 to R202). A bank drains while an access that it accepted has not completed. A drained bank that is not cleared is OWNED by its new owner; one that is cleared is CLEARING, and at its end
every byte of the bank reads 0 without error, every other byte keeps its value, and the bank is OWNED by the new owner (R199,
R200, R202). -/
def Obligations.BankHandover : Prop :=
  (∀ (who : Requester) (m : MemRef) (n : Nat) (v : Word) (s : State), s.writable who (m.own n) = true → n < m.banks →
      let s1 := s.writeFields who m.blk (m.own n) (m.own n) v
      let noted := s.noteReserved who m.blk (m.own n) v
      let next := s1.fld (m.own n) 15 8
      let owner := s1.bankOwner m n
      (m.ownerOk (fieldW v 15 8) = false → exec (.bankHandoverGo who m n v) s = .next (noted.err who m.blk (m.own n) .valueWrite)) ∧
      (m.ownerOk (fieldW v 15 8) = true → v.getLsbD 0 = true →
        (s.goRefused m n (fieldW v 15 8) = true → exec (.bankHandoverGo who m n v) s =
          .next ((noted.setFld (m.own n) 30 30 1).err who m.blk (m.own n) .valueWrite)) ∧
        (s.goRefused m n (fieldW v 15 8) = false →
          ∃ t : State, exec (.bankHandoverGo who m n v) s = .next t ∧ t.bankState m n = 1 ∧ t.rbit (m.own n) 31 = true ∧
            t.bankOwner m n = owner ∧
            t.handoverOf m n = some (.toOwner next (s1.rbit (m.own n) 1 ||
              (isPartOwner owner && isPartOwner next && decide (owner ≠ next)) ||
              (match m with | .reed _ => decide (owner = 1) && decide (next ≠ 1) | .bellows _ => false))) ∧ sameMem s t))) ∧
  (∀ (m : MemRef) (n o : Nat) (c : Bool) (s : State), o < 256 → s.handoverOf m n = some (.toOwner o c) →
      (s.bankState m n = 1 → s.bankInFlight m n = true → exec (.bankDrainDone m n) s = .next s) ∧
      (s.bankState m n = 1 → s.bankInFlight m n = false → ∃ t : State, exec (.bankDrainDone m n) s = .next t ∧ t.bankState m n = (if c then 2 else 0) ∧
        t.bankOwner m n = o ∧ t.rbit (m.own n) 31 = c ∧ t.handoverOf m n = (if c then some (.toOwner o c) else none) ∧ sameMem s t) ∧
      (s.bankState m n = 2 → ∃ t : State, exec (.bankClearDone m n) s = .next t ∧ t.bankState m n = 0 ∧ t.bankOwner m n = o ∧
        t.handoverOf m n = none ∧ sameMemOutside (m.phys (n * m.bankBytes)) m.bankBytes s t ∧
        ∀ a : Nat, m.phys (n * m.bankBytes) ≤ a → a < m.phys (n * m.bankBytes) + m.bankBytes → t.mem.byte a = 0 ∧ t.flipOf a = 0))

/-- Before BOOT_DONE a write of the secure map that sets more than 4 bits is ignored and recorded, and any other is applied bank
by bank: a bank added drains and is to be wiped, a bank removed is wiped first. A wipe that completes zeroes the bank and leaves
it SECURE while the map names it, else OWNED by FIFE (R205, R207, R208). -/
def Obligations.SecureBanks : Prop :=
  (∀ (who : Requester) (die : Nat) (hi : Bool) (v : Word) (s : State), die = 4 ∨ die = 5 →
    s.writable who (Blk.sec.at die die (if hi then 0x204 else 0x200)) = true →
    let old := s.secureMap die
    let new := if hi then old % 2 ^ 32 + 2 ^ 32 * v.toNat else old / 2 ^ 32 * 2 ^ 32 + v.toNat
    let s1 := s.writeAt who .sec die die (if hi then 0x204 else 0x200) v
    (s.bootDone = false → 4 < popcount 64 new →
      exec (.sbankMaskWrite who die hi v) s = .next (s.refuseWrite who .sec die die (if hi then 0x204 else 0x200) v)) ∧
    (s.bootDone = true ∨ popcount 64 new ≤ 4 → exec (.sbankMaskWrite who die hi v) s =
      .next (((List.range 64).foldl (fun t n => t.mapBank die old (s1.secureMap die) n) s1).secureStatus die))) ∧
  (∀ (die n : Nat) (s : State), s.bankState (.bellows die) n = 3 → s.rbit ((MemRef.bellows die).own n) 31 = true →
    let t := s.wipeBank die n
    (∀ a : Nat, bellowsSram die (n * 2097152) ≤ a → a < bellowsSram die (n * 2097152) + 2097152 → t.mem.byte a = 0) ∧
    sameMemOutside (bellowsSram die (n * 2097152)) 2097152 s t ∧ t.rbit ((MemRef.bellows die).own n) 31 = false ∧
    t.bankState (.bellows die) n = (if (s.secureMap die).testBit n then 3 else 0) ∧
    t.bankOwner (.bellows die) n = (if (s.secureMap die).testBit n then 0 else 2)) ∧
  (∀ (die : Nat) (s : State), die = 4 ∨ die = 5 → s.sec.unlocking = none →
    exec (.secureWipeDone die) s = .next (((List.range 64).foldl (fun t n => t.wipeBank die n) s).secureStatus die))

/-- The write-back of a word with a correctable error leaves the word without an error and every byte of memory reading as it
read before (R210, R213); a word without an error, or with one that cannot be corrected, is left alone. Port 1 goes to the first
waiting requester after the one served last; a scrub pass, due once pass_breaths breaths have gone by since the last one started
(the first after a reset at once: log entry 190), adds its rows to those left, late where some are left; a row read
scrubs the words of the next row; a 1 in `valid` clears the error record (R194, R214, R220). -/
def Obligations.MemoryErrorsAndPorts : Prop :=
  (∀ (m : MemRef) (off : Nat) (s : State), Memory.wf s.mem = true →
      let p := m.phys off
      (s.flipOf p ≠ 0 → s.flipOf p < 2 ^ 72 → s.badByte p = false →
        ∃ t : State, exec (.eccWriteback m off) s = .next t ∧ t.flipOf p = 0 ∧ (∀ q : Nat, t.readByte q = s.readByte q) ∧
          { t with mem := s.mem, flip := s.flip } = s) ∧
      (s.flipOf p = 0 ∨ s.badByte p = true → exec (.eccWriteback m off) s = .next s)) ∧
  (∀ (who : Requester) (m : MemRef) (n : Nat) (s : State),
      let k := match m with | .reed _ => 4 | .bellows _ => 3
      let last := SMap.get (fun _ => 0) s.portLast (m.own n)
      let wait := match m with | .reed _ => 0x068 | .bellows _ => 0x0F0
      let late := match m with | .reed _ => 0x1A8 | .bellows _ => 0x510
      let left := s.scrubRows m
      (∀ (w : List Nat) (cycles i : Nat), i < k → w.contains ((last + i) % k) = true → (∀ j : Nat, j < i → w.contains ((last + j) % k) = false) →
        ∃ t : State, exec (.bankPort1Grant m n w cycles) s = .next t ∧ SMap.get (fun _ => 0) t.portLast (m.own n) = (last + i) % k + 1 ∧
          t.count (m.at wait) = min (s.count (m.at wait) + cycles) (2 ^ 48 - 1) ∧ sameMem s t ∧ t.flip = s.flip) ∧
      (s.rbit m.scrubCtrl 16 = true → s.passDue m = true →
        let s0 : State := { s with scrubSeen := SMap.set (fun _ => none) s.scrubSeen (m.at 0) (some s.breath.number) }
        exec (.scrubPassStart m) s = .next
          ((if left = 0 then s0 else s0.cntAdd m.blk m.die m.inst late 1).setScrub m (left + m.banks * m.rows))) ∧
      (s.rbit m.scrubCtrl 16 = false ∨ s.passDue m = false → exec (.scrubPassStart m) s = .next s) ∧
      (s.passDue m = (match SMap.get (fun _ => none) s.scrubSeen (m.at 0) with
        | none => true
        | some b => decide (b + s.passBreaths m ≤ s.breath.number))) ∧
      (∀ ups : List (Nat × Nat), 0 < left → left ≤ m.banks * m.rows → s.rbit m.scrubCtrl 16 = true →
        let row := m.banks * m.rows - left
        s.bankState m (row / m.rows) ≠ 2 → ¬(s.bankState m (row / m.rows) = 3 ∧ s.rbit (m.own (row / m.rows)) 31 = true) →
        exec (.scrubRowRead m ups) s = .next (((s.setScrub m (left - 1)).strike m row ups).scrubWords m (row * 128) 16)) ∧
      (s.writable who m.eccHi = true → ∃ t : State, exec (.eccAddrClear who m 0x80000000) s = .next t ∧ t.reg m.eccHi = 0 ∧ sameMem s t))

/-- Every host command is checked alike before its own part: an earlier command with its tag outstanding, a tag of 0, set
reserved bits, a wrong length or a misaligned address answer 0xF1 (detail 0xD0 for the first), a payload that cannot be read
0xF2, a function without `manage` 0xF3 where the row needs it; the command then has no effect but its reply (R670). -/
def Obligations.HostCommandChecks : Prop :=
  ∀ (c : Instr) (h : HCmd) (n : Nat) (m : Bool) (s : State), c.hostCmd = some (h, n, m) →
    let reply : Nat → Nat → Res := fun st d => .next { s with reply := { fn := h.fn, status := st, detail := d, addr := 0 } }
    let malformed := h.tag = 0 ∨ h.flagsHi ≠ 0 ∨ h.len ≠ n ∨ h.addr % 8 ≠ 0
    let unreadable := h.fault = true ∨ (s.fn h.fn).busMaster = false ∨ h.payload.length ≠ n
    (s.dupTag h = true → exec c s = reply 0xF1 0xD0) ∧ (s.dupTag h = false → malformed → exec c s = reply 0xF1 0) ∧
    (s.dupTag h = false → ¬malformed → unreadable → exec c s = reply 0xF2 0) ∧
    (s.dupTag h = false → ¬malformed → ¬unreadable → m = true → s.manage h.fn = false → exec c s = reply 0xF3 0)

/-- OBJ_ALLOC answers the status of the allocation, and its reply block where it succeeds; flag words that match no row answer
1, and a size or start that breaks the rules 2. OBJ_FREE of an unbound object removes it; OBJ_QUERY returns id, address, size
and flags, or reports an object whose copies differ (R235 to R237, R239, R669; the status is a free value, log entry 202).
MODEL_SWAP starts a swap on the online chanters of its mask that hold no copy, and MODEL_UNLOAD takes the READY copies to
UNLOADING, of a registered model; of another both answer 3. A swap whose shortest phrase does not fit the budget is refused
(R56; the status is a free value, log entry 200). A tile of a swap, once its partition's flash
regulator admits it (the cycles that it waited are counted: R582), is written on
the swap's chanters and nowhere else, or fails the swap where its flash read does; a swap past its deadline is abandoned; an
UNLOADING copy is ABSENT, and its DRAM free, when nothing names the model (R248, R249, R251, R252). -/
def Obligations.ObjectAndModelCommands : Prop :=
  (∀ (c : HCmd) (pl : Place) (s : State),
      let paid : Nat → State := fun n => s.cntAdd .host (fnDie c.fn) (fnDie c.fn) 0x030 n
      let p := paid 24
      let r := p.alloc (c.fld 8 4) (c.fld 0 8) (p.fnPart c.fn) c.fn pl
      (s.hostCheck c 24 true = none →
        (r.1 = 0 → exec (.objAlloc c pl) s = .next (r.2.answerBlock c (c.fld 16 8) (leBytes 8 pl.id ++
          leBytes 8 (match r.2.obj pl.id with | some o => o.addr.getD 0 | none => 0)) pl.id)) ∧
        (r.1 ≠ 0 → exec (.objAlloc c pl) s = .next (r.2.answer c r.1 0 0)) ∧ (flagsOk (c.fld 8 4) = false → r = (1, p)) ∧
        (r.1 = 0 → ∃ o : Obj, r.2.obj pl.id = some o ∧ o.size = c.fld 0 8 ∧ o.flags = c.fld 8 4 ∧ o.part = p.fnPart c.fn)) ∧
      (s.hostCheck c 8 true = none → (s.obj (c.fld 0 8)).isSome = true → s.isBound (c.fld 0 8) = false →
        ∃ t : State, exec (.objFree c) s = .next t ∧ t.obj (c.fld 0 8) = none ∧ t.reply.status = 0 ∧ sameMem s t ∧
          ∀ id : Nat, id ≠ c.fld 0 8 → t.obj id = s.obj id) ∧
      (∀ o : Obj, s.hostCheck c 16 true = none → s.obj (c.fld 0 8) = some o →
        ((paid 16).copiesEqual o = true → exec (.objQuery c) s = .next ((paid 16).answerBlock c (c.fld 8 8)
          (leBytes 8 (c.fld 0 8) ++ leBytes 8 (o.addr.getD 0) ++ leBytes 8 o.size ++ leBytes 8 o.flags) (c.fld 0 8))) ∧
        ((paid 16).copiesEqual o = false →
          exec (.objQuery c) s = .next (((paid 16).free 8).2.answer c ((paid 16).free 8).1 0 0)))) ∧
  (∀ (c : HCmd) (pl : Place) (m tile ns waited : Nat) (s : State),
      let paid : Nat → State := fun n => s.cntAdd .host (fnDie c.fn) (fnDie c.fn) 0x030 n
      let on : Nat → Nat → List Nat := fun x v => (List.range 4).filter (fun k => decide (s.modelSt x k = v))
      let p := paid 16
      let s1 : State := { p with models := SMap.upd Model.blank p.models (c.fld 0 2) (fun x => { x with phraseNs := ns }) }
      let r := s1.swapStart c pl
      (s.hostCheck c 16 true = none →
        (ns ≤ s.budgetNow → exec (.modelSwap c true pl ns) s = .next (r.2.answer c r.1 0 0) ∧
          (r.1 = 0 → ∀ k : Nat, k < 4 → (c.fld 2 1).testBit k = true → s.online k = true → s.modelSt (c.fld 0 2) k = 0 →
            r.2.modelSt (c.fld 0 2) k = 1)) ∧
        (s.budgetNow < ns → exec (.modelSwap c true pl ns) s = .next ((p.free 8).2.answer c (p.free 8).1 0 0)) ∧
        exec (.modelSwap c false pl ns) s = .next (p.answer c 3 0 0)) ∧
      (s.hostCheck c 8 true = none →
        exec (.modelUnload c true) s = .next (((paid 8).setModelOn (c.fld 0 2) 3 (on (c.fld 0 2) 2)).answer c 0 0 0) ∧
        exec (.modelUnload c false) s = .next ((paid 8).answer c 3 0 0)) ∧
      (∀ w : Swap, s.swapOf m = some w →
        let drone := s.tileDrone w.variant tile
        let sw := s.cntAdd .part drone drone 0x030 waited
        (∀ u : State, tile < w.tiles → SMap.get (fun _ => false) w.written tile = false →
          sw.bktTake drone w.part 0 4096 = some u →
          exec (.swapTileWritten m tile true waited) s = .next (u.swapFail w (4096 * tile)) ∧
          (s.unitBad ((s.flashCode w.variant).getD 0) w.variant tile = false →
            ∃ t : State, exec (.swapTileWritten m tile false waited) s = .next t ∧ t.regs = u.regs ∧ t.models = s.models ∧
              (∀ a : Nat, (∀ k i : Nat, w.mask.testBit k = true → i < 4096 → dramPhys k (w.base + 4096 * tile + i) / 8 ≠ a / 8) →
                t.mem.byte a = s.mem.byte a) ∧
              t.swaps = s.swaps.map (fun x => if x = w then { x with written := SMap.set (fun _ => false) x.written tile true } else x))) ∧
        (sw.bktTake drone w.part 0 4096 = none → exec (.swapTileWritten m tile true waited) s = .next sw ∧
          exec (.swapTileWritten m tile false waited) s = .next sw) ∧
        exec (.swapTimeout m) s = .next (if w.deadline < s.breath.number then s.swapFail w 0 else s)) ∧
      (s.modelNamed m = false →
        exec (.modelUnloadDone m) s = .next ((s.setModelOn m 0 (on m 3)).freeCopies m (on m 3))))

/-- A descriptor at the front of the ring served next, past its checks, is carried out: one of op 0, 1 or 2 starts its job, one of
op 3 or 4 is counted done with its writes made. A job whose pages, blocks or parts are all folded writes its output and is counted
done; a dense or merge job goes on by one block or part. A post with no overrun only makes the new descriptors seen, and one that
leaves more than 16, by serial-number arithmetic, halts the ring with code 4 (R271 to R273, R280, R283, R287, R290). A pre-emption
with no job at the position stops the position; one with a job goes on with it to the end of its page, block or part. A ring reset
clears the halt of each position named whose reed runs no step, and refuses the others (R293, R296). -/
def Obligations.HornCompletes : Prop :=
  (∀ (die k : Nat) (s : State), die < 4 → k < 8 →
      let h := s.horn die k
      (∀ (op pos : Nat) (x : ReedRef) (bs : List Byte) (s0 t : State) (n : Option Nat), h.job = none →
        s.rbit (Blk.horn.at die k 0x008) 0 = true → s.hornNext die k = some pos → s.reedAt die k pos = some x →
        let slot := s.ringWord die k x 0x404 % 16
        (s.ringSeen die k x 0x404 4).hornRead die k x (s.ringBase die k + 64 * slot) 64 = .ok (bs, s0) →
        let d := hdescOf (leOf bs)
        let s1 := s0.hornBusy die k true pos
        d.op = op → s1.hornCheck x d = none →
        (op = 0 → exec (.hornAttendPaged die k) s = .next (s1.hornStart die k pos slot x d none)) ∧
        (op = 1 → exec (.hornAttendDense die k n) s = .next (s1.hornStart die k pos slot x d n)) ∧
        (op = 2 → exec (.hornMerge die k n) s = .next (s1.hornStart die k pos slot x d n)) ∧
        (op = 3 → s1.hornAppend die k x d = .ok t → exec (.hornAppendOnly die k) s = .next (t.hornDone die k pos)) ∧
        (op = 4 → s1.hornBackward die k x d = .ok t → exec (.hornBackward die k) s = .next (t.hornDone die k pos))) ∧
      (∀ (jb : HornJob) (x : ReedRef) (t : State) (n : Option Nat), h.job = some jb → jb.stopping = false → s.reedAt die k jb.pos = some x →
        (jb.d.total ≤ jb.page → s.hornOutput die k x jb.d h.rows = .ok t →
          (∀ q : List (List Word) × State, jb.d.op = 0 → s.hornQueries die k x jb.d = .ok q →
            exec (.hornAttendPaged die k) s = .next (t.hornDone die k jb.pos)) ∧
          (jb.d.op = 1 → exec (.hornAttendDense die k n) s = .next (t.hornDone die k jb.pos)) ∧
          (jb.d.op = 2 → exec (.hornMerge die k n) s = .next (t.hornDone die k jb.pos))) ∧
        (∀ rows : List HRow, jb.page + 1 < jb.d.total →
          let u := (t.setHorn die k { t.horn die k with rows := rows }).hornKeep die k { jb with page := jb.page + 1 }
          (jb.d.op = 1 → s.denseBlock die k x jb.d jb.page = .ok (t, rows) → exec (.hornAttendDense die k (some 1)) s = .next u) ∧
          (jb.d.op = 2 → s.mergeBlock die k x jb.d jb.page = .ok (t, rows) → exec (.hornMerge die k (some 1)) s = .next u))) ∧
      (∀ (pos : Nat) (x : ReedRef), pos < 16 → s.reedAt die k pos = some x →
        let s1 := (s.ringSeen die k x 0x400 4).setHorn die k
          { h with seen := SMap.set (fun _ => 0) h.seen pos (s.ringWord die k x 0x400 % 2 ^ 24) }
        exec (.hornPost die k pos) s = .next (if 16 < s1.ringLeft die k pos ∧ s1.ringHalted die k pos = false then
          s1.hornFail die k pos (s1.ringWord die k x 0x404 % 16) 0x04 else s1))) ∧
  (∀ (die k pos : Nat) (s : State), die < 4 → k < 8 → pos < 16 →
      let h := s.horn die k
      (h.job = none → pos ∉ h.stopped →
        exec (.hornPreemptStop die k pos) s = .next (s.setHorn die k { h with stopped := pos :: h.stopped })) ∧
      (∀ jb : HornJob, h.job = some jb → jb.pos = pos →
        exec (.hornPreemptStop die k pos) s = .next (s.hornResume die k (some 0) { jb with stopping := true })) ∧
      (∀ (who : Requester) (v : Word), s.writable who (Blk.horn.at die k 0x10C) = true →
        let s1 := s.writeAt who .horn die k 0x10C v
        (v = BitVec.ofNat 32 (2 ^ pos) → ∀ x : ReedRef, s1.reedAt die k pos = some x →
          exec (.hornRingReset who die k v) s =
            .next (if (s1.reed x).busy = true then s1.refuseAt who .horn die k 0x10C else s1.ringInit die k pos)) ∧
        (v = 0 → exec (.hornRingReset who die k v) s = .next s1)))

/-- The next descriptor of the Serpent's list, of the op of the command, past its checks and with every index resolved, writes
its output rows and the list goes to its next descriptor; an update of a version that is open applies its rows; a version that
is not open, or of another partition, fails the step with its code (R309, R313, R315, R316, R332). A row quarter that arrives
from flash is kept and the descriptor goes on, or the step fails with code 5; an update held for a full buffer goes on when its
row can be taken; a migration that commits to the cache puts its row there with its buffered updates applied; a region write
waits for the edge, or is refused (R308, R324, R325, R339). -/
def Obligations.SerpentDescriptors : Prop :=
  (∀ (die op v : Nat) (c : Instr) (r : URun) (d : SDesc) (w : VSlot) (s : State), die < 4 →
      (op, c) ∈ [(0, Instr.serpGather die), (1, .serpPoolSum die), (2, .serpPoolMean die), (3, .serpPoolMax die),
        (4, .serpUpdateOverwrite die), (5, .serpUpdateScatterAdd die)] →
      s.runOf die 8 = some r → r.ended = false → r.hold = false → s.nextDesc die 3 4 r = .ok v → dfld v 0 1 = op →
      (s.serp die).job = none → s.serpDesc die r.part v = .ok d → d.op = op → s.boundVer 0 die (dfld v 2 2) r.uid = some w →
      let upd := decide (4 ≤ op)
      let s0 := s.noteIns die r.part [(r.list + 64 * r.idx, 64), (dfld v 16 8, 4 * (d.bags + 1)), (dfld v 8 8, 8 * d.idx.length)]
      let s1 := (if upd then s0.stepUpdates r.uid else s0).recordAccess die w.id w.version r.uid upd
      (w.tablePart ≠ r.part → exec c s = .next (s.serpFail die r v 6)) ∧
      (w.tablePart = r.part → upd = true → w.isOpen = false → exec c s = .next (s.serpFail die r v 1)) ∧
      (w.tablePart = r.part → (upd = true → w.isOpen = true) → s.crossStep die w.id w.version r.uid upd = false →
        ∀ (t : State) (j : SJob), s1.serpWalk die r.part d w (s.hosted die) (d.idx.length + 1) {} = .done t j →
          (op < 4 → bit d.flags 1 = false ∨ op = 0 →
            ∀ u : State, (t.noteIns die r.part [(dfld d.v 24 8, 0)]).serpOutput die r.part d w (s.hosted die) j.rows [] = .ok u →
              exec c s = .next ((u.setSJob die none).runNext die 8 (bit d.flags 4))) ∧
          (4 ≤ op → 0 ∉ s.hosted die → exec c s = .next ((t.setSJob die none).runNext die 8 (bit d.flags 4))) ∧
          (4 ≤ op → 0 ∈ s.hosted die → ∀ u : State,
            (t.free 64).2.uout 8 die r.part 3 4 8 (dfld d.v 40 8) (leBytes 8 (t.free 64).1) = .ok u →
              exec c s = .next ((u.setSJob die none).runNext die 8 (bit d.flags 4))))) ∧
  (∀ (who : Requester) (die : Nat) (s : State), die < 4 →
      let x := s.serp die
      (∀ (r : URun) (j : SJob) (q row v : Nat) (w : VSlot) (h : QHead), s.runOf die 8 = some r → x.job = some j → j.need = some (q, row) →
        s.nextDesc die 3 4 r = .ok v → s.boundVer 0 die (dfld v 2 2) r.uid = some w →
        let s1 := s.serpCnt die 0x068 1
        exec (.serpFlashRowRead die true) s = .next (s1.serpFail die r v 5) ∧
        (let go : Nat → Res := fun obj => .next (s1.serpGo die r v { j with
            need := none, fetched := ((q, row), s.flashBytes obj (row * w.qBytes) w.qBytes) :: j.fetched })
         (w.moved q = none → s.quarterHead die r.part w q = .ok h → exec (.serpFlashRowRead die false) s = go h.obj) ∧
         (∀ obj n : Nat, w.moved q = some (obj, n) → exec (.serpFlashRowRead die false) s = go obj))) ∧
      (∀ (r : URun) (j : SJob) (v : Nat), s.runOf die 8 = some r → x.job = some j → j.held = true → s.nextDesc die 3 4 r = .ok v →
        exec (.migrationUpdateRelease die) s = .next (s.serpGo die r v j)) ∧
      (∀ (n a b : Nat) (t : Tag), x.tags[n]? = some t → t.src = none → t.dest = .cache a b →
        let y : Serpent := { x with tags := x.tags.eraseIdx n, order := x.order + 1, cache := x.cache ++
          [⟨a, b, t.table, t.version, t.quarter, t.row, t.upd.foldl (fun d u => applyUpd u.1 d u.2) t.data, 1, x.order + 1⟩] }
        exec (.migrationCommit die n) s = .next ((s.setSerp die y).serpCnt die 0x058 1)) ∧
      (∀ (i : Nat) (v : Word), i < 16 → s.writable who (Blk.serp.at die die (0x140 + 4 * i)) = true →
        let s1 := s.writeAt who .serp die die (0x140 + 4 * i) v
        let bad := cregBad (fun j => s1.reg (Blk.serp.at die die (0x140 + 4 * j)))
        (bad = true → exec (.serpCreg who die i v) s = .next (s.refuseWrite who .serp die die (0x140 + 4 * i) v)) ∧
        (bad = false → s.frozen (Blk.serp.at die die (0x140 + 4 * i)) = false → i / 2 ∉ (s1.serp die).dirty →
          exec (.serpCreg who die i v) s = .next (s1.setSerp die { s1.serp die with dirty := (i / 2) :: (s1.serp die).dirty }))))

/-- A write of a unit's VER_PUBLISH with an id, a target 1 to 1,024 breaths ahead, a free slot, room in the queue and a
descriptor that passes makes the version pending for its breath, and VER_STATUS reports 0; a full slot set reports 3, a full
queue 4, a target in the past 2, one too far ahead 5, a bad descriptor 1, and nothing is published (R328, R336). The write of
each unit's VER_PUBLISH publishes on its own directory, with the id and the target that its fields give and the descriptor that
its address registers name, where the descriptor can be read and passes (R335, R365, R405). A read of a unit's retire register
returns the oldest report and removes it, or 0 when there is none, and then changes nothing (R337, R375, R449, R451). -/
def Obligations.Versions : Prop :=
  (∀ (kind die id lo : Nat) (desc : Option Nat) (s : State),
      let d := s.dir kind die
      let n := (lo + 2 ^ 16 - s.breath.number % 2 ^ 16) % 2 ^ 16
      let held := d.slots.countP (fun v => decide (v.id = id))
      let pend := d.slots.countP (fun v => decide (v.st = .pending))
      let t := s.publish kind die id lo desc
      let result := t.fld ((verBlk kind).at die die 0x10C) 2 0
      (held < 4 → pend < 16 → 0 < n → n ≤ 1024 → ∀ x : Nat, desc = some x → result = 0 ∧
        (t.dir kind die).slots = d.slots ++ [{ id := id, st := .pending, version := x % 2 ^ 32, desc := x, target := s.breath.number + n }]) ∧
      (4 ≤ held → result = 3 ∧ t.dirs = s.dirs) ∧ (held < 4 → 16 ≤ pend → result = 4 ∧ t.dirs = s.dirs) ∧
      (held < 4 → pend < 16 → (n = 0 ∨ 2 ^ 15 ≤ n → result = 2 ∧ t.dirs = s.dirs) ∧
        (1024 < n → n < 2 ^ 15 → result = 5 ∧ t.dirs = s.dirs) ∧ (0 < n → n ≤ 1024 → desc = none → result = 1 ∧ t.dirs = s.dirs)) ∧
      sameMem s t) ∧
  (∀ (who : Requester) (die : Nat) (v : Word) (s : State),
      let go : Nat → Nat → Nat → Nat → Option Nat → (Nat → Bool) → Res := fun kind n lo id desc ok =>
        .next (((s.writeAt who (verBlk kind) die die 0x108 v).noteVer kind die n).publish kind die id lo
          (desc.bind (fun x => if ok x then some x else none)))
      let s1 : Blk → State := fun b => s.writeAt who b die die 0x108 v
      (die < 4 → s.writable who (Blk.serp.at die die 0x108) = true →
        exec (.serpVerPublish who die v) s = go 0 64 (fieldW v 15 0) (fieldW v 25 16) ((s1 .serp).readVerDesc 0 die 64)
          (tableDescOk (fieldW v 25 16))) ∧
      (die < 4 → s.writable who (Blk.panp.at die die 0x108) = true →
        exec (.panpVerPublish who die v) s = go 1 128 (fieldW v 15 0) (fieldW v 21 16) ((s1 .panp).readVerDesc 1 die 128)
          (fun x => indexDescOk (fieldW v 21 16) x && (s1 .panp).indexFollows die (fieldW v 21 16) x)) ∧
      (die = 4 ∨ die = 5 → s.writable who (Blk.mouth.at die die 0x108) = true →
        exec (.mouthVerPublish who die v) s = go 2 128 (fieldW v 15 0) (fieldW v 27 16) (s.readVerDesc 2 die 128)
          (fun x => decide (fieldW v 27 16 < 16) && vocabDescOk (fieldW v 27 16) x)) ∧
      (die = 4 ∨ die = 5 → s.writable who (Blk.keyw.at die die 0x108) = true →
        exec (.keywVerPublish who die v) s = go 3 64 (fieldW v 15 0) (fieldW v 27 16) (s.readVerDesc 3 die 64) (gramDescOk (fieldW v 27 16)))) ∧
  (∀ (kind die : Nat) (c : Instr) (s : State),
      (kind, die, c) ∈ (List.range 4).flatMap (fun d => [(0, d, Instr.serpRetirePop d), (1, d, .panpRetirePop d)]) ++
        [(2, 4, .mouthRetirePop 4), (2, 5, .mouthRetirePop 5), (3, 4, .keywRetirePop 4), (3, 5, .keywRetirePop 5)] →
      ((s.dir kind die).retire = [] → exec c s = .next { s with readData := 0 }) ∧
      (∀ (w : Word) (ws : List Word), (s.dir kind die).retire = w :: ws →
        let s1 := (s.setDir kind die { s.dir kind die with retire := ws }).sweepDir kind die
        exec c s = .next { s1.reported kind die w with readData := w.toNat }))

/-- The next descriptor of the Panpipe's list, of the op of the command, past its checks, carries out its search, its side-list
records, its comparison or its merge, and the list goes on; where it needs a record tile from flash it waits, and the tile that
arrives goes on with it or fails the step with code 5 (R348, R355, R360, R364, R371, R372). The next descriptor of the Piccolo's
list, of the op of the command, whose result is formed and lies clear of its inputs, writes its list and its counters,
PICC_PROGRESS takes the number done and the list goes on; a failed one fails the step. Without its enable bit nothing is served
(R387 to R399). -/
def Obligations.SearchUnits : Prop :=
  ((∀ (die op v : Nat) (c : Instr) (r : URun) (w : VSlot) (s : State), die < 4 →
      (op, c) ∈ [(0, Instr.panpSearch die), (1, .panpExactSearch die), (2, .panpInsert die), (3, .panpDelete die),
        (4, .panpCompare die), (5, .panpMerge die)] →
      s.runOf die 9 = some r → r.ended = false → r.hold = false → (s.panp die).need = none → s.nextDesc die 3 4 r = .ok v →
      dfld v 0 1 = op → panpFieldsOk v = true → s.boundVer 1 die (dfld v 2 1) r.uid = some w → dfld w.desc 12 1 = r.part →
      let s0 := s.noteIns die r.part [(r.list + 64 * r.idx, 64)]
      let res := if op ≤ 1 then s0.runSearch die r.part w r.uid v else if op ≤ 3 then s0.runSide die r.part w r.uid v
        else if op = 4 then s0.runCompare die r.part v else s0.runMerge die r.part w r.uid v
      (∀ (t : State) (l : PLog), res = .ok t l → exec c s = .next (((t.setPanp die { t.panp die with
        tiles := [], need := none }).unitBusy .panp die 0x118 false).runNext die 9 (bit (dfld v 1 1) 3))) ∧
      (∀ (e : Nat) (l : PLog), res = .fail e l → exec c s = .next (s0.panpFail die r v e l)) ∧
      (∀ (a b t : Nat) (l : PLog), res = .need a b t l →
        exec c s = .next ((s.setPanp die { s.panp die with need := some (a, b, t) }).unitBusy .panp die 0x118 true))) ∧
    (∀ (die v qi obj tile : Nat) (r : URun) (s : State), die < 4 → s.runOf die 9 = some r → (s.panp die).need = some (qi, obj, tile) →
      s.nextDesc die 3 4 r = .ok v →
      let s1 := s.panpCnt die 0x050 1
      exec (.panpRecordTileRead die true) s = .next (s1.panpFail die r v 5 (s1.panpSoFar die r v)) ∧
      exec (.panpRecordTileRead die false) s = .next ((s1.setPanp die { s1.panp die with
        need := none, tiles := ((qi, obj, tile), s.flashBytes obj (4096 * tile) 4096) :: (s1.panp die).tiles }).panpGo die r v))) ∧
  (∀ (die op v : Nat) (c : Instr) (r : URun) (s : State), die < 4 →
      (op, c) ∈ [(0, Instr.piccTopk die), (1, .piccThreshold die), (2, .piccMerge die), (3, .piccSort die)] →
      s.runOf die 10 = some r → r.ended = false →
      (s.rbit (Blk.picc.at die die 0x008) 0 = false ∨ r.hold = true → exec c s = .next s) ∧
      (s.rbit (Blk.picc.at die die 0x008) 0 = true → r.hold = false → s.nextDesc die 2 3 r = .ok v → dfld v 0 1 = op →
        (∀ t : State, s.piccRun die r.part ⟨v⟩ = .ok t → exec c s =
          .next ((t.setReg (Blk.picc.at die die 0x104) (BitVec.ofNat 32 ((r.idx + 1) % 2 ^ 16))).runNext die 10 (bit v 10))) ∧
        (∀ e : Nat, s.piccRun die r.part ⟨v⟩ = .error e → exec c s = .next (s.piccFail die r e))))

/-- The next descriptor of a text unit's list, of the op of the command, is served and the list goes on; a descriptor whose
request is not one of the table fails with code 1; without the unit's enable bit nothing is served (R425, R436, R441, R442,
R444). The next descriptor of the packer's list, of the op of the command, with its store, and its template where the op packs,
is carried out and the list goes on; one that fails writes its status with the code and fails its request (R632, R636, R637,
R640). -/
def Obligations.TextAndPacker : Prop :=
  (∀ (die v : Nat) (r : URun) (s : State), die = 4 ∨ die = 5 → r.ended = false → r.hold = false →
      let read : Nat → State := fun n => s.noteIns die r.part [(r.list + n * r.idx, n)]
      (∀ host : Option (List Byte), s.runOf die 0 = some r → s.rbit (Blk.mouth.at die die 0x008) 0 = true →
        s.ureadLe die r.part 8 8 64 (r.list + 64 * r.idx) 64 = .ok v →
        exec (.mouthTokenise die host) s = .next (((read 64).mouthDo die r ⟨v⟩ host).runNext die 0 (bit v 34))) ∧
      (∀ (tail : Word) (refused : Bool), s.runOf die 1 = some r → s.rbit (Blk.bell.at die die 0x008) 0 = true →
        s.ureadLe die r.part 8 8 32 (r.list + 32 * r.idx) 32 = .ok v →
        exec (.bellDetokenise die tail refused) s =
          .next (((read 32).bellDo die tail.toNat refused r ⟨v⟩).runNext die 1 (bit v 43))) ∧
      (s.runOf die 2 = some r → s.rbit (Blk.keyw.at die die 0x008) 0 = true →
        s.ureadLe die r.part 8 8 32 (r.list + 32 * r.idx) 32 = .ok v →
        ∀ p ∈ [(0, Instr.keywInit die), (1, .keywAdvanceMask die), (2, .keywMask die)], dfld v 0 1 = p.1 →
          exec p.2 s = .next (((read 32).keywDo die r ⟨v⟩).runNext die 2 (bit v 8))) ∧
      (s.runOf die 0 = some r → s.rbit (Blk.mouth.at die die 0x008) 0 = false → exec (.mouthTokenise die none) s = .next s)) ∧
  (∀ (die i : Nat) (r : URun) (s u : State),
      (∀ (d : MDesc) (host : Option (List Byte)),
        (s.textReq die (d.f 0 4) = none → s.mouthDo die r d host = s.mouthFail die r d {} 1) ∧
        (s.textReq die (d.f 0 4) = some i →
          let t := s.tokenise die r.part r.uid i d host
          t.err = 0 → ((s.noteIns die r.part t.reads).mouthCount die t).tokWrite die r.part d t = .ok u →
            s.mouthDo die r d host = u.cntBy .mouth die 0x038 t.toks.length)) ∧
      (∀ (d : BDesc) (tail : Nat) (refused : Bool), s.textReq die (d.f 0 4) = some i →
        (s.noted die r.part (fun t => t.bellRun die r.part r.uid i tail refused d)).1 = .ok u → s.bellDo die tail refused r d = u) ∧
      (∀ d : KDesc, s.textReq die (d.f 4 4) = some i →
        (s.noted die r.part (fun t => t.kRun die r.part r.uid d)).1 = .ok (u, false) → s.keywDo die r d = u)) ∧
  (∀ (die v : Nat) (bad : List Nat) (r : URun) (s : State), die = 4 ∨ die = 5 → s.runOf die 3 = some r →
      r.ended = false → r.hold = false → s.nextDesc die 0x23 0x23 r = .ok v →
      let on : State → Res := fun t => .next (t.runNext die 3 (bit v 8))
      let run : Option (List Byte) → Option Nat → Nat → Except Nat State × State := fun store tmpl room =>
        (s.noteIns die r.part [(r.list + 64 * r.idx, 64)]).noted die r.part (fun t => t.packRun die r v store tmpl bad room)
      let ends : Except Nat State × State → Res := fun p => match p with
        | (.ok t, _) => on t
        | (.error c, t) => on (t.packFail die r v c)
      (∀ store : Option (List Byte), dfld v 0 1 = 0 → exec (.packFetch die store bad) s = ends (run store none 0)) ∧
      (∀ (store : Option (List Byte)) (tmpl : Option Nat) (room : Nat), dfld v 0 1 = 1 →
        exec (.packPack die store tmpl bad room) s = ends (run store tmpl room)) ∧
      (∀ (store : Option (List Byte)) (tmpl : Option Nat), dfld v 0 1 = 2 →
        exec (.packPairs die store tmpl bad) s = ends (run store tmpl 0))) ∧
  (∀ (die v off room : Nat) (b : List Byte) (bad : List Nat) (r : URun) (s : State), packOk v = true →
      (s.textReq die (dfld v 4 4)).isSome = true →
      let go : Option (List Byte) → Option Nat → TextM State := fun store tmpl => s.packRun die r v store tmpl bad room
      (dfld v 0 1 = 0 → go (some b) none = s.packFetch die r.part v ⟨b⟩ bad) ∧
      (dfld v 0 1 = 1 → go (some b) (some off) = s.packPrompt die r.part r.uid v ⟨b⟩ off bad room) ∧
      (dfld v 0 1 = 2 → go (some b) (some off) = s.packPairs die r.part r.uid v ⟨b⟩ off bad) ∧
      go none (some off) = throw 0x23 ∧ go none none = throw 0x23)

/-- A command on a die, consort, link or port that has no unit of its kind has no effect. -/
def Obligations.NowhereCommands : Prop :=
  ∀ (c : Instr) (s : State), c.nowhere = true → exec c s = .next s

/-- A write of SNG_CHK_CTRL with `go` starts a check, one while a check runs is refused; the check leaves its output and its
state in their registers, is counted and raised, and `busy` clears. A known-answer test with the outputs of the table passes;
another marks the instance bad and raises: a consort fault of kind 0x0A on a chanter, and on a bellows a posted record, or FATAL
where the other bellows's instance is bad too (R465, R467). -/
def Obligations.GeneratorChecks : Prop :=
  ∀ (who : Requester) (die i : Nat) (v o1 o2 : Word) (s : State), (die < 4 ∧ i < 8) ∨ ((die = 4 ∨ die = 5) ∧ i = die) →
    let reg : Nat → Nat := fun off => Blk.sng.at die i off
    let busy := s.rbit (reg 0x00C) 31
    let x := rngState (s.pair (reg 0x100)) (s.pair (reg 0x108)) (s.pair (reg 0x110)).toNat
    let s1 := (s.setFld (reg 0x00C) 1 0 3).raise (reg 0) 0
    let good := o1 = 0xA3BCA2D4 ∧ o2 = 0x68A6676C
    (s.writable who (reg 0x118) = true →
      (busy = true → exec (.sngChkGo who die i v) s = .next (s.refuseWrite who .sng die i 0x118 v)) ∧
      (busy = false → v.getLsbD 0 = true → ∃ t : State, exec (.sngChkGo who die i v) s = .next t ∧ t.rbit (reg 0x00C) 31 = true ∧
        { t with regs := s.regs } = s)) ∧
    (busy = true → ∃ t : State, exec (.sngChkDone die i) s = .next t ∧ t.reg (reg 0x11C) = rngOut x ∧
      t.reg (reg 0x120) = x.setWidth 32 ∧ t.reg (reg 0x124) = (x >>> 32).setWidth 32 ∧ t.rbit (reg 0x00C) 31 = false ∧
      t.rbit (reg 0x010) 1 = true ∧ t.count (reg 0x038) = min (s.count (reg 0x038) + 1) (2 ^ 48 - 1) ∧
      { t with regs := s.regs, cnt := s.cnt } = s) ∧
    (busy = false → exec (.sngChkDone die i) s = .next s) ∧
    (good → ∃ t : State, exec (.sngKat die i o1 o2) s = .next t ∧ t.rbit (reg 0x00C) 0 = true ∧ t.rbit (reg 0x00C) 1 = false ∧
      sameRegsBut [reg 0x00C] s t ∧ { t with regs := s.regs } = s) ∧
    (¬good → (die < 4 → exec (.sngKat die i o1 o2) s = .next (s1.consortFault { die := die, k := i, reed := none, kind := 0x0A })) ∧
      (4 ≤ die → exec (.sngKat die i o1 o2) s = .next (if s1.rbit (Blk.sng.at (9 - die) (9 - die) 0x00C) 1 = true
        then s1.goFatal { breath := 0, die := die, kind := 0x0A } else s1.faultPost { breath := 0, die := die, kind := 0x0A })))

/-- A request is refused as INVALID (1) where its descriptor or work description breaks its rules, then as TABLE_FULL (2), then
as MODEL_UNAVAILABLE (3), and counted; one that is no turn takes the lowest FREE entry of its port's half, whose generation
advances, and its id is answered; a turn that its session refuses is answered 7 with the session's status. A work description
that cannot be read answers 0xF2 (R487 to R490, R544). -/
def Obligations.RequestSubmission : Prop :=
  ∀ (c : HCmd) (wd : WorkInfo) (s : State), s.hostCheck c 64 false = none →
    let p := s.cntAdd .host (fnDie c.fn) (fnDie c.fn) 0x030 64
    let f : Nat → Nat → Nat := fun o n => leOf ((c.payload.drop o).take n)
    let die := fnDie c.fn
    let part := p.fnPart c.fn
    let refuse : State → Nat → Nat → Res := fun t st d => .next ((t.cntAdd .reqt die die 0x038 1).answer c st d 0)
    let i := p.freeEntry 32768 (32768 * (die - 4))
    let home := sesDie (f 32 8 % 2 ^ 24)
    (wd.bytes = none → exec (.reqSubmit c wd) s = .next (p.answer c 0xF2 0 0)) ∧
    (∀ w : List Byte, wd.bytes = some w →
      let ok := reqDescOk c.payload = true ∧ f 40 8 % 64 = 0 ∧ workOk w (f 16 4) = true ∧ wd.known = true
      (¬ok → exec (.reqSubmit c wd) s = refuse p 1 0) ∧
      (ok → p.admits die part = false → exec (.reqSubmit c wd) s = refuse p 2 0) ∧
      (ok → p.admits die part = true → p.modelBad (f 0 2) (f 2 2) = true → exec (.reqSubmit c wd) s = refuse p 3 0) ∧
      (ok → p.admits die part = true → p.modelBad (f 0 2) (f 2 2) = false →
        (f 5 1 ≠ 1 →
          let s1 := (p.setReq i (Req.fresh (p.req i) c.payload part c.fn s.breath.number c.tag)).bellCopy die wd
          exec (.reqSubmit c wd) s = .next ((s1.cntAdd .reqt die die 0x030 1).answer c 0 0 (reqId i (s1.req i)))) ∧
        (f 5 1 = 1 → home = die → ∀ st : Nat, p.turnRefused (f 32 8) part = some st →
          exec (.reqSubmit c wd) s = refuse (p.cntAdd .sess home home 0x068 1) 7 st))) ∧
    (∀ j : Nat, 32768 * (die - 4) ≤ j → j < 32768 * (die - 4) + 32768 → (p.req j).state = 0 →
      (p.req i).state = 0 ∧ 32768 * (die - 4) ≤ i ∧ i ≤ j) ∧
    (∀ (r : Req) (part fn arrival tag : Nat), let q := Req.fresh r c.payload part fn arrival tag
      q.state = 1 ∧ q.gen = (if r.gen = 32767 then 1 else r.gen + 1) ∧ q.model = f 0 2 ∧ q.maxNew = f 16 4 ∧ q.arrival = arrival ∧
      q.deadline = (if f 12 4 = 0 then 0 else arrival + f 12 4) ∧ q.generated = 0)

/-- REQ_CANCEL, REQ_PAUSE, REQ_RESUME and REQ_UPDATE answer 4 for an id that names no entry, 6 for another function's, 5 for one
that has ended, 7 where the state does not allow them, 1 for a reserved field or a bad value; accepted, they wait in the entry
for the next edge and nothing is answered. REQ_QUERY answers at once with the entry's 128 bytes (R494, R505, R517, R518). -/
def Obligations.RequestCommands : Prop :=
  ∀ (c : HCmd) (s : State),
    let paid : Nat → State := fun n => s.cntAdd .host (fnDie c.fn) (fnDie c.fn) 0x030 n
    let ans : Nat → Nat → Res := fun n st => .next ((paid n).answer c st 0 0)
    let hold : Nat → Nat → ReqCmdKind → Res := fun n i k => .next ((paid n).modReq i (fun r => { r with cmds := r.cmds ++ [(c, k)] }))
    let id := c.fld 0 4
    (s.hostCheck c 8 false = none → c.fld 4 4 ≠ 0 →
      exec (.reqCancel c) s = ans 8 1 ∧ exec (.reqPause c) s = ans 8 1 ∧ exec (.reqResume c) s = ans 8 1) ∧
    (s.hostCheck c 8 false = none → c.fld 4 4 = 0 →
      (s.reqNamed id = none → exec (.reqCancel c) s = ans 8 4 ∧ exec (.reqPause c) s = ans 8 4 ∧ exec (.reqResume c) s = ans 8 4) ∧
      (∀ i : Nat, s.reqNamed id = some i →
        ((s.req i).fn ≠ c.fn → exec (.reqCancel c) s = ans 8 6 ∧ exec (.reqPause c) s = ans 8 6 ∧ exec (.reqResume c) s = ans 8 6) ∧
        ((s.req i).fn = c.fn → (s.req i).terminal = true →
          exec (.reqCancel c) s = ans 8 5 ∧ exec (.reqPause c) s = ans 8 5 ∧ exec (.reqResume c) s = ans 8 5) ∧
        ((s.req i).fn = c.fn → (s.req i).terminal = false →
          exec (.reqCancel c) s = .next ((paid 8).modReq i (fun r =>
            { r with cmds := r.cmds ++ [(c, .cancel)], flags := withBits r.flags 7 7 1 })) ∧
          exec (.reqPause c) s = (if (s.req i).pausable = true then hold 8 i .pause else ans 8 7) ∧
          exec (.reqResume c) s = (if (s.req i).state = 5 ∧ (s.req i).byHost = true then hold 8 i .resume else ans 8 7)))) ∧
    (s.hostCheck c 24 false = none → ∀ i : Nat, s.reqNamed id = some i → (s.req i).fn = c.fn → (s.req i).terminal = false →
      exec (.reqUpdate c) s = if c.fld 4 4 = 0 ∧ updateOk (s.req i) (c.fld 8 16) = true then hold 24 i (.update (c.fld 8 16))
        else ans 24 1) ∧
    (s.hostCheck c 16 false = none →
      (s.reqNamed id = none → exec (.reqQuery c) s = ans 16 4) ∧
      (∀ i : Nat, s.reqNamed id = some i → c.fld 4 4 = 0 →
        ((s.req i).fn ≠ c.fn → exec (.reqQuery c) s = ans 16 6) ∧
        ((s.req i).fn = c.fn → exec (.reqQuery c) s = .next ((paid 16).answerBlock c (c.fld 8 8) ((s.req i).bytes i) 0) ∧
          ((s.req i).bytes i).length = 128)))

/-- The completion record of a terminal entry, of a function that is enabled and may be written, goes to host memory, with its
notice, once; its 64 bytes hold the fields of R515 in their places. A read of the event queue returns the oldest event and
removes it. A firmware write of a word of F fields of the entry window replaces them, and a host write is ignored and recorded.
Shedding ends for at most the set number of requests of the partition, after its clear edges (R492, R507, R515, R524). -/
def Obligations.RequestRecords : Prop :=
  (∀ (i : Nat) (s : State), i < 65536 → (s.req i).terminal = true → (s.req i).recDone = false → s.isFatal = false →
    let r := s.req i
    (s.fnEnabled r.fn = true → r.quiet = false → s.canWriteHost r.fn = true →
      exec (.completionRecord i) s = .next (((s.hostWrite r.fn r.compl (r.recordBytes i)).modReq i (fun q => { q with recDone := true })).sendNotice
        r.fn { addr := r.compl, len := 64, tag := r.tag, flags := 0x3000 })) ∧
    (s.fnEnabled r.fn = false ∨ r.quiet = true →
      exec (.completionRecord i) s = .next (s.modReq i (fun q => { q with recDone := true })))) ∧
  (∀ (i : Nat) (s : State), (s.req i).terminal = false ∨ (s.req i).recDone = true → exec (.completionRecord i) s = .next s) ∧
  (∀ (i : Nat) (r : Req), i < 65536 → r.gen < 2 ^ 15 → r.state < 256 → r.endReason < 256 → r.generated < 2 ^ 32 → r.arrival < 2 ^ 64 →
    r.firstToken < 2 ^ 64 → r.endBreath < 2 ^ 64 → r.endPeriod < 2 ^ 16 →
    let b := r.recordBytes i
    let at_ : Nat → Nat → Nat := fun o n => leOf ((b.drop o).take n)
    b.length = 64 ∧ at_ 0 4 = reqId i r ∧ at_ 4 1 = r.state ∧ at_ 5 1 = r.endReason ∧ at_ 12 4 = r.generated ∧ at_ 32 8 = r.arrival ∧
    at_ 40 8 = r.firstToken ∧ at_ 48 8 = r.endBreath ∧ at_ 60 2 = r.endPeriod) ∧
  (∀ (die : Nat) (s : State), die = 4 ∨ die = 5 →
    let q := SMap.get (fun _ => []) s.reqEvents die
    (q = [] → ∃ t : State, exec (.reqtEventLo die) s = .next t ∧ t.readData = 0 ∧ t.reg (Blk.reqt.at die die 0x114) = 0 ∧ t.reqEvents = s.reqEvents) ∧
    (∀ (e : ReqEvent) (es : List ReqEvent), q = e :: es → ∃ t : State, exec (.reqtEventLo die) s = .next t ∧ t.readData = e.id ∧
      SMap.get (fun _ => []) t.reqEvents die = es ∧
      t.reg (Blk.reqt.at die die 0x114) = BitVec.ofNat 32 (2 ^ 31 + e.kind * 2 ^ 16 + e.due % 2 ^ 16) ∧
      { t with regs := s.regs, reqEvents := s.reqEvents, readData := s.readData } = s)) ∧
  (∀ (who : Requester) (die n : Nat) (v : Word) (s : State), die = 4 ∨ die = 5 → n < 32 →
    s.writable who (Blk.reqt.at die die (0x180 + 4 * n)) = true →
    let i := 32768 * (die - 4) + s.fld (Blk.reqt.at die die 0x104) 14 0
    let s1 := if v.toNat &&& (entryMasks n).2 ≠ 0 then s.err who .reqt (Blk.reqt.at die die (0x180 + 4 * n)) .reservedWrite else s
    ((∃ f : Nat, who = .host f) → exec (.reqtEntryWrite who die n v) s = .next (s1.refuseAt who .reqt die die (0x180 + 4 * n))) ∧
    ((∀ f : Nat, who ≠ .host f) → n ∈ [2, 4, 6, 7, 8, 9, 10, 18, 19, 20, 21, 22, 23] →
      exec (.reqtEntryWrite who die n v) s = .next (s.setReq i ((s.req i).putWord n v.toNat)))) ∧
  (∀ (die part : Nat) (s : State), die = 4 ∨ die = 5 → part < 64 →
    let hold := s.fld (Blk.reqt.at die die 0x108) 23 16
    let n := SMap.get (fun _ => 0) s.shedClear (64 * die + part)
    (n < hold → exec (.shedResume die part) s = .next s) ∧
    (hold ≤ n → ∃ (t : State) (l : List Nat), exec (.shedResume die part) s = .next t ∧ l.length ≤ s.fld (Blk.reqt.at die die 0x108) 15 8 ∧
      (∀ i : Nat, t.req i = if i ∈ l then { s.req i with byShed := false } else s.req i) ∧
      SMap.get (fun _ => 0) t.shedClear (64 * die + part) = hold - 1 ∧ sameMem s t))

/-- REPRO_CHECK answers 0xF1 for a payload that breaks R483 and 0xF2 where the descriptor cannot be read, keeps a session-bound
or too long request as refused, and submits run 1 of any other; run 2 starts once run 1 has ended and gives the host nothing;
the report answers the command: it compares the tokens and the text that the runs produced up to where they part in what depends on
time or in the versions that they bound, and holds the status and the first differing token (R483 to R485; where a comparison stops
is the model's reading, log entry 87). VER_PUBLISH answers 1 for a bad kind, id or
address, 2 for a target of 0 breaths ahead and 5 for one of more than 1,024; any other is published on each die of its kind in
ascending order, and the first result other than 0, or the target breath, is answered (R330, R336, R669). -/
def Obligations.ReproAndVersionCommands : Prop :=
  ((∀ (c : HCmd) (wd : WorkInfo) (s : State), s.hostCheck c 32 true = none →
      let p := s.cntAdd .host (fnDie c.fn) (fnDie c.fn) 0x030 32
      (reproOk c = false → ∀ d : Option (List Byte), exec (.reproCheck c d wd) s = .next (p.answer c 0xF1 0 0)) ∧
      (reproOk c = true → exec (.reproCheck c none wd) s = .next (p.answer c 0xF2 0 0)) ∧
      (∀ (d w : List Byte), reproOk c = true → d.length = 64 → wd.bytes = some w →
        let q : Repro := { cmd := c, desc := reproDesc c d, work := wd }
        (reproRefuses d = true → exec (.reproCheck c (some d) wd) s = .next { p with repros := s.repros ++ [{ q with refused := true }] }) ∧
        (reproRefuses d = false → ∀ (id : Nat) (t : State), p.reproSubmit q = (some id, t) →
          exec (.reproCheck c (some d) wd) s = .next { t with repros := t.repros ++ [{ q with run1 := id }] } ∧ t.reply = s.reply))) ∧
    (∀ (fn tag : Nat) (p : Repro) (s : State), s.reproOf fn tag = some p →
      (p.refused = false → p.run2 = 0 → p.failed = false → s.runEnded p.run1 = true →
        ∀ (id i : Nat) (t : State), s.reproSubmit p = (some id, t) → t.reqNamed id = some i →
          let t1 := t.modReq i (fun r => { r with quiet := true, recDone := true })
          exec (.reproRun2Start fn tag) s = .next { t1 with repros := t1.repros.map (fun e => if e = p then { p with run2 := id } else e) }) ∧
      (s.runEnded p.run1 = false → exec (.reproRun2Start fn tag) s = .next s) ∧
      (∀ x : ReproInfo, p.refused = true ∨ p.failed = true ∨ (p.run2 ≠ 0 ∧ s.runEnded p.run2 = true) →
        exec (.reproReport fn tag x) s = .next (({ s with repros := s.repros.erase p } : State).answerBlock p.cmd (p.cmd.fld 16 8) (reproBytes p x) 0))) ∧
    (∀ (p : Repro) (x : ReproInfo),
      let b := reproBytes p x
      let lim := reproLimit p.log1 p.log2
      let u := p.log1.upTo lim
      let v := p.log2.upTo lim
      b.length = 64 ∧ (p.refused = true → leOf (b.take 1) = 3) ∧
      (p.refused = false → p.failed = true → leOf (b.take 1) = 2 ∧ leOf ((b.drop 1).take 1) = 8) ∧
      (p.refused = false → p.failed = false →
        (u ≠ v → leOf (b.take 1) = 1) ∧ (u = v → leOf (b.take 1) = (if lim ≠ none then 2 else if x.outputs = true then 1 else 0)) ∧
        (∀ k : Nat, k < 2 ^ 32 → u.1.take k = v.1.take k → u.1[k]? ≠ v.1[k]? → leOf ((b.drop 4).take 4) = k) ∧
        (u.1 = v.1 → leOf ((b.drop 4).take 4) = 0xFFFFFFFF)))) ∧
  (∀ (c : HCmd) (s : State), s.hostCheck c 16 true = none →
      let p := s.cntAdd .host (fnDie c.fn) (fnDie c.fn) 0x030 16
      let kind := c.fld 0 1
      let id := c.fld 2 2
      let ahead := c.fld 4 4
      let desc := c.fld 8 8
      let good := kind < 4 ∧ c.fld 1 1 = 0 ∧ id ≤ [1023, 63, 15, 4095].getD kind 0 ∧ desc % 64 = 0 ∧ desc < (if kind < 2 then 2 ^ 48 else 2 ^ 27)
      let ans : State → Nat → Nat → Res := fun t st a => .next (t.answer c st 0 a)
      (¬good → exec (.verPublish c) s = ans p 1 0) ∧ (good → ahead = 0 → exec (.verPublish c) s = ans p 2 0) ∧
      (good → 1024 < ahead → exec (.verPublish c) s = ans p 5 0) ∧
      (good → 0 < ahead → ahead ≤ 1024 → ∀ (r v : Nat) (l : List Nat) (t : State),
        p.publishEach kind id ahead desc (p.verDies kind) = (r, v, l, t) →
          (r ≠ 0 → exec (.verPublish c) s = ans t r 0) ∧
          (r = 0 → exec (.verPublish c) s = ans { t with pubs := t.pubs ++ [{ kind := kind, id := id, version := v, fn := c.fn, left := l }] }
            0 (s.breath.number + ahead))))

/-- SESS_CREATE takes a FREE slot of its port's half with the next generation, and answers its id, 1 for a bad payload and 2 for
a full half. At the session's home SESS_SET keeps the mode and the destination of the next park, SESS_QUERY answers the 64 bytes
of the entry, SESS_DELETE frees the session, SESS_MOVE and SESS_EXPORT of a parked session with an image start their operations;
each answers 3 for a stale id, 5 for another partition's, 4 where the session is busy. A command of the other half's session is
forwarded (R528, R535, R549, R558, R559, R561). -/
def Obligations.SessionCommands : Prop :=
  ∀ (c : HCmd) (s : State),
    let paid : Nat → State := fun n => s.cntAdd .host (fnDie c.fn) (fnDie c.fn) 0x030 n
    let ans : State → Nat → Res := fun t st => .next (t.answer c st 0 0)
    let b := c.fld 0 1
    let home := sesDie (c.fld 0 8 % 2 ^ 24)
    let rows : List (Nat × Instr × FwdOp) := [(16, .sessSet c, .set), (8, .sessDelete c, .delete), (16, .sessQuery c, .query),
      (16, .sessMove c, .move), (24, .sessExport c, .exportTo)]
    let plain : FwdOp → Prop := fun op => (op = .set → modeOk (c.fld 8 1) = true ∧ c.fld 9 7 = 0) ∧
      (op = .move → c.fld 8 1 < 3 ∧ (c.fld 9 1 < 4 ∨ c.fld 9 1 = 0xFF) ∧ c.fld 10 6 = 0) ∧
      (op = .exportTo → c.fld 16 1 < 4 ∧ c.fld 17 7 = 0)
    (s.hostCheck c 8 false = none →
      (modeOk b = false ∨ c.fld 1 7 ≠ 0 → exec (.sessCreate c) s = ans (paid 8) 1) ∧
      (modeOk b = true → c.fld 1 7 = 0 →
        ((paid 8).dirFull (fnDie c.fn) = true → exec (.sessCreate c) s = ans (paid 8) 2) ∧
        ((paid 8).dirFull (fnDie c.fn) = false → ∃ (t : State) (k : Nat), exec (.sessCreate c) s = .next t ∧ (s.ses k).state = 0 ∧
          t.ses k = { gen := if (s.ses k).gen = 2 ^ 40 - 1 then 1 else (s.ses k).gen + 1, state := 1, mode := b % 4, dest := b / 4,
                      nextMode := b % 4, nextDest := b / 4, part := (paid 8).fnPart c.fn, fn := c.fn } ∧
          t.reply = { fn := c.fn, status := 0, detail := 0, addr := sesId k (t.ses k) } ∧ (∀ j : Nat, j ≠ k → t.ses j = s.ses j)))) ∧
    (∀ row ∈ rows, s.hostCheck c row.1 false = none →
      let p := paid row.1
      (¬plain row.2.2 → exec row.2.1 s = ans p 1) ∧
      (plain row.2.2 → home ≠ fnDie c.fn →
        exec row.2.1 s = .next { p with fwds := s.fwds ++ [{ home := home, cmd := c, op := row.2.2 }] }) ∧
      (plain row.2.2 → home = fnDie c.fn →
        (s.sesNamed (c.fld 0 8) = none → exec row.2.1 s = ans p 3) ∧
        (∀ k : Nat, s.sesNamed (c.fld 0 8) = some k →
          let x := s.ses k
          let ok := row.2.2 = .set ∨ row.2.2 = .query
          (x.part ≠ p.fnPart c.fn → exec row.2.1 s = ans p 5) ∧
          (x.part = p.fnPart c.fn →
            (¬ok → x.busy = true → exec row.2.1 s = ans p 4) ∧
            (row.2.2 = .set → exec row.2.1 s =
              ans (p.modSes k (fun y => { y with nextMode := c.fld 8 1 % 4, nextDest := c.fld 8 1 / 4 % 4 })) 0) ∧
            (row.2.2 = .query → exec row.2.1 s = .next (p.answerBlock c (c.fld 8 8) (x.bytes (p.queueRec k)) 0)) ∧
            (row.2.2 = .delete → x.busy = false → exec row.2.1 s = ans (p.sesFree k) 0) ∧
            (row.2.2 = .move → x.busy = false → x.state = 3 → x.warm ≠ 0 ∨ x.cold ≠ 0 →
              exec row.2.1 s = ans ((p.modSes k (fun y => { y with state := 4 })).setOps
                (s.sessOps ++ [{ slot := k, kind := .move (c.fld 8 1) (c.fld 9 1), cmd := some c }])) 0) ∧
            (row.2.2 = .exportTo → x.busy = false → x.state = 3 → x.warm ≠ 0 ∨ x.cold ≠ 0 → p.canWrap (p.partKey x.part) = false →
              exec row.2.1 s = ans p 7) ∧
            (∀ img : List Byte, row.2.2 = .exportTo → x.busy = false → x.state = 3 → x.warm ≠ 0 ∨ x.cold ≠ 0 →
              p.canWrap (p.partKey x.part) = true → p.fullImage x = some img →
              exec row.2.1 s = .next (((p.modSes k (fun y => { y with state := 4 })).setOps (s.sessOps ++
                [{ slot := k, kind := .exportTo (c.fld 8 8) (bit (c.fld 16 1) 0) (bit (c.fld 16 1) 1), cmd := some c }])).answer c 0 0
                  (img.length + 16 * ceilDiv (img.length - 4096) (1024 * 1024))))))))

/-- SESS_IMPORT answers 1 for set reserved bits, 2 for a full half, 6 for a header that breaks R537, 7 for an empty key slot,
and 6 for an image whose tags fail, which is counted; an image that opens, of a model that is ready, becomes a parked session
whose id is answered. SESS_PREFIX takes the lowest free prefix id for its tokens; SESS_PREFIX_DELETE answers 9 while the prefix
is named, and else removes it (R541, R542, R560). -/
def Obligations.ImportsAndPrefixes : Prop :=
  ∀ (c : HCmd) (s : State),
    let paid : Nat → State := fun n => s.cntAdd .host (fnDie c.fn) (fnDie c.fn) 0x030 n
    let ans : State → Nat → Res := fun t st => .next (t.answer c st 0 0)
    (∀ (img : List Byte) (known : Bool) (obj : Nat), s.hostCheck c 24 false = none →
      let p := paid 24
      let slot := hdr img 128 4
      let headOk := imageOk img = true ∧ bit (hdr img 7 1) 0 = true ∧ hdr img 64 8 = c.fld 8 8 ∧ hdr img 132 4 = 1024 ∧ slot < 16
      (2 ≤ c.fld 16 1 ∨ c.fld 17 7 ≠ 0 → exec (.sessImport c img known obj) s = ans p 1) ∧
      (c.fld 16 1 = 0 → c.fld 17 7 = 0 → c.fld 8 8 = img.length →
        (p.dirFull (fnDie c.fn) = true → exec (.sessImport c img known obj) s = ans p 2) ∧
        (p.dirFull (fnDie c.fn) = false →
          (¬headOk → exec (.sessImport c img known obj) s = ans p 6) ∧
          (headOk → p.keySlot slot = none → exec (.sessImport c img known obj) s = ans p 7) ∧
          (headOk → p.keySlot slot ≠ none → p.openImage img = none →
            exec (.sessImport c img known obj) s = ans ((p.cntAdd .sec 4 4 0x040 1).raise (Blk.sec.at 4 4 0) 0) 6) ∧
          (∀ body : List Byte, headOk → p.keySlot slot ≠ none → p.openImage img = some body →
            (known = false ∨ p.modelAnyReady (hdr img 24 2) = false → exec (.sessImport c img known obj) s = ans p 7) ∧
            (known = true → p.modelAnyReady (hdr img 24 2) = true →
              hdr img 33 1 ≤ (List.range 4).countP (fun ch => p.online ch) →
              (p.partSecure (p.fnPart c.fn) = true → p.canWrap (p.partKey (p.fnPart c.fn)) = true) →
              ∃ (t : State) (k : Nat), exec (.sessImport c img known obj) s = .next t ∧ (t.ses k).state = 3 ∧ (t.ses k).dest = 1 ∧
                (t.ses k).cold = obj ∧ (t.ses k).warm = 0 ∧ (t.ses k).tokens = hdr img 20 4 ∧ (t.ses k).turns = hdr img 16 4 ∧
                (t.ses k).model = hdr img 24 2 ∧ (t.ses k).part = p.fnPart c.fn ∧ (s.ses k).state = 0 ∧
                t.reply = { fn := c.fn, status := 0, detail := 0, addr := sesId k (t.ses k) }))))) ∧
    (∀ (ids : List Nat) (shape : KvShape) (pl : Place), s.hostCheck c 16 true = none →
      let n := c.fld 4 4
      let good := c.fld 2 2 = 0 ∧ 0 < n ∧ n % 128 = 0 ∧ n ≤ 1048576
      (¬good → exec (.sessPrefix c (some ids) shape pl) s = ans (paid 16) 1) ∧
      (good → exec (.sessPrefix c none shape pl) s = ans (paid 16) 0xF2) ∧
      (∀ q : Nat, good → q < 4096 → s.pfxOf q = none → (∀ j : Nat, j < q → s.pfxOf j ≠ none) →
        ∃ t : State, exec (.sessPrefix c (some ids) shape pl) s = .next t ∧
          t.pfxOf q = some { model := c.fld 0 2, ids := ids.take n, obj := pl.id, part := (paid 16).fnPart c.fn } ∧
          (∀ j : Nat, j ≠ q → t.pfxOf j = s.pfxOf j) ∧ t.reply = { fn := c.fn, status := 0, detail := 0, addr := q } ∧
          (∃ o : Obj, t.obj pl.id = some o ∧ o.size = n / 128 * shape.layers * shape.pageBytes ∧ o.addr = pl.addr))) ∧
    (s.hostCheck c 8 true = none →
      let q := c.fld 0 2
      (c.fld 2 6 ≠ 0 → exec (.sessPrefixDelete c) s = ans (paid 8) 1) ∧
      (∀ x : Pfx, c.fld 2 6 = 0 → s.pfxOf q = some x →
        (s.pfxCount q ≠ 0 → exec (.sessPrefixDelete c) s = ans (paid 8) 9) ∧
        (s.pfxCount q = 0 → exec (.sessPrefixDelete c) s = ans (((paid 8).dropImage x.obj).setPfx q none) 0)))

/-- A waiting operation of a bellows starts, oldest first, while an inflight slot is free and the engine is enabled; a revive
whose image can be read and whose turn is placed as R552 says hands the request its KV map and its length, from 0 where the
history is prefilled (R553); one that fails leaves its code for the turn and, for 3, 4 and 7, a damaged session (the order of the
codes is log entry 207); a park whose write fails ends the turn CANCELLED with code 5 and the session keeps its image; a move
whose copy failed leaves the session as it was until the next edge; an export with `handoff` frees it (R546, R548, R551 to R555,
R558, R559, R562). A write of SESS_CTRL with `rebuild` starts a rebuild; its end keeps every session with a flash image as
PARKED and frees the others, queueing their ids, clears `rebuilding` and raises. A read of the lost-session queue returns and
removes its oldest id. The home bellows accepts the oldest forward first (R544, R556, R566). -/
def Obligations.SessionOperations : Prop :=
  ((∀ (die : Nat) (o : SessOp) (s : State), die = 4 ∨ die = 5 →
      let mine : SessOp → Bool := fun p => decide (sesDie p.slot = die)
      let n := s.sessOps.countP (fun p => mine p && p.running)
      let on := s.rbit (Blk.sess.at die die 0x008) 0
      let most := s.fld (Blk.sess.at die die 0x108) 24 16
      (on = false ∨ most ≤ n → exec (.sessOpStart die) s = .next s) ∧
      (on = true → n < most → s.sessOps.find? (fun p => mine p && !p.running) = some o →
        let s1 := s.setOps (s.sessOps.map (fun p => if p = o then { p with running := true } else p))
        exec (.sessOpStart die) s = .next (if o.kind = .park then s1.modReq ((s.ses o.slot).req % 65536) (fun r => { r with state := 6 })
          else s1))) ∧
    (∀ (k : Nat) (info : ReviveInfo) (s : State), s.sessOps.any (fun o => decide (o.slot = k) && o.running && decide (o.kind = .revive)) = true →
      let x := s.ses k
      let i := x.req % 65536
      let s1 := s.setOps (s.sessOps.filter (fun o => !(decide (o.slot = k) && decide (o.kind = .revive))))
      (∀ img : List Byte, s.reviveImage k info = .ok img →
        let m := (s.req i).runs
        let p := s.prefillOf img m
        (s.placed k m img p info = true → exec (.reviveComplete k info) s = .next (s1.reviveDo k i img p info) ∧
          ((s1.reviveDo k i img p info).req i).kvRoot = info.kvRoot ∧
          ((s1.reviveDo k i img p info).req i).length = (if p = .none then hdr img 20 4 else 0) ∧
          (p = .whole ↔ hdr img 6 1 = 2 ∨ hdr img 24 2 ≠ m)) ∧
        (s.placed k m img p info = false → exec (.reviveComplete k info) s = .next s)) ∧
      (∀ c : Nat, s.reviveImage k info = .error c →
        let s2 := (s1.sesFail k).reqOutcome i 0 5 9 c
        let s3 := if s.tagFails x.image = true then s2.cntAdd .sec 4 4 0x040 1 else s2
        exec (.reviveComplete k info) s = .next (if c ∈ [3, 4, 7] then s3.modSes k (fun y => { y with damaged := true, damage := c })
          else s3))) ∧
    (∀ (k : Nat) (src0 : ImageSrc) (s : State), s.sessOps.any (fun o => decide (o.slot = k) && o.running && decide (o.kind = .park)) = true →
      let src := s.srcOf k src0
      exec (.parkCommit k src0 false) s = .next (s.parkFail k) ∧
      (∀ (img : List Byte) (s1 : State), s.partSecure (s.ses k).part = false → s.deltaKeep k (s.ses k).nextMode src = none →
        s.buildImage k (s.ses k).nextMode src 0 0 = (img, s1) → s1.quotaOk 32 img.length (s.ses k).part = true →
        exec (.parkCommit k src0 true) s = .next (s1.commitPark k (s.ses k).nextDest (s.ses k).nextMode src none img) ∧
        ((s1.commitPark k (s.ses k).nextDest (s.ses k).nextMode src none img).ses k).state = 3)) ∧
    (∀ (k dest ch obj : Nat) (addr : Option Nat) (o : SessOp) (s : State),
      s.sessOps.find? (fun p => decide (p.slot = k) && p.running && !p.done) = some o → o.kind = .move dest ch →
      exec (.moveComplete k obj ch addr false) s =
        .next (s.setOps (s.sessOps.map (fun p => if p.slot = k then { p with done := true } else p)))) ∧
    (∀ (k a : Nat) (flash handoff : Bool) (o : SessOp) (c : HCmd) (s : State),
      s.sessOps.find? (fun p => decide (p.slot = k) && p.running) = some o → o.kind = .exportTo a flash handoff → o.cmd = some c →
      let back : State → State := fun t => (t.setOps (t.sessOps.filter (fun p => decide (p.slot ≠ k)))).modSes k (fun y => { y with state := 3 })
      exec (.exportComplete k false) s = .next (back s) ∧
      (∀ (img w : List Byte) (s1 : State), s.fullImage (s.ses k) = some img → s.canWrap (s.partKey (s.ses k).part) = true →
        (s.imageOpened (s.ses k)).wrapImage (s.partKey (s.ses k).part) img = (w, s1) → flash = false → s.canWriteHost c.fn = true →
        exec (.exportComplete k true) s =
          .next (if handoff = true then (s1.hostWrite c.fn a w).sesFree k else back (s1.hostWrite c.fn a w))))) ∧
  (∀ (who : Requester) (die : Nat) (v : Word) (s : State), die = 4 ∨ die = 5 →
      let reg : Nat → Nat := fun off => Blk.sess.at die die off
      let lost := SMap.get (fun _ => []) s.sessLost die
      (s.writable who (reg 0x008) = true → ∃ t : State, exec (.sessRebuild who die v) s = .next t ∧ { t with regs := s.regs } = s ∧
        t.rbit (reg 0x00C) 30 = (v.getLsbD 1 || s.rbit (reg 0x00C) 30)) ∧
      (s.rbit (reg 0x00C) 30 = true → ∃ t : State, exec (.rebuildDone die) s = .next t ∧ t.rbit (reg 0x00C) 30 = false ∧
        t.rbit (reg 0x010) 3 = true ∧ sameMem s t ∧ ∀ k : Nat, k < 2 ^ 24 → sesDie k = die → SMap.wf Sess.blank s.sess = true →
          ((s.ses k).state = 1 ∨ (s.ses k).state = 3 →
            ((s.ses k).cold ≠ 0 → (t.ses k).state = 3 ∧ (t.ses k).cold = (s.ses k).cold ∧ (t.ses k).warm = 0) ∧
            ((s.ses k).cold = 0 → (t.ses k).state = 0 ∧ (t.ses k).gen = (s.ses k).gen))) ∧
      (s.rbit (reg 0x00C) 30 = false → exec (.rebuildDone die) s = .next s) ∧
      (lost = [] → ∃ t : State, exec (.sessLostLo die) s = .next t ∧ t.readData = 0 ∧ t.sessLost = s.sessLost) ∧
      (∀ (n : Nat) (ns : List Nat), lost = n :: ns → ∃ t : State, exec (.sessLostLo die) s = .next t ∧ t.readData = n % 2 ^ 32 ∧
        t.reg (reg 0x114) = BitVec.ofNat 32 (n / 2 ^ 32) ∧ SMap.get (fun _ => []) t.sessLost die = ns ∧
        { t with regs := s.regs, sessLost := s.sessLost, readData := s.readData } = s) ∧
      (s.fwds.find? (fun f => decide (f.home = die)) = none → exec (.turnForward die) s = .next s) ∧
      (∀ f : Fwd, s.fwds.find? (fun g => decide (g.home = die)) = some f →
        let s1 : State := { s with fwds := s.fwds.erase f }
        (∀ i g : Nat, f.op = .turn i g →
          (∀ st : Nat, s1.turnRefused (s.req i).sessionId (s.fnPart f.cmd.fn) = some st → exec (.turnForward die) s =
            .next (((s1.setReq i { gen := g }).cntAdd .sess die die 0x068 1).refuseReq f.cmd 7 st)) ∧
          (s1.turnRefused (s.req i).sessionId (s.fnPart f.cmd.fn) = none → exec (.turnForward die) s = .next (s1.acceptTurn f.cmd i))) ∧
        ((∀ i g : Nat, f.op ≠ .turn i g) → exec (.turnForward die) s = .next (s1.sesRun f.cmd f.op))))

/-- A write of PART_PREEMPT while `busy` is refused; else the named steps and their groups are being pre-empted. A reed of such
a step stops where it is, the rows of a block that has not committed discarded. A stopped step retires with its images written, counted as a save, or with `fault` and the code of the
failure; the head and the core-state tile of an image are 4,096 bytes each. A bucket grant is charged in units of 64 bytes, by
its own level first and else by borrowing, and the time waited is counted (R154, R580 to R583, R590 to R600). -/
def Obligations.PreemptionAndBuckets : Prop :=
  (∀ (who : Requester) (die : Nat) (v : Word) (s : State), die < 8 → s.writable who (Blk.part.at die die 0x140) = true →
    let busy := s.rbit (Blk.part.at die die 0x144) 31
    (busy = true → exec (.partPreempt who die v) s = .next (s.refuseWrite who .part die die 0x140 v)) ∧
    (busy = false → ∃ t : State, exec (.partPreempt who die v) s = .next t ∧ sameMem s t ∧
      (∀ e ∈ s.steps, e.active = true → e.desc.die = die → e.desc.mask &&& v.toNat % 65536 ≠ 0 → e.stopping = false →
        ∃ f ∈ t.steps, f.uid = e.uid ∧ f.desc = e.desc ∧ f.stopping = true ∧ f.preBy = die))) ∧
  (∀ (die slot r : Nat) (s : State), die < 4 → slot < 8 → r < 17 →
    let x : ReedRef := ⟨die, slot, r⟩
    let y := s.reed x
    let asked := s.steps.any (fun e => decide (e.uid = y.step) && e.stopping)
    (y.run = .running → asked = true → y.a.writes = [] →
      ∃ t : State, exec (.preemptTake die slot r) s = .next t ∧
        t.reed x = { y with run := .preempted, wait := .none, held := none, sub := 0, a := y.a.settle } ∧
        (∀ z : ReedRef, reedNo z ≠ reedNo x → t.reed z = s.reed z) ∧ { t with reeds := s.reeds } = s) ∧
    (y.run ≠ .running ∨ asked = false → exec (.preemptTake die slot r) s = .next s)) ∧
  (∀ (die slot f d u : Nat) (e : Step) (s : State), s.stepIn die slot = some e →
    (e.stopping = false ∨ s.preStopped e = false → exec (.contextSaveDone die slot f d u) s = .next s) ∧
    (∀ c : Nat, e.stopping = true → s.preStopped e = true → s.saveJobs e = .error c →
      let s1 := (((s.noteSave e).undefineImages e).stepFault e.uid 0 0 0).retire e.uid f d u false
      exec (.contextSaveDone die slot f d u) s =
        .next (((s1.setFld (Blk.part.at die die 0x144) 23 16 c).raise (Blk.part.at die die 0) 1).preClose e.preBy)) ∧
    (∀ js : List (ReedRef × Nat × Nat), e.stopping = true → s.preStopped e = true → s.saveJobs e = .ok js →
      let s1 := js.foldl (fun (t : State) j => t.writeImage e j.1 j.2.1 j.2.2) (s.noteSave e)
      let s2 := ((s1.modStep e.uid (fun g => { g with preempted := true, progress := s1.unitProgress e })).retire e.uid f d u false).cntAdd
        .part die die 0x048 1
      let st := Blk.part.at die die 0x144
      exec (.contextSaveDone die slot f d u) s = .next ((if e.preBy = die
        then s2.setFld st 15 0 (s2.fld st 15 0 ||| e.desc.mask % 65536) else s2).preClose e.preBy)) ∧
    (∀ (x : ReedRef) (pos : Nat), (s.headTile x pos e).length = 4096 ∧ (s.coreTile x).length = 4096)) ∧
  (∀ (die bkt p n cycles : Nat) (s : State), die < 8 → bkt < bucketsOf die → p < 64 →
    let l := s.level die p bkt
    let on := s.bktOn die p bkt
    let borrow := s.rbit (bktA die p bkt 0x110) 1
    let lender : State → Prop := fun t => sameMem s t ∧ ∀ q : Nat, q < 64 → q ≠ p → t.level die q bkt = s.level die q bkt
    let waited : State → Prop := fun t => t.count (Blk.part.at die die 0x030) = min (s.count (Blk.part.at die die 0x030) + cycles) (2 ^ 48 - 1)
    (on = true → 0 < l ∨ borrow = true → ∃ t : State, exec (.bucketGrant die bkt [(p, n)] cycles) s = .next t ∧
      t.level die p bkt = max (l - (ceilDiv n 64 : Nat)) (-(2 ^ 31)) ∧ waited t ∧ lender t ∧
      (0 < l → t.count (Blk.part.at die die 0x038) = s.count (Blk.part.at die die 0x038)) ∧
      (l ≤ 0 → t.count (Blk.part.at die die 0x038) = min (s.count (Blk.part.at die die 0x038) + 1) (2 ^ 48 - 1))) ∧
    (on = true → l ≤ 0 → borrow = false → ∃ t : State, exec (.bucketGrant die bkt [(p, n)] cycles) s = .next t ∧
      t.level die p bkt = l ∧ waited t ∧ lender t))

/-- A doorbell posts the staged notice in a free slot of its function, or drops it, which is counted and reported, while the
bellows is not ready, in a reset of the function, or with no free slot; MBX_TAKE takes the oldest notice of the next function in
rotation; MBX_SEND3 sends the staged notice or reply and reports in MBX_SEND_STATUS; F2H_TAKE and CQ_WRITE move the oldest
notice to the host; a read of F2H_STATUS in mailbox mode and a write of CQ_HEAD arm every vector again; `ready` is ignored
before BOOT_DONE; a firmware restart clears `ready` and frees every slot of its port; a notice whose slot holds an uncorrectable
word is discarded instead (R653 to R664, R673, R676, R677, R719). -/
def Obligations.Mailboxes : Prop :=
  (∀ (fn off : Nat) (data : List Byte) (s : State), s.fnEnabled fn = true →
    let x := s.fn fn
    let d := fnDie fn
    let v := mergeBytes x.stage off data
    let drops := x.freeSlots = [] ∨ s.mbxReady d = false ∨ x.flr = true
    (off + data.length ≤ 12 → exec (.h2fStage fn off data) s = .next (s.setFn fn { x with stage := v })) ∧
    (off ≤ 12 → off + data.length = 16 →
      (¬drops → ∃ (t : State) (slot : Nat), exec (.doorbell fn off data) s = .next t ∧ slot < 64 ∧ (∀ h ∈ x.h2f, h.slot ≠ slot) ∧
        t.fn fn = { x with stage := v % 2 ^ 96, h2f := x.h2f ++ [{ slot := slot, note := noticeOf v }] } ∧
        t.rbit (Blk.mbx.at d d 0x010) 0 = true ∧ sameMem s t) ∧
      (drops → ∃ t : State, exec (.doorbell fn off data) s = .next t ∧ (t.fn fn).h2f = x.h2f ∧ (t.fn fn).int.getLsbD 0 = true ∧
        t.count (Blk.mbx.at d d 0x040) = min (s.count (Blk.mbx.at d d 0x040) + 1) (2 ^ 48 - 1) ∧
        t.rbit (Blk.mbx.at d d 0x010) 1 = true ∧ sameMem s t))) ∧
  (∀ (die : Nat) (s : State), die = 4 ∨ die = 5 → s.sec.pendingReset = false →
    (∀ bad : Bool, s.nextFn die = none →
      exec (.mbxTake die bad) s = .next { s.setReg (Blk.mbx.at die die 0x110) 0 with readData := 0 }) ∧
    (∀ (f : Nat) (h : H2F), s.nextFn die = some f → (s.fn f).h2f.find? (fun g => !g.taken) = some h →
      exec (.mbxTake die true) s = .next { (s.discardH2f f h).setReg (Blk.mbx.at die die 0x110) 0 with readData := 0 } ∧
      ∃ t : State, exec (.mbxTake die false) s = .next t ∧ t.readData = h.note.tag + 2 ^ 16 * h.note.flags ∧
        t.reg (Blk.mbx.at die die 0x110) = BitVec.ofNat 32 (2 ^ 31 + h.slot * 2 ^ 16 + f) ∧
        t.fn f = { s.fn f with h2f := (s.fn f).h2f.map (fun g => if g = h then { g with taken := true } else g) } ∧
        SMap.get (fun _ => 0) t.mbxLast die = f + 1)) ∧
  (∀ (who : Requester) (die : Nat) (v : Word) (c : Instr) (s : State), die = 4 ∨ die = 5 →
    s.writable who (Blk.mbx.at die die 0x12C) = true → c ∈ [Instr.mbxSendNotice who die v, .mbxSendReply who die v] →
    let s1 := s.writeAt who .mbx die die 0x12C v
    let f := s1.fld (Blk.mbx.at die die 0x130) 9 0
    let slot := s1.fld (Blk.mbx.at die die 0x130) 21 16
    let n := s1.sendRegs die
    let sent := fun t : State => t.fld (Blk.mbx.at die die 0x134) 1 0
    exec c s = .next (s1.sendGo die) ∧
    (s1.rbit (Blk.mbx.at die die 0x130) 31 = false → s1.fnEnabled f = true → (s.fn f).flr = false →
      (s1.f2hRoom f = true → sent (s1.sendGo die) = 0 ∧ ((s1.sendGo die).fn f).f2h = (s.fn f).f2h ++ [n]) ∧
      (s1.f2hRoom f = false → sent (s1.sendGo die) = 1 ∧ (s1.sendGo die).fns = s.fns)) ∧
    (s1.rbit (Blk.mbx.at die die 0x130) 31 = true →
      ((s.fn f).h2f.find? (fun h => decide (h.slot = slot) && h.taken) = none → sent (s1.sendGo die) = 3 ∧ (s1.sendGo die).fns = s.fns) ∧
      (∀ h : H2F, (s.fn f).h2f.find? (fun h => decide (h.slot = slot) && h.taken) = some h → s1.fnEnabled f = true →
        (s.fn f).flr = false → h.doomed = false → sent (s1.sendGo die) = 0 ∧ ((s1.sendGo die).fn f).f2h = (s.fn f).f2h ++ [n] ∧
          ∀ g ∈ ((s1.sendGo die).fn f).h2f, g.slot ≠ slot))) ∧
  (∀ (fn : Nat) (v : Word) (s : State),
    let x := s.fn fn
    let k := fieldW x.cfg 4 0
    let queue := x.cfg.getLsbD 8
    (∀ bad : Bool, queue = true ∨ x.f2h = [] → exec (.f2hTake fn bad) s = .next { s with readData := 0 }) ∧
    (∀ (n : Notice) (ns : List Notice), x.f2h = n :: ns →
      (queue = false → exec (.f2hTake fn true) s = .next { s.discardF2h fn with readData := 0 } ∧ exec (.f2hTake fn false) s =
        .next { (s.setFn fn { x with f2h := ns }).drainFw fn with readData := leOf n.bytes }) ∧
      (queue = true → s.canWriteHost fn = true → serialDiff x.cqTail x.cqHead < 2 ^ k →
        exec (.cqWrite fn true) s = .next (s.discardF2h fn) ∧ exec (.cqWrite fn false) s = .next (((((s.setFn fn { x with f2h := ns, cqTail := (x.cqTail + 1) % 2 ^ 32 }).hostWrite fn
          (x.cqBase + x.cqTail % 2 ^ k * 16)
          ({ n with flags := withBits n.flags 11 11 ((x.cqTail / 2 ^ k % 2) ^^^ 1) } : Notice).bytes).msixRaise fn n.kind)).drainFw fn)) ∧
      (∀ bad : Bool, queue = false ∨ s.canWriteHost fn = false ∨ 2 ^ k ≤ serialDiff x.cqTail x.cqHead →
        exec (.cqWrite fn bad) s = .next s) ∧
      ∃ t : State, s.discardF2h fn = t ∧ (t.fn fn).f2h.length ≤ x.f2h.length ∧ sameMem s t) ∧
    (s.fnEnabled fn = true → exec (.cqHead fn v) s = .next (s.setFn fn { x with cqHead := v.toNat, disarmed := [] }) ∧
      (queue = false → exec (.f2hStatus fn) s = .next { s.setFn fn { x with disarmed := [] } with readData := x.f2h.length }) ∧
      (queue = true → exec (.f2hStatus fn) s = .next { s with readData := x.f2h.length }))) ∧
  (∀ (who : Requester) (die : Nat) (v : Word) (s : State), die = 4 ∨ die = 5 → s.writable who (Blk.mbx.at die die 0x008) = true →
    (s.bootDone = false → exec (.mbxReady who die v) s = .next s) ∧
    (s.bootDone = true → exec (.mbxReady who die v) s =
      .next ((((s.writeAt who .mbx die die 0x008 v).announceRestart die).announceReset die).bootEnd))) ∧
  (∀ (die : Nat) (s : State),
    exec (.mbxAbortPop 4) s = .next { s with abortsA := s.abortsA.tail, readData := (s.abortsA.headD 0).toNat } ∧
    exec (.mbxAbortPop 5) s = .next { s with abortsB := s.abortsB.tail, readData := (s.abortsB.headD 0).toNat } ∧
    (die = 4 ∨ die = 5 → ∃ t : State, exec (.firmwareRestart die none) s = .next t ∧ t.mbxReady die = false ∧
      (∀ f : Nat, fnDie f = die → (t.fn f).h2f = []) ∧ (∀ f : Nat, fnDie f ≠ die → t.fn f = s.fn f) ∧ sameMem s t))

/-- A function-level reset of an enabled function empties its channels, leaving only notices that are taken, and that of a
physical function resets its virtual functions too; its end gives the function its reset state; a port's reset resets its
physical functions. A link change is stored and raised. A BAR4 access moves the bytes between the host and physical memory and
counts them, or is refused, counted and raised. A configuration write takes effect (R645, R651, R665, R667, R668, R675). -/
def Obligations.HostFunctions : Prop :=
  (∀ (fn : Nat) (s : State),
    (s.fnEnabled fn = false → exec (.flr fn) s = .next s) ∧
    (s.fnEnabled fn = true → ∃ t : State, exec (.flr fn) s = .next t ∧ (t.fn fn).flr = true ∧ (t.fn fn).f2h = [] ∧
      (∀ h ∈ (t.fn fn).h2f, h.taken = true ∧ h.doomed = true) ∧ (∀ e ∈ t.fwNotices, e.1 ≠ fn) ∧ sameMem s t ∧
      (t.fn fn).vfEnable = false ∧ (∀ v ∈ s.vfsOf fn, (t.fn v).flr = true)) ∧
    ((s.fn fn).flr = true → ∃ t : State, exec (.flrComplete fn) s = .next t ∧
      t.fn fn = { h2f := (s.fn fn).h2f, flrEdge := (s.fn fn).flrEdge, sel := (s.fn fn).sel, aer := (s.fn fn).aer } ∧
      t.count (Blk.host.at (fnDie fn) (fnDie fn) 0x058) = min (s.count (Blk.host.at (fnDie fn) (fnDie fn) 0x058) + 1) (2 ^ 48 - 1) ∧
      t.rbit (Blk.host.at (fnDie fn) (fnDie fn) 0x010) 2 = true ∧ sameMem s t) ∧
    ((s.fn fn).flr = false → exec (.flrComplete fn) s = .next s)) ∧
  (∀ (port : Nat) (s : State), port < 2 → exec (.portReset port) s = .next (if s.bifurcated (4 + port) = true
    then (s.flr (512 * port)).flr (512 * port + 256) else s.flr (512 * port))) ∧
  (∀ (die : Nat) (status : Word) (s : State), die = 4 ∨ die = 5 → ∃ t : State, exec (.linkChange die status) s = .next t ∧
    t.reg (Blk.host.at die die 0x100) = status &&& (if s.bifurcated die = true then 0xF0FF1F1F else 0xA00F001F) ∧
    t.rbit (Blk.host.at die die 0x010) 3 = true ∧ sameRegsBut [Blk.host.at die die 0x100, Blk.host.at die die 0x010] s t ∧
    { t with regs := s.regs } = s) ∧
  (∀ (fn off : Nat) (data : List Byte) (s : State), s.fnEnabled fn = true → (s.fn fn).flr = false →
    let base := (s.bar4 fn).1
    let n := data.length
    let d := fnDie fn
    off + n ≤ (s.bar4 fn).2 →
    (∀ ps : List Nat, s.bar4Xlat fn true (base + off) n = some ps → s.partialBad ps = false →
      exec (.bar4Access fn off true data) s = .next (((s.notePartial ps).writePhys ps data).cntAdd .host d d 0x030 n)) ∧
    (∀ ps : List Nat, s.bar4Xlat fn false (base + off) n = some ps →
      ∃ t : State, exec (.bar4Access fn off false data) s = .next t ∧ t.readData = leOf (s.readPhys ps) ∧ sameMem s t) ∧
    (∀ w : Bool, s.bar4Xlat fn w (base + off) n = none → ∃ t : State, exec (.bar4Access fn off w data) s = .next t ∧ t.readData = 0 ∧
      t.rbit (Blk.host.at d d 0x010) 1 = true ∧ sameMem s t)) ∧
  (∀ (fn : Nat) (cfg : FnConfig) (s : State),
    (s.fnEnabled fn = false ∨ (s.fn fn).flr = true → exec (.configurationWrite fn cfg) s = .next s) ∧
    (s.fnEnabled fn = true → (s.fn fn).flr = false → ∃ t : State, exec (.configurationWrite fn cfg) s = .next t ∧
      (t.fn fn).busMaster = cfg.busMaster ∧ (t.fn fn).msixEn = cfg.msixEn ∧ (t.fn fn).msixMask = cfg.msixMask ∧
      (t.fn fn).pasidEn = cfg.pasidEn ∧ (t.fn fn).atsEn = cfg.atsEn ∧
      (s.pfOf fn = fn → (t.fn fn).vfEnable = cfg.vfEnable) ∧ (s.pfOf fn ≠ fn → (t.fn fn).vfEnable = false ∧ (t.fn fn).numVfs = 0) ∧
      (s.pfOf fn = fn → (s.fn fn).vfEnable = true → cfg.vfEnable = false → ∀ v ∈ s.vfsOf fn, (t.fn v).flr = true)))

/-- A request that breaks R686 completes as INVALID (1), and one for an object of which no drone has a record with the drones'
own status or 2. Each drone of the object does its share: a read delivers the units that can be read and counts them; a write
buffers the units and counts them; a create makes the records and takes the room; a commit and a delete keep their tag until
their records are programmed. The completion's status is the first of the shares' that is not 0 (R684 to R689). -/
def Obligations.FlashRequests : Prop :=
  ∀ (b : Nat) (req : List Byte) (s : State), b = 4 ∨ b = 5 →
    let r : FReq := ⟨req⟩
    let ends : State → Nat → Nat → Res := fun t st n => .next (t.flashEnd r.tag st n)
    let rows : List (Nat × Instr) := [(0, .flashRead b req), (1, .flashWrite b req), (2, .flashCreate b req), (3, .flashCommit b req),
      (4, .flashDelete b req)]
    (∀ p ∈ rows, r.bad p.1 = true → exec p.2 s = ends s 1 0) ∧
    (∀ p ∈ rows, r.bad p.1 = false → p.1 ≠ 2 → s.flashCode r.obj = none →
      exec p.2 s = ends s (joinStatus [s.droneGate 6 p.1, s.droneGate 7 p.1, 2]) 0) ∧
    (∀ code : Nat, s.flashCode r.obj = some code →
      let ds := (dronesOf code).filter (fun d => decide (r.unitsAt code d ≠ []))
      (r.bad 0 = false → (∀ d ∈ ds, s.readShare b r code d = 0) →
        exec (.flashRead b req) s = ends (ds.foldl (fun (t : State) d =>
          (t.readUnits b r code (r.unitsAt code d)).cntAdd .drone d d 0x030 (r.unitsAt code d).length) s) 0
            (ds.map (fun d => s.blankUnits r code (r.unitsAt code d))).sum) ∧
      (r.bad 1 = false → (∀ d ∈ ds, s.writeShare b r code d = 0) →
        exec (.flashWrite b req) s = ends (ds.foldl (fun (t : State) d =>
          (t.writeUnits b r code d).cntAdd .drone d d 0x038 (r.unitsAt code d).length) (s.noteUnits b r code false ds)) 0 0) ∧
      (r.bad 3 = false → (∀ d ∈ dronesOf code, s.commitShare r.obj d ≠ 0) →
        exec (.flashCommit b req) s = ends s (joinStatus ((dronesOf code).map (s.commitShare r.obj))) 0) ∧
      (r.bad 3 = false → (∀ d ∈ dronesOf code, s.commitShare r.obj d = 0 ∧ s.fobj d r.obj ≠ none) →
        ∃ t : State, exec (.flashCommit b req) s = .next t ∧ t.flashDone = s.flashDone ∧ sameMem s t ∧
          ∀ d ∈ dronesOf code, ∃ o : FObj, t.fobj d r.obj = some o ∧ o.closing = some (r.tag, 0) ∧
            (t.drone d).buf = (s.drone d).buf ++ [{ stream := 4, kind := .commit r.obj }]) ∧
      (r.bad 4 = false → (∀ d ∈ dronesOf code, s.deleteShare r.obj d = 0 ∧ s.fobj d r.obj ≠ none) →
        ∃ t : State, exec (.flashDelete b req) s = .next t ∧ t.flashDone = s.flashDone ∧ sameMem s t ∧
          ∀ d ∈ dronesOf code, ∃ o : FObj, t.fobj d r.obj = some o ∧ o.deleting = some (r.tag, 0) ∧
            (t.drone d).buf = (s.drone d).buf ++ [{ stream := 4, kind := .delete r.obj }])) ∧
    (r.bad 2 = false → let ds := dronesOf (r.f 1 1 % 4)
      (∀ d ∈ ds, s.createShare r d = 0) → ∃ t : State, exec (.flashCreate b req) s = .next t ∧ sameMem s t ∧
        t.flashDone = s.flashDone ++ [(r.tag, 0, 0)] ∧
        ∀ d ∈ ds, t.fobj d r.obj = some { size := r.off, drones := r.f 1 1 % 4, stream := r.f 3 1, part := r.part })

/-- A program that succeeds takes the next page of its stream out of the buffer, and one that fails marks its block bad and
keeps the data; an erase frees its block with one more erase, or marks it bad; a relocation commits its oldest record; a read
that corrects much schedules its block, and an uncorrectable one marks the unit and raises; a map page is a hit or a counted
miss that puts it in front; collection and wear levelling empty the block they choose; a target that does not answer goes
offline, with a record; calibration holds its target until it is done (R682, R691 to R704). -/
def Obligations.DroneHousekeeping : Prop :=
  ∀ (die : Nat) (s : State), die = 6 ∨ die = 7 →
    let x := s.drone die
    let reg : Nat → Nat := fun off => Blk.drone.at die die off
    (∀ st : Nat, st < 5 → exec (.nandProgramDone die st true) s = .next ((s.programPage die st).droneShow die) ∧
      (∀ b : Nat, x.nextBlock st = some b → (splitBuf st 1 x.buf).1 ≠ [] →
        exec (.nandProgramDone die st false) s = .next (((s.cntAdd .drone die die 0x070 1).grownBad die b).droneShow die))) ∧
    exec (.relocateCommit die) s = .next (s.relocateCommit die) ∧
    (∀ b : Nat, (x.block b).st = 4 →
      (∃ t : State, exec (.nandEraseDone die b true) s = .next t ∧ (t.drone die).block b = { ec := (x.block b).ec + 1 } ∧ sameMem s t ∧
        ∀ c : Nat, c ≠ b → (t.drone die).block c = x.block c) ∧
      exec (.nandEraseDone die b false) s = .next (((s.cntAdd .drone die die 0x078 1).grownBad die b).droneShow die)) ∧
    (∀ (id u steps bits psa : Nat) (o : FObj) (f : FSlot), s.fobj die id = some o → SMap.get (fun _ => none) o.units u = some f →
      f.psa = some psa →
      (steps = 0 → bits < s.fld (reg 0x108) 15 0 →
        exec (.nandReadDone die id u steps bits false) s = .next (s.cntAdd .drone die die 0x058 0)) ∧
      (∃ t : State, exec (.nandReadDone die id u steps bits true) s = .next t ∧ t.rbit (reg 0x010) 0 = true ∧
        (∃ p : FObj, t.fobj die id = some p ∧ ∃ g : FSlot, SMap.get (fun _ => none) p.units u = some g ∧ g.bad = true) ∧ sameMem s t)) ∧
    (∀ (obj : Option Nat) (level idx : Nat),
      let same : Frame → Bool := fun f => decide (f.obj = obj ∧ f.level = level ∧ f.idx = idx)
      (∀ f : Frame, x.frames.find? same = some f → exec (.mapPageRead die obj level idx) s =
        .next (s.setDrone die { x with frames := f :: x.frames.filter (fun g => !same g) })) ∧
      (x.frames.find? same = none → ∃ (t : State) (f : Frame) (fs : List Frame), exec (.mapPageRead die obj level idx) s = .next t ∧
        (t.drone die).frames = f :: fs ∧ same f = true ∧ f.dirty = false ∧ fs.length ≤ x.frames.length ∧ sameMem s t ∧
        t.count (reg 0x068) = min (s.count (reg 0x068) + 1) (2 ^ 48 - 1))) ∧
    (s.hkIdle die = false → (∀ lun : Nat, exec (.gcStart die lun) s = .next s) ∧ exec (.wearLevelStart die) s = .next s) ∧
    (∀ lun b : Nat, s.hkIdle die = true → x.goodLun lun = true → x.freeOn lun < s.fld (reg 0x100) 15 0 →
      leastBlock ((x.blocks.filter (fun e => decide (e.1 / 65536 = lun) && decide (e.2.st = 2) && decide (e.2.stream ≠ 4))).map
        (fun e => (e.1, ((x.validIn e.1).length, e.2.ec, psaOf die e.1 0 0 0)))) = some b →
      exec (.gcStart die lun) s = .next (s.emptyBlock die b 1)) ∧
    (∀ b : Nat, s.hkIdle die = true → s.fld (reg 0x104) 15 0 < x.ecRange.1 - x.ecRange.2 →
      leastBlock ((x.blocks.filter (fun e => decide (e.2.st ≠ 3) && decide (x.validIn e.1 ≠ []))).map
        (fun e => (e.1, (e.2.ec, psaOf die e.1 0 0 0, 0)))) = some b →
      exec (.wearLevelStart die) s = .next ((s.setDrone die { x with levelling := true }).emptyBlock die b 2)) ∧
    (∀ ch t : Nat, ch < 24 → t < 8 →
      let y := x.target (8 * ch + t)
      (y.present = true → y.offline = false → ∃ u : State, exec (.targetTimeout die ch t) s = .next u ∧
        ((u.drone die).target (8 * ch + t)).offline = true ∧ u.rbit (reg 0x010) 1 = true ∧ sameMem s u) ∧
      (∀ warm : Bool, y.present = true → warm = true ∨ y.lastCal + s.fld (reg 0x110) 31 16 ≤ s.breath.number →
        exec (.nandCalibration die ch t warm) s = .next (s.setDrone die (x.setTarget (8 * ch + t) (fun z => { z with training := true, warm := warm })))) ∧
      (y.training = true → exec (.calibrationDone die ch t) s = .next (s.setDrone die (x.setTarget (8 * ch + t)
        (fun z => { z with training := false, warm := false, lastCal := s.breath.number })))) ∧
      (y.training = false → exec (.calibrationDone die ch t) s = .next s))

/-- A checkpoint is written on request or after its journal, and clears both; CKPT_NOW asks for one; a format of a drone that
may be formatted leaves it MOUNTED or READ_ONLY with its own anchor and no object, and any other is refused; training takes the
drone from reset to TRAINING; recovery ends in UNFORMATTED, FOREIGN or MOUNTED by the anchor; a fall of power starts the flush
of both drones, and the end of a flush halts its drone with an empty buffer (R681, R683, R706 to R714). -/
def Obligations.DroneStates : Prop :=
  (∀ (who : Requester) (die : Nat) (v : Word) (s : State), die = 6 ∨ die = 7 →
    let x := s.drone die
    let st := s.droneState die
    let reg : Nat → Nat := fun off => Blk.drone.at die die off
    (∀ slots : Nat, st = 3 ∨ st = 4 → x.ckptWanted = true ∨ s.fld (reg 0x110) 15 0 * 256 ≤ x.jrnl →
      ∃ t : State, exec (.checkpoint die slots) s = .next t ∧ (t.drone die).jrnl = 0 ∧ (t.drone die).ckptWanted = false ∧
        (t.drone die).seq = x.seq + slots ∧ (t.drone die).objs = x.objs ∧ sameMem s t) ∧
    (∀ slots : Nat, st ≠ 3 → st ≠ 4 → exec (.checkpoint die slots) s = .next s) ∧
    (s.writable who (reg 0x008) = true →
      (v.getLsbD 2 = true → ∃ t : State, exec (.ckptNow who die v) s = .next t ∧ (t.drone die).ckptWanted = true ∧ sameMem s t) ∧
      (∀ cap : Nat, v.getLsbD 1 = true →
        (s.rbit (reg 0x008) 0 = true ∨ (st ≠ 8 ∧ st ≠ 7 ∧ st ≠ 3 ∧ st ≠ 4) →
          exec (.droneFormat who die v cap) s = .next (s.refuseWrite who .drone die die 0x008 v)) ∧
        (s.rbit (reg 0x008) 0 = false → st = 8 ∨ st = 7 ∨ st = 3 ∨ st = 4 → ∃ t : State, exec (.droneFormat who die v cap) s = .next t ∧
          (t.drone die).anchor = .own ∧ (t.drone die).objs = [] ∧ (t.drone die).buf = [] ∧ (t.droneState die = 3 ∨ t.droneState die = 4)))) ∧
    (∀ ts : List TargetInfo, st = 0 → ∃ t : State, exec (.droneTraining die ts) s = .next t ∧ t.droneState die = 1) ∧
    (∀ ts : List TargetInfo, st ≠ 0 → exec (.droneTraining die ts) s = .next s) ∧
    (∀ cap : Nat, st = 1 → ∃ t : State, exec (.droneRecovery die cap) s = .next t ∧
      (x.anchor = .none → t.droneState die = 8 ∧ t.rbit (reg 0x010) 6 = true) ∧
      (x.anchor = .foreign → t.droneState die = 7 ∧ t.rbit (reg 0x010) 6 = true) ∧
      (x.anchor = .own → (t.droneState die = 3 ∨ t.droneState die = 4) ∧ t.rbit (reg 0x010) 5 = true ∧ (t.drone die).buf = [])) ∧
    (st = 5 → s.pwr.failReset = false → ∃ t : State, exec (.flushDone die) s = .next t ∧ t.droneState die = 6 ∧ (t.drone die).buf = [] ∧
      t.rbit (reg 0x010) 4 = true) ∧
    (st ≠ 5 → exec (.flushDone die) s = .next s)) ∧
  (∀ s : State, (s.pwr.fail = true → exec .powerFail s = .next s) ∧
    (s.pwr.fail = false → ∃ t : State, exec .powerFail s = .next t ∧ t.pwr.fail = true ∧ t.rbit (Blk.pwr.at 4 4 0x108) 10 = true ∧
      (∀ d : Nat, d = 6 ∨ d = 7 → t.droneState d = (if s.droneState d = 6 then 6 else 5) ∧ (t.drone d).victim = none) ∧ sameMem s t))

/-- A fault of a reed, of a consort or of a die is handled by its kind: counted errors below `ue_fence` are posted, and at it
the consort or the die is taken; parity of a protected structure and a loss of logic on a bellows or a drone are FATAL.
CONS_FENCE fences the reed it names, or is refused; a watchdog fences a reed that does not stop; a spare that fails its
self-test is bad, with a record (R721, R730 to R736, R740, R741, R852). -/
def Obligations.FaultDetection : Prop :=
  (∀ (x : ReedRef) (detail : Nat) (s : State), x.die < 4 → x.k < 8 → x.r < 17 →
    let bad : Nat → WaitFault := fun kind => { die := x.die, k := x.k, reed := none, kind := kind, detail := detail }
    let s1 := if (s.reed x).run = .running then s.reedExc x 0x07 0 0 else s
    let c := s1.ueCount (Blk.reed.at x.die (17 * x.k + x.r) 0)
    exec (.reedFence x 0x0A detail) s = .next (s.consortFault (bad 0x0A)) ∧
    exec (.reedFence x 0x0B detail) s = .next (s.consortFault (bad 0x0B)) ∧
    (c.2.ueFence ≤ c.1 → exec (.reedFence x 3 detail) s = .next (c.2.consortFault { bad 3 with reed := some x.r })) ∧
    (c.1 < c.2.ueFence → exec (.reedFence x 3 detail) s = .next (c.2.faultPost
      { breath := 0, die := x.die, kind := 3, consort := x.k, unit := x.r, action := 1, detail := detail })) ∧
    ((s.reed x).run = .running → s.steps.any (fun e => decide (e.uid = (s.reed x).step) && e.stopping) = true →
      exec (.reedWatchdog x) s = .next (s.consortFault { die := x.die, k := x.k, reed := some x.r, kind := 9 })) ∧
    ((s.reed x).run ≠ .running → exec (.reedWatchdog x) s = .next s)) ∧
  (∀ (who : Requester) (die k : Nat) (v : Word) (s : State), die < 4 → k < 8 →
    let cfg := Blk.cons.at die k 0x108
    let s0 := s.writeAt who .cons die k 0x108 v
    (s.writable who cfg = true →
      (v.getLsbD 31 = false → exec (.consFence who die k v) s = .next s0) ∧
      (v.getLsbD 31 = true → 17 ≤ fieldW v 4 0 → exec (.consFence who die k v) s = .next (s0.refuseAt who .cons die k 0x108)) ∧
      (v.getLsbD 31 = true → fieldW v 4 0 < 17 → exec (.consFence who die k v) s =
        .next (s0.consortFault { die := die, k := k, reed := some (fieldW v 4 0), kind := 0x11 }))) ∧
    (s.breath.number % 2 ^ 20 = 0 → s.fld (Blk.cons.at die k 0x100) 25 24 = 0 →
      (∃ t : State, exec (.spareSelfTest die k true) s = .next t ∧ SMap.get (fun _ => true) t.spareOk (8 * die + k) = true ∧
        { t with spareOk := s.spareOk } = s) ∧
      (∃ t : State, exec (.spareSelfTest die k false) s = .next t ∧ SMap.get (fun _ => true) t.spareOk (8 * die + k) = false ∧
        t.fld (Blk.cons.at die k 0x100) 25 24 = 2 ∧ sameMem s t)) ∧
    (s.breath.number % 2 ^ 20 ≠ 0 → ∀ ok : Bool, exec (.spareSelfTest die k ok) s = .next s)) ∧
  (∀ (die unit detail : Nat) (s : State), die < 8 →
    let r : Nat → FaultRec := fun kind => { breath := 0, die := die, kind := kind, action := 1, detail := detail }
    let page := if die < 4 then (unitBlk unit).at die die 0 else Blk.mgmt.at die die unit
    let c := s.ueCount page
    exec (.dieQuiesce die 4 unit detail) s = .next (if c.2.ueFence ≤ c.1 then c.2.dieFault (r 4) else c.2.faultPost (r 4)) ∧
    (die < 4 → unit < 3 →
      exec (.dieQuiesce die 6 unit detail) s = .next ((s.setFld (Blk.hbm.at die unit 0x100) 29 29 1).dieFault (r 6))) ∧
    exec (.protectionParityError die) s = .next (s.goFatal { breath := 0, die := die, kind := 0x0E }) ∧
    (4 ≤ die → exec (.bellowsLogicFault die) s = .next ((s.free 8).2.goFatal { breath := 0, die := die, kind := (s.free 8).1 })) ∧
    (die < 4 → exec (.bellowsLogicFault die) s = .next s)) ∧
  (∀ (die c : Nat) (s : State), die = 4 ∨ die = 5 → c < 8 → s.coresOut.contains (die, c) = false →
    ∃ t : State, exec (.firmwareRestart die (some c)) s = .next t ∧ t.coresOut = s.coresOut ++ [(die, c)] ∧
      (∀ n : Nat, n ∈ t.sec.secure → n ≠ 8 * die + c) ∧ sameMem s t)

/-- A row with an uncorrectable word, or with enough corrected ones, is repaired from a spare of its sub-bank and recorded;
without a spare a bellows bank is withdrawn and a reed fenced; a row of DRAM takes its stack's spare, or has its granules
withheld. A replayed flit is counted at both ends, up to eight in a row; after eight the link retrains, and a third retraining
within the window takes it down. A read of the fault queue returns the oldest record's last word and removes it (R724 to R729,
R742, R745, R762). -/
def Obligations.RepairsAndLinks : Prop :=
  (∀ (m : MemRef) (row : Nat) (s : State), row < m.banks * m.rows →
    let kind := if s.rowUe m row = [] then 2 else 1
    let due := s.rowUe m row ≠ [] ∨ s.ceRow ≤ s.rowTracked m row
    let spare := SMap.get (fun _ => 0) s.spareRows (m.subBank row) < 4
    (¬due → exec (.rowRepair m row) s = .next s) ∧
    (∀ d : Nat, m = .bellows d → due →
      (spare → exec (.rowRepair m row) s = .next ((s.rowSpare m row).faultPost { breath := 0, die := d, kind := kind, action := 2 })) ∧
      (¬spare → exec (.rowRepair m row) s =
        .next ((s.bankWithdraw d (row / m.rows)).faultPost { breath := 0, die := d, kind := kind, action := 11 }))) ∧
    (∀ x : ReedRef, m = .reed x → s.rowUe m row = [] → due →
      let u := (s.rowSpare m row).faultPost { breath := 0, die := x.die, kind := 2, consort := x.k, unit := x.r, action := 2 }
      (spare → 0 < u.ueFence → exec (.rowRepair m row) s = .next u) ∧
      (¬spare → exec (.rowRepair m row) s = .next (s.consortFault { die := x.die, k := x.k, reed := some x.r, kind := 2 })))) ∧
  (∀ (die stack bankNo : Nat) (gs : List Nat) (ue : Bool) (s : State), die < 4 → stack < 3 →
    let key := 2 ^ 16 * (3 * die + stack) + bankNo
    (∃ t : State, exec (.dramRowRepair die stack bankNo gs true ue []) s = .next t ∧ t.mem = s.mem ∧
      SMap.get (fun _ => 0) t.dramSpare key = SMap.get (fun _ => 0) s.dramSpare key + 2 ∧
      t.rbit (Blk.hbm.at die stack 0x010) 1 = true ∧
      t.count (Blk.hbm.at die stack 0x040) = min (s.count (Blk.hbm.at die stack 0x040) + 1) (2 ^ 48 - 1)) ∧
    (∃ t : State, exec (.dramRowRepair die stack bankNo gs false ue []) s = .next t ∧ t.mem = s.mem ∧ t.flip = s.flip ∧
      ∀ g ∈ gs, die * chanterBytes + g / 4096 * 4096 ∈ t.withheld)) ∧
  (∀ (link : Nat) (far : Bool) (s : State), link < 11 → s.linksDown.contains link = false →
    let p := s.replay link
    let a := (linkEnds link).1
    let b := (linkEnds link).2
    (p.1 < 8 → ∃ t : State, exec (.flitReplay link far) s = .next t ∧ t.replay link = (p.1 + 1, min (p.2.1 + 1) 65535, p.2.2) ∧
      t.rbit (Blk.wway.at (if far then b else a) (if far then b else a) 0x010) 0 = true ∧ sameMem s t ∧ t.linksDown = s.linksDown) ∧
    (8 ≤ p.1 → exec (.flitReplay link far) s = .next s) ∧ (p.1 < 8 → exec (.linkRetrain link) s = .next s) ∧
    (8 ≤ p.1 → (s.retrainsOf link).length < 2 → ∃ t : State, exec (.linkRetrain link) s = .next t ∧ t.replay link = (0, p.2.1, p.2.2) ∧
      t.linksDown = s.linksDown ∧ t.rbit (Blk.wway.at a a 0x010) 1 = true ∧ t.rbit (Blk.wway.at b b 0x010) 1 = true ∧ sameMem s t)) ∧
  (∀ s : State, (s.faults = [] → exec .topFaultPop3 s = .next { s with readData := 0 }) ∧
    (∀ (r : FaultRec) (rs : List FaultRec), s.faults = r :: rs →
      exec .topFaultPop3 s = .next { s with faults := rs, readData := r.action % 256 + 256 * (r.detail % 256) + 65536 * (r.merged % 65536) }))

/-- A measurement is due at the edge of every 2^20th breath while it is enabled, or when it is written for; it counts itself and
notes its breath. An alarm is counted, raised and recorded, and lowers its consort. An acknowledgement is kept until the next
edge, and without it no clock of the chanter rises. CAP_RAISE takes the ceiling up by one code, to at most 12. A junction at 100
°C throttles its die and at 105 °C is FATAL; a loop that loses lock takes its consort, its die or the device (R749, R752, R799,
R808, R810, R814, R901). -/
def Obligations.ClocksAndThermals : Prop :=
  (∀ (who : Requester) (die m : Nat) (v : Word) (ds : List Nat) (s : State), die < 8 → m < 64 →
    let due := s.breath.number ≠ 0 ∧ s.breath.number % 2 ^ 20 = 0 ∧ s.rbit (Blk.emb.at die die 0x008) 0 = true
    (due → exec (.embMeasure die ds) s = .next (s.measure die ds)) ∧ (¬due → exec (.embMeasure die ds) s = .next s) ∧
    (s.writable who (Blk.emb.at die die 0x008) = true →
      exec (.measureNow who die v ds) s = .next (if v.getLsbD 1 = true then (s.writeAt who .emb die die 0x008 v).measure die ds
        else s.writeAt who .emb die die 0x008 v)) ∧
    (let s1 := (s.cntAdd .emb die die 0x038 1).raise (Blk.emb.at die die 0) 1
     let key := 8 * die + m / 8
     (die < 4 → s.pwr.lower.contains key = false → exec (.monitorAlarm die m ds) s =
       .next ((({ s1 with pwr := { s1.pwr with lower := s1.pwr.lower ++ [key] } } : State).faultPost
         { breath := 0, die := die, kind := 0x0C, consort := m / 8, action := 7, detail := m }).measure die ds)) ∧
     (4 ≤ die → exec (.monitorAlarm die m ds) s =
       .next ((s1.faultPost { breath := 0, die := die, kind := 0x0C, consort := 0xFF, action := 0, detail := m }).measure die ds)))) ∧
  (∀ (c : Nat) (s : State), c < 4 →
    (s.pwr.acked.contains c = false →
      exec (.avsAck c) s = .next { s with pwr := { s.pwr with acked := s.pwr.acked ++ [c] } } ∧
      ∃ t : State, exec (.avsTimeout c) s = .next t ∧ { t with pwr := s.pwr } = s ∧ { t.pwr with raise := s.pwr.raise } = s.pwr ∧
        ∀ e ∈ t.pwr.raise, e.1 / 8 = c → ∀ p : Nat × Nat, e.2 = some p → p.1 ≤ (s.oppOf c (e.1 % 8)).1) ∧
    (s.pwr.acked.contains c = true → exec (.avsAck c) s = .next s ∧ exec (.avsTimeout c) s = .next s)) ∧
  (∀ s : State, (s.pwr.below < 8 ∨ s.pwr.hubHot = true → exec .capRaise s = .next s) ∧
    (8 ≤ s.pwr.below → s.pwr.hubHot = false → ∃ t : State, exec .capRaise s = .next t ∧ t.cCap = min (s.cCap + 1) 12 ∧
      sameRegsBut [Blk.pwr.at 4 4 0x108] s t ∧ t.pwr = { s.pwr with below := 7 })) ∧
  (∀ (die tj : Nat) (s : State), die < 8 →
    (∃ t : State, exec (.thermalThrottle die tj) s = .next t ∧ t.rbit (Blk.pwr.at die die 0x108) 8 = true ∧
      t.fld (Blk.pwr.at die die 0x108) 31 24 = min tj 255 ∧ t.rbit (Blk.pwr.at die die 0x010) 1 = true ∧
      t.count (Blk.pwr.at die die 0x038) = min (s.count (Blk.pwr.at die die 0x038) + 1) (2 ^ 48 - 1) ∧ sameMem s t ∧
      (die < 4 → die ∈ t.pwr.hot) ∧ (4 ≤ die → t.pwr.hubHot = true)) ∧
    exec (.thermalTrip die) s = .next (s.goFatal { breath := 0, die := die, kind := 0x13 }) ∧
    (∀ n : Nat, n < 8 → die < 4 →
      exec (.pllLockLoss die n) s = .next ((s.loopLost die n).consortFault { die := die, k := n, reed := none, kind := 0x0B })) ∧
    (∀ n : Nat, 16 ≤ n → n < 20 → die < 4 →
      exec (.pllLockLoss die n) s = .next ((s.loopLost die n).dieFault { breath := 0, die := die, kind := 6, action := 5 })) ∧
    (∀ n : Nat, 16 ≤ n → n < 20 → 4 ≤ die → let s1 := s.loopLost die n
      exec (.pllLockLoss die n) s = .next ((s1.free 8).2.goFatal { breath := 0, die := die, kind := (s1.free 8).1 })))

/-- The first write of BOOT_DONE locks the device; after it a life-cycle request, an SVN raise and a revocation are refused, and
before it they take effect where R771 and R776 allow them, and an `ilv_gib` of 0 becomes 1 with it (the model's reading of R229, log
entry 203): an SVN raise up to the running stage 2's, a revocation of another
key. A key blob is loaded with the status of R786. A record's last word starts its verification, which ends by raising: accepted
it opens the debug level, and refused it counts an attempt. A tamper source that is enabled erases the keys; one that was
asserted and is held no longer only ends (the model's reading of R783, log entry 166). A secure call at the entry enters secure mode
(R771 to R786). -/
def Obligations.SecurityCommands : Prop :=
  (∀ (who : Requester) (v : Word) (s : State),
    let reg : Nat → Nat := fun off => Blk.sec.at 4 4 off
    let s1 : Nat → State := fun off => s.writeAt who .sec 4 4 off v
    let refused : Nat → Res := fun off => .next ((s1 off).refuseAt who .sec 4 4 off)
    (s.writable who (reg 0x108) = true →
      (v.getLsbD 0 = true → s.bootDone = false → ∃ t : State, exec (.secBootDone who 4 v) s = .next t ∧ t.bootDone = true ∧
        { t with regs := s.regs } = s ∧ (s.ilvGib = 0 → t.ilvGib = 1) ∧ (s.ilvGib ≠ 0 → t.ilvGib = s.ilvGib)) ∧
      (v.getLsbD 0 = true → s.bootDone = true → exec (.secBootDone who 4 v) s = refused 0x108) ∧
      (v.getLsbD 0 = false → exec (.secBootDone who 4 v) s = .next (s1 0x108))) ∧
    (s.writable who (reg 0x104) = true →
      (s.bootDone = true ∨ s.lcAllowed (fieldW v 2 0) = false → exec (.secLcReq who 4 v) s = refused 0x104) ∧
      (s.bootDone = false → s.lcAllowed (fieldW v 2 0) = true →
        exec (.secLcReq who 4 v) s = .next ((s1 0x104).lcGo (fieldW v 2 0)))) ∧
    (s.writable who (reg 0x118) = true →
      let n := fieldW v 6 0
      let ok := s.bootDone = false ∧ s.sec.minSvn ≤ n ∧ n ≤ s.runningSvn ∧ n ≤ 64 ∧ s.lifeCycle ≠ 4
      (¬ok → exec (.secSvnRaise who 4 v) s = refused 0x118) ∧
      (ok → ∃ t : State, exec (.secSvnRaise who 4 v) s = .next t ∧ t.sec = { s.sec with minSvn := n } ∧ sameMem s t)) ∧
    (s.writable who (reg 0x11C) = true →
      let key := s.fld (reg 0x10C) 7 0
      let ok := s.bootDone = false ∧ s.lifeCycle ≠ 4 ∧ ¬(key < 4 ∧ bit (fieldW v 3 0) key = true)
      (¬ok → exec (.secRevoke who 4 v) s = refused 0x11C) ∧
      (ok → ∃ t : State, exec (.secRevoke who 4 v) s = .next t ∧ t.sec = { s.sec with revoke := s.sec.revoke ||| fieldW v 3 0 } ∧
        sameMem s t)) ∧
    (s.writable who (reg 0x128) = true →
      let u := (s1 0x128).noteDev .secUnit none false (bellowsSram 4 (fieldW v 26 6 * 64)) 192
      let b := u.blobLoad (u.blobAt (fieldW v 26 6 * 64))
      ∃ t : State, exec (.secKeyLoad who 4 v) s = .next t ∧ t.fld (reg 0x12C) 30 28 = b.1 % 8 ∧ sameMem s t ∧
        (b.2 = none → t.sec = s.sec) ∧ (∀ (n : Nat) (x : KeySlot), b.2 = some (n, x) → t.keySlot n = some x)) ∧
    (s.writable who (reg 0x4FC) = true → s.sec.verifying = false → ∃ t : State, exec (.secDbgResp63 who 4 v) s = .next t ∧
      t.reg (reg 0x4FC) = v ∧ t.rbit (reg 0x110) 31 = true ∧ t.sec.verifying = true ∧ t.sec.attempt = s.sec.fresh ∧ t.sec.fresh = false ∧
      sameMem s t)) ∧
  (∀ s : State, ∃ t : State, exec (.secDbgChal0 4) s = .next t ∧ t.sec.fresh = true ∧ t.readData = (t.reg (Blk.sec.at 4 4 0x140)).toNat ∧
    t.freeCtr = s.freeCtr + 12 ∧ sameMem s t) ∧
  (∀ (ok : Bool) (q : Nat) (s : State),
    (s.sec.verifying = false → exec (.unlockVerifyDone ok q) s = .next s) ∧
    (s.sec.verifying = true → s.sec.spoiled = false → s.recordOk ok q = false → ok = false →
      ∃ t : State, exec (.unlockVerifyDone ok q) s = .next t ∧ t.sec = { s.sec with verifying := false, attempt := false } ∧
        t.fld (Blk.sec.at 4 4 0x110) 27 24 = min (s.fld (Blk.sec.at 4 4 0x110) 27 24 + 1) 8 ∧ t.rbit (Blk.sec.at 4 4 0x110) 31 = false ∧
        t.rbit (Blk.sec.at 4 4 0x010) 3 = true ∧
        t.count (Blk.sec.at 4 4 0x048) = min (s.count (Blk.sec.at 4 4 0x048) + 1) (2 ^ 48 - 1)) ∧
    (s.sec.verifying = true → s.recordOk ok q = true → s.lifeCycle = 1 → s.recordByte 0 ≠ 3 →
      ∃ t : State, exec (.unlockVerifyDone ok q) s = .next t ∧ t.sec.opened = s.recordByte 0 ∧ t.rbit (Blk.sec.at 4 4 0x110) 30 = true)) ∧
  (∀ (src : Nat) (held : Bool) (s : State), src < 4 →
    (s.rbit (Blk.sec.at 4 4 0x124) src = false →
      exec (.tamperEvent src held) s = .next (s.setFld (Blk.sec.at 4 4 0x120) src src (if held then 1 else 0))) ∧
    (s.rbit (Blk.sec.at 4 4 0x120) src = true → held = false →
      exec (.tamperEvent src held) s = .next (s.setFld (Blk.sec.at 4 4 0x120) src src 0)) ∧
    (s.rbit (Blk.sec.at 4 4 0x124) src = true → s.rbit (Blk.sec.at 4 4 0x124) 4 = false →
      s.rbit (Blk.sec.at 4 4 0x120) src = false ∨ held = true →
      ∃ t : State, exec (.tamperEvent src held) s = .next t ∧ t.sec.slots = [] ∧ t.sec.noKey = true ∧
        t.rbit (Blk.sec.at 4 4 0x120) (16 + src) = true ∧ t.rbit (Blk.sec.at 4 4 0x010) 1 = true)) ∧
  (∀ (die core entry : Nat) (s : State), die = 4 ∨ die = 5 → core < 8 → s.sec.secure.contains (8 * die + core) = false →
    let ok := s.coresOut.contains (die, core) = false ∧ s.sec.monOff = false ∧ s.bootDone = true ∧ s.hasSecure die = true ∧
      entry = s.fld (Blk.sec.at 4 4 0x134) 26 0
    (ok → exec (.secureMonitorCall die core entry) s = .next { s with sec := { s.sec with secure := s.sec.secure ++ [8 * die + core] } }) ∧
    (¬ok → exec (.secureMonitorCall die core entry) s = .next s))

/-- A request for REST or OFF is refused with the reason of R829, or starts the entry: `ready` and `run` clear; the entry ends
with both drones halted and the core rails released; a wake starts boot, at once or when the entry ends, and is abandoned where
the rails do not come up. A power failure that ends resets the device once both drones are halted (R801 to R806, R829, R902). -/
def Obligations.PowerStates : Prop :=
  (∀ (who : Requester) (v : Word) (s : State), s.writable who (Blk.pwr.at 4 4 0x10C) = true →
    s.pwr.state ≠ .enteringRest → s.pwr.state ≠ .enteringOff →
    let n := fieldW v 1 0
    let s1 := s.writeAt who .pwr 4 4 0x10C v
    (n = 0 ∨ n = 3 → exec (.pwrStateReq who 4 v) s = .next (s1.refuseAt who .pwr 4 4 0x10C)) ∧
    (n = 1 ∨ n = 2 → s.restRefused ≠ 0 → ∃ t : State, exec (.pwrStateReq who 4 v) s = .next t ∧
      t.fld (Blk.pwr.at 4 4 0x110) 10 8 = s.restRefused ∧ t.rbit (Blk.pwr.at 4 4 0x010) 3 = true ∧ { t with regs := s.regs } = s) ∧
    (n = 1 ∨ n = 2 → s.restRefused = 0 → ∃ t : State, exec (.pwrStateReq who 4 v) s = .next t ∧
      t.pwr.state = (if n = 1 then .enteringRest else .enteringOff) ∧ t.mbxReady 4 = false ∧ t.mbxReady 5 = false ∧
      t.rbit (Blk.brth.at 4 4 0x008) 0 = false ∧ t.rbit (Blk.pwr.at 4 4 0x110) 31 = true ∧ sameMem s t)) ∧
  (∀ (a b : Nat) (p : PowerState) (s : State), (s.pwr.state, p) = (.enteringRest, .rest) ∨ (s.pwr.state, p) = (.enteringOff, .off) →
    ∃ t : State, exec (.powerStateEntered a b) s = .next t ∧ t.droneState 6 = 6 ∧ t.droneState 7 = 6 ∧ t.fns = [] ∧
      (s.pwr.wakePend = false → t.pwr.state = p ∧ t.pwr.en = false ∧ t.pwr.good = false) ∧
      (s.pwr.wakePend = true → t.pwr.state = .booting ∧ t.pwr.en = true ∧ t.pwr.good = false ∧ t.pwr.wakeFrom = p)) ∧
  (∀ s : State,
    (s.pwr.state = .on → exec (.powerStateEntered 0 0) s = .next s ∧ exec .wakeN s = .next s) ∧
    (s.pwr.state = .rest ∨ s.pwr.state = .off → exec .wakeN s = .next { s with pwr := { s.pwr with
      state := .booting, wakeFrom := s.pwr.state, en := true, good := false, wakePend := false } }) ∧
    (s.pwr.state = .enteringRest ∨ s.pwr.state = .enteringOff → exec .wakeN s = .next { s with pwr := { s.pwr with wakePend := true } }) ∧
    (s.waking = true → exec .pgCoreTimeout s = .next { s with pwr := { s.pwr with state := s.pwr.wakeFrom, en := false } }) ∧
    (s.waking = false → exec .pgCoreTimeout s = .next s) ∧
    (s.pwr.fail = false → exec .pwrFailRise s = .next s) ∧
    (s.pwr.fail = true → s.pwr.good = true → s.dronesHalted = false → ∃ t : State, exec .pwrFailRise s = .next t ∧
      t.pwr = { s.pwr with fail := false, failReset := true } ∧ t.rbit (Blk.pwr.at 4 4 0x108) 10 = false ∧ { t with regs := s.regs, pwr := s.pwr } = s) ∧
    (s.pwr.state ≠ .on ∨ s.pwr.good = false → exec .pgCoreLoss s = .next s) ∧
    (s.pwr.state = .on → s.pwr.good = true → s.pwr.fail = false → ∃ t : State, exec .pgCoreLoss s = .next t ∧ t.pwr.good = false ∧
      t.pwr.fail = false ∧ ∀ d : Nat, d = 6 ∨ d = 7 → t.droneState d = (if s.droneState d = 6 then 6 else 5)))

/-- A power-on, RESET_N, a write of PWR_RESET with its key, and PG_CORE after a wake reset the device, each with its kind and
trigger; a write without the key is refused. Power-on reset leaves no step, no request, no plan and SRAM that reads 0, and,
where no recovery is open and no ageing is on record, no run bit, and its cause. A copy of the boot images that verifies is
booted; where neither does, boot halts with the code. Training and clearing bring a chanter online; a refresh is counted (R38,
R255, R769, R770, R815 to R826, R830). -/
def Obligations.ResetsAndBoot : Prop :=
  (∀ (straps : Nat) (s : State), ∃ t : State, exec (.powerOn straps) s = .next t ∧ t = (s.doReset .powerOn 0).strapped straps ∧
    t.pwr.straps = straps % 16 ∧ t.steps = [] ∧ t.reqs = [] ∧ t.breath.plans = [] ∧ t.pwr.state = .booting ∧
    (∀ a : Nat, sramBase ≤ a → t.mem.byte a = 0) ∧
    (s.recov = none → s.waitFaults = [] → s.healthAge = [] →
      t.reg (Blk.pwr.at 4 4 0x118) = 0 ∧ t.rbit (Blk.brth.at 4 4 0x008) 0 = false ∧ t.pending = s.pending)) ∧
  (∀ (who : Requester) (v : Word) (c : Instr) (s : State), c ∈ [Instr.pwrResetWarm who 4 v, .pwrResetDevice who 4 v] →
    s.writable who (Blk.pwr.at 4 4 0x114) = true →
    let s1 := s.writeAt who .pwr 4 4 0x114 v
    let key := fieldW v 31 16 = 0xA5C3
    (key → fieldW v 1 0 = 1 → exec c s = .next (s1.doReset .warm 1)) ∧ (key → fieldW v 1 0 = 2 → exec c s = .next (s1.doReset .device 1)) ∧
    (¬key ∨ fieldW v 1 0 = 0 ∨ fieldW v 1 0 = 3 → exec c s = .next (s1.refuseAt who .pwr 4 4 0x114))) ∧
  (∀ (straps : Nat) (s : State),
    (s.pwr.good = true → exec .resetN s = .next (s.doReset .device 0)) ∧ (s.pwr.good = false → exec .resetN s = .next s) ∧
    (s.waking = true → exec (.pgCoreGood straps) s =
      .next ((s.doReset (if s.pwr.wakeFrom = .rest then .wakeRest else .wakeOff) 4).strapped straps)) ∧
    (s.waking = false → s.pwr.state ≠ .on → exec (.pgCoreGood straps) s = .next s)) ∧
  (∀ (a1 a2 b1 b2 : BootImage) (s : State),
    let may := s.pwr.state = .booting ∧ s.pwr.en = true ∧ s.pwr.good = true ∧ s.pwr.booted = false ∧ s.pwr.halted = false
    (¬may → exec (.stage2Load a1 a2 b1 b2) s = .next s) ∧
    (may → s.lifeCycle = 4 → ∃ t : State, exec (.stage2Load a1 a2 b1 b2) s = .next t ∧ t.pwr.halted = true ∧
      t.reg (Blk.sec.at 4 4 0x10C) = BitVec.ofNat 32 (8 * 2 ^ 16)) ∧
    (may → s.lifeCycle ≠ 4 → ∀ s1 : State, s.verifyCopy a1 a2 = (0, s1) →
      exec (.stage2Load a1 a2 b1 b2) s = .next (s1.bootCopy 0 0 a2) ∧ (s1.bootCopy 0 0 a2).pwr.booted = true) ∧
    (∀ (ca cb : Nat) (s1 s2 : State), may → s.lifeCycle ≠ 4 → s.verifyCopy a1 a2 = (ca, s1) → ca ≠ 0 → s1.verifyCopy b1 b2 = (cb, s2) →
      exec (.stage2Load a1 a2 b1 b2) s = .next (if cb = 0 then s2.bootCopy 1 ca b2 else s2.bootHalt cb))) ∧
  (∀ (c stack : Nat) (s : State), c < 4 →
    let ready := s.rbit (Blk.top.at 4 4 0x204) (8 + c)
    (s.pwr.state = .booting → s.pwr.good = true → ready = false → s.pwr.failed.contains c = false →
      ∃ t : State, exec (.stackTrainingDone c []) s = .next t ∧ t.rbit (Blk.top.at 4 4 0x204) (8 + c) = true ∧
        (s.pwr.clearing.contains c = false → t.rbit (Blk.top.at 4 4 0x204) c = true) ∧ { t with regs := s.regs } = s) ∧
    (ready = true → s.pwr.clearing.contains c = true → s.pwr.failed.contains c = false →
      ∃ t : State, exec (.dramClearDone c) s = .next t ∧ t.rbit (Blk.top.at 4 4 0x204) c = true ∧ c ∉ t.pwr.clearing ∧
        (∀ a : Nat, dramPhys c 0 ≤ a → a < dramPhys c 0 + chanterBytes → t.mem.byte a = 0) ∧
        sameMemOutside (dramPhys c 0) chanterBytes s t) ∧
    (stack < 3 → s.rbit (Blk.hbm.at c stack 0x100) 31 = true → exec (.dramRefresh c stack) s = .next (s.cntAdd .hbm c stack 0x048 1)) ∧
    (s.rbit (Blk.hbm.at c stack 0x100) 31 = false → exec (.dramRefresh c stack) s = .next s))

/-- The address of the device is assigned, replaced and reset by the common commands, which read its identity and set its
lengths and its event enables; a hot-join request is counted, and its wait doubles without an acknowledgement. A frame of the
right size is answered by its command with a status and its payload, any other with status 3, a bad CRC with 1 and an unknown
command with 2; a read takes the reply. The first pending event in the order of R844 is sent once it is acknowledged (R835 to
R844). -/
def Obligations.ManagementBus : Prop :=
  (∀ (a n : Nat) (int hj acked : Bool) (s : State),
    let m := s.mgmt
    let put : Mgmt → Res := fun k => .next { s with mgmt := k }
    let rd : Nat → Res := fun v => .next { s with readData := v }
    (m.addr = none → m.left = false → a < 128 → exec (.entdaa a) s = put { m with addr := some a, hjPend := false, hjWait := 0 }) ∧
    (m.addr ≠ none → exec (.entdaa a) s = .next s) ∧
    exec .rstdaa s = put { m with addr := none, ibiOn := false, hjOn := true } ∧
    exec (.enec int hj) s = put { m with ibiOn := m.ibiOn || int, hjOn := m.hjOn || hj } ∧
    exec (.disec int hj) s = put { m with ibiOn := m.ibiOn && !int, hjOn := m.hjOn && !hj } ∧
    (m.addr ≠ none →
      (a < 128 → exec (.setnewda a) s = put { m with addr := some a }) ∧
      exec .getpid s = rd (Config.vendorMipi % 2 ^ 15 * 2 ^ 33 + 2 ^ 32 + s.sec.serial % 2 ^ 32) ∧ exec .getbcr s = rd 0x0E ∧
      exec .getdcr s = rd 0 ∧ exec .getmwl s = rd m.mwl ∧ exec .getmrl s = rd (m.mrl + 2 ^ 16) ∧
      (64 ≤ n → n < 2 ^ 16 → exec (.setmwl n) s = put { m with mwl := n } ∧ exec (.setmrl n) s = put { m with mrl := n }) ∧
      (n < 64 → exec (.setmwl n) s = .next s ∧ exec (.setmrl n) s = .next s) ∧
      exec .getstatus s = .next { (s.free 16).2 with readData := (s.free 16).1 } ∧
      exec .getmxds s = .next { (s.free 16).2 with readData := (s.free 16).1 }) ∧
    (m.addr = none → m.left = false → m.hjOn = true → ∃ t : State, exec (.hotJoin acked) s = .next t ∧ t.mgmt.hjPend = !acked ∧
      t.mgmt.hjWait = (if acked then 0 else if m.hjWait = 0 then 1 else min (2 * m.hjWait) 64) ∧
      t.count (Blk.mgmt.at 4 4 0x048) = min (s.count (Blk.mgmt.at 4 4 0x048) + 1) (2 ^ 48 - 1))) ∧
  (∀ (tag n : Nat) (p : List Byte) (s : State), s.mgmt.addr ≠ none →
    let on := s.pwr.state = .on
    let answer : Nat → List Byte → State := fun st out => s.mgmtReply st tag out
    let rows : List (Nat × Instr) := [(0, .ident tag n p), (0, .telem tag n p), (0, .wake tag n p), (4, .bistStart tag n p),
      (1, .bistResult tag n p), (3, .reset tag n p), (0, .leave tag n p)]
    (∀ row ∈ rows, n ≠ row.1 → exec row.2 s = .next (answer 3 [])) ∧
    (n = 0 → p = [] →
      exec (.telem tag n p) s = .next (answer 0 s.telem) ∧ s.telem.length = 48 ∧
      (∃ out : List Byte, exec (.ident tag n p) s = .next (answer 0 out) ∧ out.length = 32 ∧ leOf (out.take 8) = s.sec.serial % 2 ^ 64) ∧
      exec (.wake tag n p) s = .next (if on then answer 4 [] else (answer 0 []).wake) ∧
      exec (.leave tag n p) s = .next ((answer 0 []).setMgmt { (answer 0 []).mgmt with leaving := true })) ∧
    (n = 3 → p.length = 3 →
      let kind := payFld p 2 1
      (¬on → exec (.reset tag n p) s = .next (answer 4 [])) ∧
      (on → payFld p 0 2 ≠ 0xA5C3 ∨ (kind ≠ 1 ∧ kind ≠ 2) → exec (.reset tag n p) s = .next (answer 6 [])) ∧
      (on → payFld p 0 2 = 0xA5C3 → kind = 1 → exec (.reset tag n p) s = .next ((answer 0 []).doReset .warm 2)) ∧
      (on → payFld p 0 2 = 0xA5C3 → kind = 2 → exec (.reset tag n p) s = .next ((answer 0 []).doReset .device 2))) ∧
    (n = 4 → p.length = 4 → payFld p 1 1 < 4 →
      let die := payFld p 0 1
      let scope := payFld p 1 1
      let k := payFld p 2 1
      let q := payFld p 3 1
      (¬on → exec (.bistStart tag n p) s = .next (answer 4 [])) ∧ (on → s.bistBusy die = true → exec (.bistStart tag n p) s = .next (answer 5 [])) ∧
      (on → s.bistBusy die = false → exec (.bistStart tag n p) s =
        .next (if s.bistRefused die scope k q = true then answer 6 [] else (answer 0 []).bistStart die scope k q 1))) ∧
    (n = 1 → p.length = 1 → payFld p 0 1 < 8 → ∃ out : List Byte, exec (.bistResult tag n p) s = .next (answer 0 out) ∧ out.length = 32)) ∧
  (∀ (frame : List Byte) (s : State), s.mgmt.addr ≠ none → 5 ≤ frame.length →
    let tag := payFld frame 1 1
    let good := crc8 frame.dropLast = leOf (frame.drop (frame.length - 1))
    (¬good → exec (.mgmtUnknownCommand frame) s = .next ((s.mgmtReply 1 tag []).cntAdd .mgmt 4 4 0x038 1)) ∧
    (good → payFld frame 0 1 = 0 ∨ 7 < payFld frame 0 1 → exec (.mgmtUnknownCommand frame) s = .next (s.mgmtReply 2 tag []))) ∧
  (∀ (r : List Byte) (s : State), s.mgmt.addr ≠ none → s.mgmt.reply = some r →
    ∃ t : State, exec .mgmtReplyRead s = .next t ∧ t.readData = leOf r ∧ t.mgmt.reply = none ∧
      (s.mgmt.leaving = true → t.mgmt.left = true ∧ t.mgmt.addr = none) ∧ (s.mgmt.leaving = false → t.mgmt.addr = s.mgmt.addr)) ∧
  (∀ (acked : Bool) (s : State),
    (s.mgmt.ibi = [] → exec (.ibi acked) s = .next s) ∧ (exec (.ibi false) s = .next s) ∧
    (∀ c : Nat, [2, 3, 4, 1, 5, 6].find? (fun k => s.mgmt.ibi.contains k) = some c → s.mgmt.addr ≠ none → s.mgmt.ibiOn = true →
      ∃ t : State, exec (.ibi true) s = .next t ∧ t.readData = c ∧ t.mgmt.ibi = s.mgmt.ibi.filter (fun k => decide (k ≠ c)) ∧
        t.count (Blk.mgmt.at 4 4 0x040) = min (s.count (Blk.mgmt.at 4 4 0x040) + 1) (2 ^ 48 - 1)))

/-- A write of BIST_CTRL starts a run, or is refused while the controller is busy or the start is not allowed; a run that ends
leaves its signature and its result, is counted and raised, and the memory it tested reads 0; an aborted one has result 4. A
JTAG instruction is loaded, with the captured value shifted out; EXTEST, CLAMP and HIGHZ have no effect unless the device is in
reset with its rails up; IDCODE reads the identity; TRST_N loads IDCODE and takes out every segment. With the instrument
instruction loaded the segments are inserted; an instrument acts where its segment is inserted and the debug level opens it, and
the fuse instrument only at level 2 in BLANK or DEVELOP (R778, R845 to R856). -/
def Obligations.SelfTestAndJtag : Prop :=
  (∀ (who : Requester) (die : Nat) (v : Word) (s : State), die < 8 → s.writable who (Blk.bist.at die die 0x008) = true →
    let s1 := s.writeAt who .bist die die 0x008 v
    let no := s.bistBusy die = true ∨ s.bistRefused die (fieldW v 17 16) (fieldW v 10 8) (fieldW v 4 0) = true
    (v.getLsbD 31 = false → exec (.bistGo who die v) s = .next s1) ∧
    (v.getLsbD 31 = true → no → exec (.bistGo who die v) s = .next (s1.refuseAt who .bist die die 0x008)) ∧
    (v.getLsbD 31 = true → ¬no → ∃ t : State, exec (.bistGo who die v) s = .next t ∧ t.bistBusy die = true ∧
      t.rbit (Blk.bist.at die die 0x00C) 31 = true ∧ t.fld (Blk.bist.at die die 0x00C) 1 0 = 0 ∧ sameMem s t)) ∧
  (∀ (die : Nat) (x : BistInfo) (b : BistRun) (s : State), die < 8 → SMap.get (fun _ => none) s.bist die = some b →
    (x.aborted = true → exec (.bistDone die x) s = .next (s.bistEnd die 4)) ∧
    (x.aborted = false → s.bootDone = true → ∃ t : State, exec (.bistDone die x) s = .next t ∧ t.bistBusy die = false ∧
      t.rbit (Blk.bist.at die die 0x00C) 31 = false ∧ t.fld (Blk.bist.at die die 0x00C) 18 16 = bistResultOf b.patterns x ∧
      t.reg (Blk.bist.at die die 0x100) = x.signature.setWidth 32 ∧ t.reg (Blk.bist.at die die 0x104) = (x.signature >>> 32).setWidth 32 ∧
      t.rbit (Blk.bist.at die die 0x010) 0 = true ∧
      (b.scope = 2 → sameMemOutside (reedSram ⟨die, b.consort, 16⟩ 0) (2 ^ 22) s t ∧
        ∀ a : Nat, a < 2 ^ 22 → t.mem.byte (reedSram ⟨die, b.consort, 16⟩ 0 + a) = 0))) ∧
  (∀ (die : Nat) (x : BistInfo) (s : State), SMap.get (fun _ => none) s.bist die = none → exec (.bistDone die x) s = .next s) ∧
  (∀ (low rails : Bool) (s : State),
    let load : Nat → Nat → Bool → Res := fun code data off =>
      .next { s with mgmt := { s.mgmt with ir := code, noEffect := off }, readData := data }
    let old := 1 + 4 * (if s.mgmt.noEffect = true then 1 else 0)
    exec (.extest low rails) s = load 0x00 old (!(low && rails)) ∧ exec (.clamp low rails) s = load 0x03 old (!(low && rails)) ∧
    exec (.highz low rails) s = load 0x04 old (!(low && rails)) ∧ exec .samplePreload s = load 0x01 old s.mgmt.noEffect ∧
    exec (.ijtagAccess .select) s = load 0x10 old s.mgmt.noEffect ∧ exec .bypass s = load 0xFF old s.mgmt.noEffect ∧
    exec .idcode s = load 0x02 (Config.revision / 16 % 16 * 2 ^ 28 + 0x0412 * 2 ^ 12 + Config.vendorJep % 2 ^ 11 * 2 + 1) s.mgmt.noEffect ∧
    exec .trstN s = .next { s with mgmt := { s.mgmt with ir := 0x02, sibs := 0, noEffect := false } }) ∧
  (∀ (die n h a m : Nat) (v : Word) (s : State), die < 8 →
    let go : IjtagOp → Res := fun op => exec (.ijtagAccess op) s
    let shut := s.mgmt.ir ≠ 0x10 ∨ s.mgmt.sibs.testBit die = false ∨ s.jtagOpen = false
    (s.mgmt.ir = 0x10 → go (.sibs m) = .next { s with mgmt := { s.mgmt with sibs := m % 2 ^ 8 } }) ∧
    (s.mgmt.ir ≠ 0x10 → go (.sibs m) = .next s) ∧
    (shut → ∀ op ∈ [IjtagOp.bistGo die v, .bistReg die n, .delay die n, .loop die, .sramRead (bellowsSram die a) n,
      .sramWrite (bellowsSram die a) []], a < 2 ^ 32 → go op = .next s) ∧
    (¬shut → go (.bistGo die v) = exec (.bistGo .jtag die v) s ∧
      go (.bistReg die n) = .next { s with readData := (s.reg (Blk.bist.at die die (n % 4096))).toNat } ∧
      go (.delay die n) = .next { s with readData := SMap.get (fun _ => 0) s.monDelay (64 * die + n % 64) } ∧
      (∀ bs : List Byte, s.readDev .jtag none a n = .ok bs → sramDie a = die →
        go (.sramRead a n) = .next { s.noteDev .jtag none false a n with readData := leOf bs })) ∧
    (n < 4 → s.instrument 4 = true →
      (2 ≤ s.debugLevel → s.lifeCycle ≤ 1 → ∃ t : State, go (.ownerWrite n h) = .next t ∧ { t with sec := s.sec } = s ∧
        { t.sec with owner := s.sec.owner } = s.sec ∧ t.sec.owner = s.sec.owner.set n (s.sec.owner.getD n 0 ||| (h % 2 ^ 384)) ∧
        go .serial = .next { s with readData := s.sec.serial }) ∧
      (s.debugLevel < 2 ∨ 2 ≤ s.lifeCycle → go (.ownerWrite n h) = .next s ∧ go (.ownerRead n) = .next s ∧ go .serial = .next s)))

/-- A write of 4 bytes at a multiple of 4, or of 8 at a multiple of 8 as two words, lower first, writes its registers, and any
other is a bad access; a word that has no register is one too. A write to a register without a row or a rule of its own changes
the register and its page's error record alone, by the access type of each field. A 1 in INT_FORCE sets the interrupt; a 1 in
CNT_OVF clears the saturated counter; a read of a counter's low word latches its high word; TOP_REG_ERR_HI clears the record
(R11, R746, R864 to R867, R872, R880). -/
def Obligations.RegisterAccesses : Prop :=
  (∀ (who : Requester) (a width v : Nat) (s : State),
    (width = 4 → a % 4 = 0 → exec (.registerWrite who a width v) s = .next (s.regWrite32 who a (BitVec.ofNat 32 v))) ∧
    (width = 8 → a % 8 = 0 → exec (.registerWrite who a width v) s =
      .next ((s.regWrite32 who a (BitVec.ofNat 32 v)).regWrite32 who (a + 4) (BitVec.ofNat 32 (v / 2 ^ 32)))) ∧
    (¬(width = 4 ∧ a % 4 = 0) → ¬(width = 8 ∧ a % 8 = 0) → s.writable who a = true →
      exec (.registerWrite who a width v) s = .next (s.badAccess who a 0 true)) ∧
    (pageBlk (a / 2 ^ 23) (a / 4096 % 2048) = none → s.writable who a = true → ∀ w : Word,
      s.regWrite32 who a w = s.badAccess who a 1 true)) ∧
  (∀ (who : Requester) (a : Nat) (v : Word) (b : Blk) (i : Nat) (r : RegRow) (s : State), a < 2 ^ 26 →
    pageBlk (a / 2 ^ 23) (a / 4096 % 2048) = some (b, i) → b.at (a / 2 ^ 23) i (a % 4096) = a → regRow b (a / 2 ^ 23) (a % 4096) = some r →
    (∀ f : Nat, who ≠ .host f) → s.writable who a = true → s.ownRow who b (a / 2 ^ 23) i (a % 4096) v = none →
    onlyA b (a / 2 ^ 23) (a % 4096) = false → s.valueOk b (a / 2 ^ 23) i (a % 4096) v = true →
    s.regKey b (a / 2 ^ 23) i (a % 4096) = some a → s.wordFor b (a / 2 ^ 23) (a % 4096) a v = v → a % 4096 ≠ 0x010 →
    (b = .brth ∧ a % 4096 = 0x140 → let t := s.writeFields who b a a v
      s.regWrite32 who a v = t.recsRead (s.reg a).toNat (t.reg a).toNat) ∧
    (¬(b = .brth ∧ a % 4096 = 0x140) →
      s.regWrite32 who a v = s.writeFields who b a a v ∧ { s.regWrite32 who a v with regs := s.regs } = s ∧
      sameRegsBut [a, inPage a 0x01C, inPage a 0x020, inPage a 0x024] s (s.regWrite32 who a v))) ∧
  (∀ (who : Requester) (a : Nat) (v : Word) (b : Blk) (i : Nat) (s : State), a < 2 ^ 26 →
    pageBlk (a / 2 ^ 23) (a / 4096 % 2048) = some (b, i) → s.writable who a = true →
    (a % 4096 = 0x018 → ∃ t : State, exec (.intForce who a v) s = .next t ∧ { t with regs := s.regs } = s ∧
      t.reg (b.at (a / 2 ^ 23) i 0x010) = s.reg (b.at (a / 2 ^ 23) i 0x010) ||| (v &&& BitVec.ofNat 32 (blkSpec b (a / 2 ^ 23)).int)) ∧
    (a % 4096 = 0x028 → ∃ t : State, exec (.cntOvfClear who a v) s = .next t ∧ { t with regs := s.regs, cnt := s.cnt } = s ∧
      (∀ off ∈ cntOffs b (a / 2 ^ 23), v.getLsbD (ovfBit b off) = true → t.count (b.at (a / 2 ^ 23) i off) = 0) ∧
      (v = 0 → t.cnt = s.cnt)) ∧
    (a % 4096 ∈ cntOffs b (a / 2 ^ 23) → ∃ t : State, exec (.counterLoRead who a) s = .next t ∧ t.readData = s.count a % 2 ^ 32 ∧
      SMap.get (fun _ => 0) t.cntHi a = BitVec.ofNat 32 (s.count a / 2 ^ 32) ∧ { t with readData := s.readData, cntHi := s.cntHi } = s)) ∧
  (∀ (who : Requester) (die : Nat) (v : Word) (s : State), die = 4 ∨ die = 5 → s.writable who (Blk.top.at die die 0x504) = true →
    v.getLsbD 31 = true → ∃ t : State, exec (.topRegErrClear who die v) s = .next t ∧ t.reg (Blk.top.at die die 0x500) = 0 ∧
      t.reg (Blk.top.at die die 0x504) = 0 ∧ { t with regs := s.regs } = s)

/-- A step whose front command is a reed's instruction keeps every memory and register map of the state in its canonical form.
-/
def Obligations.CanonicalReedSteps : Prop :=
  ∀ (c : Instr) (q : List Instr) (p : Nat × RI) (s t : State), s.pending = c :: q → reedParts c = some p → s.canonical = true →
    step s = .next t → t.canonical = true
end

