-- ==== Sys2Proof/Laws/SMap.lean ====
section
/-! SUPPORT. Laws of sparse maps and of memory: a read after a write, and that every operation keeps the canonical form. -/
namespace Sys2Proof.Laws
open Sys2Proof.Machine

variable {α : Type}

/-- What `find?` finds after `put`. -/
theorem find_put (m : SMap α) (k j : Nat) (v : α) :
    SMap.find? (SMap.put m k v) j = if k = j then some v else SMap.find? m j := by
  induction m with
  | nil => simp [SMap.put, SMap.find?]
  | cons e t ih =>
    obtain ⟨k', v'⟩ := e
    simp only [SMap.put]
    split
    · simp [SMap.find?]
    · split
      · next h1 h2 => subst h2; simp only [SMap.find?]; split <;> simp_all
      · next h1 h2 =>
        simp only [SMap.find?, ih]
        split
        · next h => subst h; simp [Ne.symm h2]
        · rfl

/-- What `find?` finds after `del`. -/
theorem find_del (m : SMap α) (k j : Nat) :
    SMap.find? (SMap.del m k) j = if k = j then none else SMap.find? m j := by
  induction m with
  | nil => simp [SMap.del, SMap.find?]
  | cons e t ih =>
    obtain ⟨k', v'⟩ := e
    simp only [SMap.del]
    split
    · next h => subst h; rw [ih]; simp only [SMap.find?]; split <;> simp_all
    · next h =>
      simp only [SMap.find?, ih]
      split
      · next h2 => subst h2; simp [Ne.symm h]
      · rfl

/-- A read after a write: the value written at its key, and every other key as before. -/
theorem get_set [DecidableEq α] (d : Nat → α) (m : SMap α) (k j : Nat) (v : α) :
    SMap.get d (SMap.set d m k v) j = if k = j then v else SMap.get d m j := by
  unfold SMap.set SMap.get
  split
  · next h => rw [find_del]; split <;> simp_all
  · rw [find_put]; split <;> simp

@[simp] theorem get_set_same [DecidableEq α] (d : Nat → α) (m : SMap α) (k : Nat) (v : α) :
    SMap.get d (SMap.set d m k v) k = v := by simp [get_set]

theorem get_set_other [DecidableEq α] (d : Nat → α) (m : SMap α) (k j : Nat) (v : α) (h : k ≠ j) :
    SMap.get d (SMap.set d m k v) j = SMap.get d m j := by simp [get_set, h]

/-! ### The canonical form -/

/-- A bound below every key. -/
def below (lo : Option Nat) (k : Nat) : Prop := match lo with | none => True | some l => l < k

theorem wfFrom_cons [DecidableEq α] (d : Nat → α) (lo : Option Nat) (k : Nat) (v : α) (t : SMap α) :
    SMap.wfFrom d lo ((k, v) :: t) = true ↔ below lo k ∧ v ≠ d k ∧ SMap.wfFrom d (some k) t = true := by
  cases lo <;> simp [SMap.wfFrom, below, and_assoc]

theorem wfFrom_weaken [DecidableEq α] (d : Nat → α) (lo lo' : Option Nat) (m : SMap α)
    (h : ∀ k, below lo k → below lo' k) : SMap.wfFrom d lo m = true → SMap.wfFrom d lo' m = true := by
  cases m with
  | nil => simp [SMap.wfFrom]
  | cons e t =>
    obtain ⟨k, v⟩ := e
    rw [wfFrom_cons, wfFrom_cons]
    exact fun ⟨a, b⟩ => ⟨h k a, b⟩

theorem below_trans (lo : Option Nat) (a b : Nat) (h : below lo a) (hab : a < b) : below lo b := by
  cases lo <;> simp_all [below]; omega

theorem wfFrom_filter [DecidableEq α] (d : Nat → α) (p : Nat × α → Bool) (m : SMap α) (lo : Option Nat) :
    SMap.wfFrom d lo m = true → SMap.wfFrom d lo (m.filter p) = true := by
  induction m generalizing lo with
  | nil => simp [SMap.wfFrom]
  | cons e t ih =>
    obtain ⟨k, v⟩ := e
    rw [wfFrom_cons, List.filter_cons]
    rintro ⟨h1, h2, h3⟩
    split
    · rw [wfFrom_cons]; exact ⟨h1, h2, ih _ h3⟩
    · exact ih _ (wfFrom_weaken d (some k) _ t (fun j hj => below_trans lo k j h1 hj) h3)

theorem del_eq_filter (m : SMap α) (k : Nat) : SMap.del m k = m.filter (fun e => decide (e.1 ≠ k)) := by
  induction m with
  | nil => rfl
  | cons e t ih =>
    obtain ⟨k', v'⟩ := e
    simp only [SMap.del, List.filter_cons]
    split <;> simp_all

theorem wfFrom_put [DecidableEq α] (d : Nat → α) (k : Nat) (v : α) (hv : v ≠ d k) (m : SMap α) (lo : Option Nat) (hk : below lo k) :
    SMap.wfFrom d lo m = true → SMap.wfFrom d lo (SMap.put m k v) = true := by
  induction m generalizing lo with
  | nil => intro _; rw [SMap.put, wfFrom_cons]; exact ⟨hk, hv, rfl⟩
  | cons e t ih =>
    obtain ⟨k', v'⟩ := e
    rw [wfFrom_cons]
    rintro ⟨h1, h2, h3⟩
    simp only [SMap.put]
    split
    · next h => rw [wfFrom_cons, wfFrom_cons]; exact ⟨hk, hv, h, h2, h3⟩
    · split
      · next h => subst h; rw [wfFrom_cons]; exact ⟨h1, hv, h3⟩
      · next ha hb => rw [wfFrom_cons]; exact ⟨h1, h2, ih _ (by simp only [below]; omega) h3⟩

/-- A write keeps the canonical form. -/
theorem wf_set [DecidableEq α] (d : Nat → α) (m : SMap α) (k : Nat) (v : α) (h : SMap.wf d m = true) :
    SMap.wf d (SMap.set d m k v) = true := by
  unfold SMap.wf SMap.set at *
  split
  · rw [del_eq_filter]; exact wfFrom_filter d _ m none h
  · next hv => exact wfFrom_put d k v hv m none trivial h

/-- A restriction keeps the canonical form. -/
theorem wf_filter [DecidableEq α] (d : Nat → α) (m : SMap α) (p : Nat × α → Bool) (h : SMap.wf d m = true) :
    SMap.wf d (m.filter p) = true := wfFrom_filter d p m none h

theorem wf_keep [DecidableEq α] (d : Nat → α) (m : SMap α) (p : Nat → Bool) (h : SMap.wf d m = true) :
    SMap.wf d (SMap.keep p m) = true := wf_filter d m _ h

theorem wf_dropRange [DecidableEq α] (d : Nat → α) (m : SMap α) (lo n : Nat) (h : SMap.wf d m = true) :
    SMap.wf d (SMap.dropRange m lo n) = true := wf_keep d m _ h

theorem wf_upd [DecidableEq α] (d : Nat → α) (m : SMap α) (k : Nat) (f : α → α) (h : SMap.wf d m = true) :
    SMap.wf d (SMap.upd d m k f) = true := wf_set d m k _ h

/-! ### Memory -/

theorem byte_setByte (m : Memory) (a j : Nat) (b : Byte) :
    (m.setByte a b).byte j = if a = j then b else m.byte j := get_set _ m a j b

@[simp] theorem byte_setByte_same (m : Memory) (a : Nat) (b : Byte) : (m.setByte a b).byte a = b := by
  simp [byte_setByte]

theorem byte_setByte_other (m : Memory) (a j : Nat) (b : Byte) (h : a ≠ j) : (m.setByte a b).byte j = m.byte j := by
  simp [byte_setByte, h]

theorem memory_wf_setByte (m : Memory) (a : Nat) (b : Byte) (h : m.wf = true) : (m.setByte a b).wf = true :=
  wf_set _ m a b h

theorem memory_wf_setBytes (m : Memory) (a : Nat) (bs : List Byte) (h : m.wf = true) : (m.setBytes a bs).wf = true := by
  induction bs generalizing m a with
  | nil => exact h
  | cons b bs ih => exact ih _ _ (memory_wf_setByte m a b h)

theorem memory_wf_setLe (m : Memory) (a n v : Nat) (h : m.wf = true) : (m.setLe a n v).wf = true := by
  induction n generalizing m a v with
  | zero => exact h
  | succ n ih => exact ih _ _ _ (memory_wf_setByte m a _ h)

theorem memory_wf_clear (m : Memory) (a n : Nat) (h : m.wf = true) : (m.clear a n).wf = true := wf_dropRange _ m a n h

/-- A write of several bytes leaves every byte outside them as it was. -/
theorem byte_setBytes_other (m : Memory) (a j : Nat) (bs : List Byte) (h : j < a ∨ a + bs.length ≤ j) :
    (m.setBytes a bs).byte j = m.byte j := by
  induction bs generalizing m a with
  | nil => rfl
  | cons b bs ih =>
    simp only [List.length_cons] at h
    rw [Memory.setBytes, ih _ _ (by omega), byte_setByte_other _ _ _ _ (by omega)]

theorem byte_setLe_other (m : Memory) (a j n v : Nat) (h : j < a ∨ a + n ≤ j) : (m.setLe a n v).byte j = m.byte j := by
  induction n generalizing m a v with
  | zero => rfl
  | succ n ih => rw [Memory.setLe, ih _ _ _ (by omega), byte_setByte_other _ _ _ _ (by omega)]

end Sys2Proof.Laws
end

