-- ==== Sys2Proof/Laws/State.lean ====
section
/-! SUPPORT. The fields of State after each named update: every other field is as it was. -/
namespace Sys2Proof.Laws
open Sys2Proof.Machine

variable (s : State)

/-! ### What the accessors read after a write -/

theorem reg_setReg (a b : Nat) (w : Word) : (s.setReg a w).reg b = if a = b then w else s.reg b := get_set _ _ a b w

@[simp] theorem reg_setReg_same (a : Nat) (w : Word) : (s.setReg a w).reg a = w := by simp [reg_setReg]

theorem reg_setReg_other (a b : Nat) (w : Word) (h : a ≠ b) : (s.setReg a w).reg b = s.reg b := by simp [reg_setReg, h]

theorem reg_setFld (a b hi lo v : Nat) :
    (s.setFld a hi lo v).reg b = if a = b then putW (s.reg a) hi lo v else s.reg b := reg_setReg s a b _

theorem reed_setReed (x y : ReedRef) (r : Reed) :
    (s.setReed x r).reed y = if reedNo x = reedNo y then r else s.reed y := get_set _ _ _ _ r

@[simp] theorem reed_setReed_same (x : ReedRef) (r : Reed) : (s.setReed x r).reed x = r := by simp [reed_setReed]

@[simp] theorem reg_setReed (x : ReedRef) (r : Reed) (a : Nat) : (s.setReed x r).reg a = s.reg a := rfl
@[simp] theorem reed_setReg (x : ReedRef) (a : Nat) (w : Word) : (s.setReg a w).reed x = s.reed x := rfl

theorem fn_setFn (f g : Nat) (x : Fn) : (s.setFn f x).fn g = if f = g then x else s.fn g := get_set _ _ f g x

@[simp] theorem fn_setFn_same (f : Nat) (x : Fn) : (s.setFn f x).fn f = x := by simp [fn_setFn]

/-! ### setReg -/

@[simp] theorem setReg_pending (a : Nat) (w : Word) : (s.setReg a w).pending = s.pending := rfl
@[simp] theorem setReg_cnt (a : Nat) (w : Word) : (s.setReg a w).cnt = s.cnt := rfl
@[simp] theorem setReg_cntHi (a : Nat) (w : Word) : (s.setReg a w).cntHi = s.cntHi := rfl
@[simp] theorem setReg_mem (a : Nat) (w : Word) : (s.setReg a w).mem = s.mem := rfl
@[simp] theorem setReg_flip (a : Nat) (w : Word) : (s.setReg a w).flip = s.flip := rfl
@[simp] theorem setReg_hostMem (a : Nat) (w : Word) : (s.setReg a w).hostMem = s.hostMem := rfl
@[simp] theorem setReg_readData (a : Nat) (w : Word) : (s.setReg a w).readData = s.readData := rfl
@[simp] theorem setReg_freeCtr (a : Nat) (w : Word) : (s.setReg a w).freeCtr = s.freeCtr := rfl
@[simp] theorem setReg_breath (a : Nat) (w : Word) : (s.setReg a w).breath = s.breath := rfl
@[simp] theorem setReg_steps (a : Nat) (w : Word) : (s.setReg a w).steps = s.steps := rfl
@[simp] theorem setReg_reeds (a : Nat) (w : Word) : (s.setReg a w).reeds = s.reeds := rfl
@[simp] theorem setReg_linksDown (a : Nat) (w : Word) : (s.setReg a w).linksDown = s.linksDown := rfl
@[simp] theorem setReg_inReset (a : Nat) (w : Word) : (s.setReg a w).inReset = s.inReset := rfl
@[simp] theorem setReg_handover (a : Nat) (w : Word) : (s.setReg a w).handover = s.handover := rfl
@[simp] theorem setReg_portLast (a : Nat) (w : Word) : (s.setReg a w).portLast = s.portLast := rfl
@[simp] theorem setReg_scrubLeft (a : Nat) (w : Word) : (s.setReg a w).scrubLeft = s.scrubLeft := rfl
@[simp] theorem setReg_scrubSeen (a : Nat) (w : Word) : (s.setReg a w).scrubSeen = s.scrubSeen := rfl
@[simp] theorem setReg_fns (a : Nat) (w : Word) : (s.setReg a w).fns = s.fns := rfl
@[simp] theorem setReg_mbxLast (a : Nat) (w : Word) : (s.setReg a w).mbxLast = s.mbxLast := rfl
@[simp] theorem setReg_abortsA (a : Nat) (w : Word) : (s.setReg a w).abortsA = s.abortsA := rfl
@[simp] theorem setReg_abortsB (a : Nat) (w : Word) : (s.setReg a w).abortsB = s.abortsB := rfl
@[simp] theorem setReg_fwNotices (a : Nat) (w : Word) : (s.setReg a w).fwNotices = s.fwNotices := rfl
@[simp] theorem setReg_msixSent (a : Nat) (w : Word) : (s.setReg a w).msixSent = s.msixSent := rfl
@[simp] theorem setReg_reply (a : Nat) (w : Word) : (s.setReg a w).reply = s.reply := rfl
@[simp] theorem setReg_restarted (a : Nat) (w : Word) : (s.setReg a w).restarted = s.restarted := rfl
@[simp] theorem setReg_objs (a : Nat) (w : Word) : (s.setReg a w).objs = s.objs := rfl
@[simp] theorem setReg_swaps (a : Nat) (w : Word) : (s.setReg a w).swaps = s.swaps := rfl
@[simp] theorem setReg_models (a : Nat) (w : Word) : (s.setReg a w).models = s.models := rfl
@[simp] theorem setReg_horns (a : Nat) (w : Word) : (s.setReg a w).horns = s.horns := rfl
@[simp] theorem setReg_dirs (a : Nat) (w : Word) : (s.setReg a w).dirs = s.dirs := rfl
@[simp] theorem setReg_pubs (a : Nat) (w : Word) : (s.setReg a w).pubs = s.pubs := rfl
@[simp] theorem setReg_runs (a : Nat) (w : Word) : (s.setReg a w).runs = s.runs := rfl
@[simp] theorem setReg_serps (a : Nat) (w : Word) : (s.setReg a w).serps = s.serps := rfl
@[simp] theorem setReg_panps (a : Nat) (w : Word) : (s.setReg a w).panps = s.panps := rfl
@[simp] theorem setReg_reqs (a : Nat) (w : Word) : (s.setReg a w).reqs = s.reqs := rfl
@[simp] theorem setReg_reqEvents (a : Nat) (w : Word) : (s.setReg a w).reqEvents = s.reqEvents := rfl
@[simp] theorem setReg_shedClear (a : Nat) (w : Word) : (s.setReg a w).shedClear = s.shedClear := rfl
@[simp] theorem setReg_edgeReplies (a : Nat) (w : Word) : (s.setReg a w).edgeReplies = s.edgeReplies := rfl
@[simp] theorem setReg_sess (a : Nat) (w : Word) : (s.setReg a w).sess = s.sess := rfl
@[simp] theorem setReg_sessOps (a : Nat) (w : Word) : (s.setReg a w).sessOps = s.sessOps := rfl
@[simp] theorem setReg_sessLost (a : Nat) (w : Word) : (s.setReg a w).sessLost = s.sessLost := rfl
@[simp] theorem setReg_pfxs (a : Nat) (w : Word) : (s.setReg a w).pfxs = s.pfxs := rfl
@[simp] theorem setReg_fwds (a : Nat) (w : Word) : (s.setReg a w).fwds = s.fwds := rfl
@[simp] theorem setReg_repros (a : Nat) (w : Word) : (s.setReg a w).repros = s.repros := rfl
@[simp] theorem setReg_bktLast (a : Nat) (w : Word) : (s.setReg a w).bktLast = s.bktLast := rfl
@[simp] theorem setReg_drones (a : Nat) (w : Word) : (s.setReg a w).drones = s.drones := rfl
@[simp] theorem setReg_flashDone (a : Nat) (w : Word) : (s.setReg a w).flashDone = s.flashDone := rfl
@[simp] theorem setReg_faults (a : Nat) (w : Word) : (s.setReg a w).faults = s.faults := rfl
@[simp] theorem setReg_recov (a : Nat) (w : Word) : (s.setReg a w).recov = s.recov := rfl
@[simp] theorem setReg_waitFaults (a : Nat) (w : Word) : (s.setReg a w).waitFaults = s.waitFaults := rfl
@[simp] theorem setReg_trackers (a : Nat) (w : Word) : (s.setReg a w).trackers = s.trackers := rfl
@[simp] theorem setReg_spareRows (a : Nat) (w : Word) : (s.setReg a w).spareRows = s.spareRows := rfl
@[simp] theorem setReg_withdrawnBanks (a : Nat) (w : Word) : (s.setReg a w).withdrawnBanks = s.withdrawnBanks := rfl
@[simp] theorem setReg_ueSeen (a : Nat) (w : Word) : (s.setReg a w).ueSeen = s.ueSeen := rfl
@[simp] theorem setReg_dramSpare (a : Nat) (w : Word) : (s.setReg a w).dramSpare = s.dramSpare := rfl
@[simp] theorem setReg_withheld (a : Nat) (w : Word) : (s.setReg a w).withheld = s.withheld := rfl
@[simp] theorem setReg_health (a : Nat) (w : Word) : (s.setReg a w).health = s.health := rfl
@[simp] theorem setReg_healthAge (a : Nat) (w : Word) : (s.setReg a w).healthAge = s.healthAge := rfl
@[simp] theorem setReg_monDelay (a : Nat) (w : Word) : (s.setReg a w).monDelay = s.monDelay := rfl
@[simp] theorem setReg_coresOut (a : Nat) (w : Word) : (s.setReg a w).coresOut = s.coresOut := rfl
@[simp] theorem setReg_retrains (a : Nat) (w : Word) : (s.setReg a w).retrains = s.retrains := rfl
@[simp] theorem setReg_linkReplay (a : Nat) (w : Word) : (s.setReg a w).linkReplay = s.linkReplay := rfl
@[simp] theorem setReg_sec (a : Nat) (w : Word) : (s.setReg a w).sec = s.sec := rfl
@[simp] theorem setReg_pwr (a : Nat) (w : Word) : (s.setReg a w).pwr = s.pwr := rfl
@[simp] theorem setReg_mgmt (a : Nat) (w : Word) : (s.setReg a w).mgmt = s.mgmt := rfl
@[simp] theorem setReg_bist (a : Nat) (w : Word) : (s.setReg a w).bist = s.bist := rfl
@[simp] theorem setReg_spareOk (a : Nat) (w : Word) : (s.setReg a w).spareOk = s.spareOk := rfl

/-! ### setFld -/

@[simp] theorem setFld_pending (a hi lo v : Nat) : (s.setFld a hi lo v).pending = s.pending := rfl
@[simp] theorem setFld_cnt (a hi lo v : Nat) : (s.setFld a hi lo v).cnt = s.cnt := rfl
@[simp] theorem setFld_cntHi (a hi lo v : Nat) : (s.setFld a hi lo v).cntHi = s.cntHi := rfl
@[simp] theorem setFld_mem (a hi lo v : Nat) : (s.setFld a hi lo v).mem = s.mem := rfl
@[simp] theorem setFld_flip (a hi lo v : Nat) : (s.setFld a hi lo v).flip = s.flip := rfl
@[simp] theorem setFld_hostMem (a hi lo v : Nat) : (s.setFld a hi lo v).hostMem = s.hostMem := rfl
@[simp] theorem setFld_readData (a hi lo v : Nat) : (s.setFld a hi lo v).readData = s.readData := rfl
@[simp] theorem setFld_freeCtr (a hi lo v : Nat) : (s.setFld a hi lo v).freeCtr = s.freeCtr := rfl
@[simp] theorem setFld_breath (a hi lo v : Nat) : (s.setFld a hi lo v).breath = s.breath := rfl
@[simp] theorem setFld_steps (a hi lo v : Nat) : (s.setFld a hi lo v).steps = s.steps := rfl
@[simp] theorem setFld_reeds (a hi lo v : Nat) : (s.setFld a hi lo v).reeds = s.reeds := rfl
@[simp] theorem setFld_linksDown (a hi lo v : Nat) : (s.setFld a hi lo v).linksDown = s.linksDown := rfl
@[simp] theorem setFld_inReset (a hi lo v : Nat) : (s.setFld a hi lo v).inReset = s.inReset := rfl
@[simp] theorem setFld_handover (a hi lo v : Nat) : (s.setFld a hi lo v).handover = s.handover := rfl
@[simp] theorem setFld_portLast (a hi lo v : Nat) : (s.setFld a hi lo v).portLast = s.portLast := rfl
@[simp] theorem setFld_scrubLeft (a hi lo v : Nat) : (s.setFld a hi lo v).scrubLeft = s.scrubLeft := rfl
@[simp] theorem setFld_scrubSeen (a hi lo v : Nat) : (s.setFld a hi lo v).scrubSeen = s.scrubSeen := rfl
@[simp] theorem setFld_fns (a hi lo v : Nat) : (s.setFld a hi lo v).fns = s.fns := rfl
@[simp] theorem setFld_mbxLast (a hi lo v : Nat) : (s.setFld a hi lo v).mbxLast = s.mbxLast := rfl
@[simp] theorem setFld_abortsA (a hi lo v : Nat) : (s.setFld a hi lo v).abortsA = s.abortsA := rfl
@[simp] theorem setFld_abortsB (a hi lo v : Nat) : (s.setFld a hi lo v).abortsB = s.abortsB := rfl
@[simp] theorem setFld_fwNotices (a hi lo v : Nat) : (s.setFld a hi lo v).fwNotices = s.fwNotices := rfl
@[simp] theorem setFld_msixSent (a hi lo v : Nat) : (s.setFld a hi lo v).msixSent = s.msixSent := rfl
@[simp] theorem setFld_reply (a hi lo v : Nat) : (s.setFld a hi lo v).reply = s.reply := rfl
@[simp] theorem setFld_restarted (a hi lo v : Nat) : (s.setFld a hi lo v).restarted = s.restarted := rfl
@[simp] theorem setFld_objs (a hi lo v : Nat) : (s.setFld a hi lo v).objs = s.objs := rfl
@[simp] theorem setFld_swaps (a hi lo v : Nat) : (s.setFld a hi lo v).swaps = s.swaps := rfl
@[simp] theorem setFld_models (a hi lo v : Nat) : (s.setFld a hi lo v).models = s.models := rfl
@[simp] theorem setFld_horns (a hi lo v : Nat) : (s.setFld a hi lo v).horns = s.horns := rfl
@[simp] theorem setFld_dirs (a hi lo v : Nat) : (s.setFld a hi lo v).dirs = s.dirs := rfl
@[simp] theorem setFld_pubs (a hi lo v : Nat) : (s.setFld a hi lo v).pubs = s.pubs := rfl
@[simp] theorem setFld_runs (a hi lo v : Nat) : (s.setFld a hi lo v).runs = s.runs := rfl
@[simp] theorem setFld_serps (a hi lo v : Nat) : (s.setFld a hi lo v).serps = s.serps := rfl
@[simp] theorem setFld_panps (a hi lo v : Nat) : (s.setFld a hi lo v).panps = s.panps := rfl
@[simp] theorem setFld_reqs (a hi lo v : Nat) : (s.setFld a hi lo v).reqs = s.reqs := rfl
@[simp] theorem setFld_reqEvents (a hi lo v : Nat) : (s.setFld a hi lo v).reqEvents = s.reqEvents := rfl
@[simp] theorem setFld_shedClear (a hi lo v : Nat) : (s.setFld a hi lo v).shedClear = s.shedClear := rfl
@[simp] theorem setFld_edgeReplies (a hi lo v : Nat) : (s.setFld a hi lo v).edgeReplies = s.edgeReplies := rfl
@[simp] theorem setFld_sess (a hi lo v : Nat) : (s.setFld a hi lo v).sess = s.sess := rfl
@[simp] theorem setFld_sessOps (a hi lo v : Nat) : (s.setFld a hi lo v).sessOps = s.sessOps := rfl
@[simp] theorem setFld_sessLost (a hi lo v : Nat) : (s.setFld a hi lo v).sessLost = s.sessLost := rfl
@[simp] theorem setFld_pfxs (a hi lo v : Nat) : (s.setFld a hi lo v).pfxs = s.pfxs := rfl
@[simp] theorem setFld_fwds (a hi lo v : Nat) : (s.setFld a hi lo v).fwds = s.fwds := rfl
@[simp] theorem setFld_repros (a hi lo v : Nat) : (s.setFld a hi lo v).repros = s.repros := rfl
@[simp] theorem setFld_bktLast (a hi lo v : Nat) : (s.setFld a hi lo v).bktLast = s.bktLast := rfl
@[simp] theorem setFld_drones (a hi lo v : Nat) : (s.setFld a hi lo v).drones = s.drones := rfl
@[simp] theorem setFld_flashDone (a hi lo v : Nat) : (s.setFld a hi lo v).flashDone = s.flashDone := rfl
@[simp] theorem setFld_faults (a hi lo v : Nat) : (s.setFld a hi lo v).faults = s.faults := rfl
@[simp] theorem setFld_recov (a hi lo v : Nat) : (s.setFld a hi lo v).recov = s.recov := rfl
@[simp] theorem setFld_waitFaults (a hi lo v : Nat) : (s.setFld a hi lo v).waitFaults = s.waitFaults := rfl
@[simp] theorem setFld_trackers (a hi lo v : Nat) : (s.setFld a hi lo v).trackers = s.trackers := rfl
@[simp] theorem setFld_spareRows (a hi lo v : Nat) : (s.setFld a hi lo v).spareRows = s.spareRows := rfl
@[simp] theorem setFld_withdrawnBanks (a hi lo v : Nat) : (s.setFld a hi lo v).withdrawnBanks = s.withdrawnBanks := rfl
@[simp] theorem setFld_ueSeen (a hi lo v : Nat) : (s.setFld a hi lo v).ueSeen = s.ueSeen := rfl
@[simp] theorem setFld_dramSpare (a hi lo v : Nat) : (s.setFld a hi lo v).dramSpare = s.dramSpare := rfl
@[simp] theorem setFld_withheld (a hi lo v : Nat) : (s.setFld a hi lo v).withheld = s.withheld := rfl
@[simp] theorem setFld_health (a hi lo v : Nat) : (s.setFld a hi lo v).health = s.health := rfl
@[simp] theorem setFld_healthAge (a hi lo v : Nat) : (s.setFld a hi lo v).healthAge = s.healthAge := rfl
@[simp] theorem setFld_monDelay (a hi lo v : Nat) : (s.setFld a hi lo v).monDelay = s.monDelay := rfl
@[simp] theorem setFld_coresOut (a hi lo v : Nat) : (s.setFld a hi lo v).coresOut = s.coresOut := rfl
@[simp] theorem setFld_retrains (a hi lo v : Nat) : (s.setFld a hi lo v).retrains = s.retrains := rfl
@[simp] theorem setFld_linkReplay (a hi lo v : Nat) : (s.setFld a hi lo v).linkReplay = s.linkReplay := rfl
@[simp] theorem setFld_sec (a hi lo v : Nat) : (s.setFld a hi lo v).sec = s.sec := rfl
@[simp] theorem setFld_pwr (a hi lo v : Nat) : (s.setFld a hi lo v).pwr = s.pwr := rfl
@[simp] theorem setFld_mgmt (a hi lo v : Nat) : (s.setFld a hi lo v).mgmt = s.mgmt := rfl
@[simp] theorem setFld_bist (a hi lo v : Nat) : (s.setFld a hi lo v).bist = s.bist := rfl
@[simp] theorem setFld_spareOk (a hi lo v : Nat) : (s.setFld a hi lo v).spareOk = s.spareOk := rfl

/-! ### raise -/

@[simp] theorem raise_pending (a n : Nat) : (s.raise a n).pending = s.pending := rfl
@[simp] theorem raise_cnt (a n : Nat) : (s.raise a n).cnt = s.cnt := rfl
@[simp] theorem raise_cntHi (a n : Nat) : (s.raise a n).cntHi = s.cntHi := rfl
@[simp] theorem raise_mem (a n : Nat) : (s.raise a n).mem = s.mem := rfl
@[simp] theorem raise_flip (a n : Nat) : (s.raise a n).flip = s.flip := rfl
@[simp] theorem raise_hostMem (a n : Nat) : (s.raise a n).hostMem = s.hostMem := rfl
@[simp] theorem raise_readData (a n : Nat) : (s.raise a n).readData = s.readData := rfl
@[simp] theorem raise_freeCtr (a n : Nat) : (s.raise a n).freeCtr = s.freeCtr := rfl
@[simp] theorem raise_breath (a n : Nat) : (s.raise a n).breath = s.breath := rfl
@[simp] theorem raise_steps (a n : Nat) : (s.raise a n).steps = s.steps := rfl
@[simp] theorem raise_reeds (a n : Nat) : (s.raise a n).reeds = s.reeds := rfl
@[simp] theorem raise_linksDown (a n : Nat) : (s.raise a n).linksDown = s.linksDown := rfl
@[simp] theorem raise_inReset (a n : Nat) : (s.raise a n).inReset = s.inReset := rfl
@[simp] theorem raise_handover (a n : Nat) : (s.raise a n).handover = s.handover := rfl
@[simp] theorem raise_portLast (a n : Nat) : (s.raise a n).portLast = s.portLast := rfl
@[simp] theorem raise_scrubLeft (a n : Nat) : (s.raise a n).scrubLeft = s.scrubLeft := rfl
@[simp] theorem raise_scrubSeen (a n : Nat) : (s.raise a n).scrubSeen = s.scrubSeen := rfl
@[simp] theorem raise_fns (a n : Nat) : (s.raise a n).fns = s.fns := rfl
@[simp] theorem raise_mbxLast (a n : Nat) : (s.raise a n).mbxLast = s.mbxLast := rfl
@[simp] theorem raise_abortsA (a n : Nat) : (s.raise a n).abortsA = s.abortsA := rfl
@[simp] theorem raise_abortsB (a n : Nat) : (s.raise a n).abortsB = s.abortsB := rfl
@[simp] theorem raise_fwNotices (a n : Nat) : (s.raise a n).fwNotices = s.fwNotices := rfl
@[simp] theorem raise_msixSent (a n : Nat) : (s.raise a n).msixSent = s.msixSent := rfl
@[simp] theorem raise_reply (a n : Nat) : (s.raise a n).reply = s.reply := rfl
@[simp] theorem raise_restarted (a n : Nat) : (s.raise a n).restarted = s.restarted := rfl
@[simp] theorem raise_objs (a n : Nat) : (s.raise a n).objs = s.objs := rfl
@[simp] theorem raise_swaps (a n : Nat) : (s.raise a n).swaps = s.swaps := rfl
@[simp] theorem raise_models (a n : Nat) : (s.raise a n).models = s.models := rfl
@[simp] theorem raise_horns (a n : Nat) : (s.raise a n).horns = s.horns := rfl
@[simp] theorem raise_dirs (a n : Nat) : (s.raise a n).dirs = s.dirs := rfl
@[simp] theorem raise_pubs (a n : Nat) : (s.raise a n).pubs = s.pubs := rfl
@[simp] theorem raise_runs (a n : Nat) : (s.raise a n).runs = s.runs := rfl
@[simp] theorem raise_serps (a n : Nat) : (s.raise a n).serps = s.serps := rfl
@[simp] theorem raise_panps (a n : Nat) : (s.raise a n).panps = s.panps := rfl
@[simp] theorem raise_reqs (a n : Nat) : (s.raise a n).reqs = s.reqs := rfl
@[simp] theorem raise_reqEvents (a n : Nat) : (s.raise a n).reqEvents = s.reqEvents := rfl
@[simp] theorem raise_shedClear (a n : Nat) : (s.raise a n).shedClear = s.shedClear := rfl
@[simp] theorem raise_edgeReplies (a n : Nat) : (s.raise a n).edgeReplies = s.edgeReplies := rfl
@[simp] theorem raise_sess (a n : Nat) : (s.raise a n).sess = s.sess := rfl
@[simp] theorem raise_sessOps (a n : Nat) : (s.raise a n).sessOps = s.sessOps := rfl
@[simp] theorem raise_sessLost (a n : Nat) : (s.raise a n).sessLost = s.sessLost := rfl
@[simp] theorem raise_pfxs (a n : Nat) : (s.raise a n).pfxs = s.pfxs := rfl
@[simp] theorem raise_fwds (a n : Nat) : (s.raise a n).fwds = s.fwds := rfl
@[simp] theorem raise_repros (a n : Nat) : (s.raise a n).repros = s.repros := rfl
@[simp] theorem raise_bktLast (a n : Nat) : (s.raise a n).bktLast = s.bktLast := rfl
@[simp] theorem raise_drones (a n : Nat) : (s.raise a n).drones = s.drones := rfl
@[simp] theorem raise_flashDone (a n : Nat) : (s.raise a n).flashDone = s.flashDone := rfl
@[simp] theorem raise_faults (a n : Nat) : (s.raise a n).faults = s.faults := rfl
@[simp] theorem raise_recov (a n : Nat) : (s.raise a n).recov = s.recov := rfl
@[simp] theorem raise_waitFaults (a n : Nat) : (s.raise a n).waitFaults = s.waitFaults := rfl
@[simp] theorem raise_trackers (a n : Nat) : (s.raise a n).trackers = s.trackers := rfl
@[simp] theorem raise_spareRows (a n : Nat) : (s.raise a n).spareRows = s.spareRows := rfl
@[simp] theorem raise_withdrawnBanks (a n : Nat) : (s.raise a n).withdrawnBanks = s.withdrawnBanks := rfl
@[simp] theorem raise_ueSeen (a n : Nat) : (s.raise a n).ueSeen = s.ueSeen := rfl
@[simp] theorem raise_dramSpare (a n : Nat) : (s.raise a n).dramSpare = s.dramSpare := rfl
@[simp] theorem raise_withheld (a n : Nat) : (s.raise a n).withheld = s.withheld := rfl
@[simp] theorem raise_health (a n : Nat) : (s.raise a n).health = s.health := rfl
@[simp] theorem raise_healthAge (a n : Nat) : (s.raise a n).healthAge = s.healthAge := rfl
@[simp] theorem raise_monDelay (a n : Nat) : (s.raise a n).monDelay = s.monDelay := rfl
@[simp] theorem raise_coresOut (a n : Nat) : (s.raise a n).coresOut = s.coresOut := rfl
@[simp] theorem raise_retrains (a n : Nat) : (s.raise a n).retrains = s.retrains := rfl
@[simp] theorem raise_linkReplay (a n : Nat) : (s.raise a n).linkReplay = s.linkReplay := rfl
@[simp] theorem raise_sec (a n : Nat) : (s.raise a n).sec = s.sec := rfl
@[simp] theorem raise_pwr (a n : Nat) : (s.raise a n).pwr = s.pwr := rfl
@[simp] theorem raise_mgmt (a n : Nat) : (s.raise a n).mgmt = s.mgmt := rfl
@[simp] theorem raise_bist (a n : Nat) : (s.raise a n).bist = s.bist := rfl
@[simp] theorem raise_spareOk (a n : Nat) : (s.raise a n).spareOk = s.spareOk := rfl

/-! ### setReed -/

@[simp] theorem setReed_pending (x : ReedRef) (r : Reed) : (s.setReed x r).pending = s.pending := rfl
@[simp] theorem setReed_regs (x : ReedRef) (r : Reed) : (s.setReed x r).regs = s.regs := rfl
@[simp] theorem setReed_cnt (x : ReedRef) (r : Reed) : (s.setReed x r).cnt = s.cnt := rfl
@[simp] theorem setReed_cntHi (x : ReedRef) (r : Reed) : (s.setReed x r).cntHi = s.cntHi := rfl
@[simp] theorem setReed_mem (x : ReedRef) (r : Reed) : (s.setReed x r).mem = s.mem := rfl
@[simp] theorem setReed_flip (x : ReedRef) (r : Reed) : (s.setReed x r).flip = s.flip := rfl
@[simp] theorem setReed_hostMem (x : ReedRef) (r : Reed) : (s.setReed x r).hostMem = s.hostMem := rfl
@[simp] theorem setReed_readData (x : ReedRef) (r : Reed) : (s.setReed x r).readData = s.readData := rfl
@[simp] theorem setReed_freeCtr (x : ReedRef) (r : Reed) : (s.setReed x r).freeCtr = s.freeCtr := rfl
@[simp] theorem setReed_breath (x : ReedRef) (r : Reed) : (s.setReed x r).breath = s.breath := rfl
@[simp] theorem setReed_steps (x : ReedRef) (r : Reed) : (s.setReed x r).steps = s.steps := rfl
@[simp] theorem setReed_linksDown (x : ReedRef) (r : Reed) : (s.setReed x r).linksDown = s.linksDown := rfl
@[simp] theorem setReed_inReset (x : ReedRef) (r : Reed) : (s.setReed x r).inReset = s.inReset := rfl
@[simp] theorem setReed_handover (x : ReedRef) (r : Reed) : (s.setReed x r).handover = s.handover := rfl
@[simp] theorem setReed_portLast (x : ReedRef) (r : Reed) : (s.setReed x r).portLast = s.portLast := rfl
@[simp] theorem setReed_scrubLeft (x : ReedRef) (r : Reed) : (s.setReed x r).scrubLeft = s.scrubLeft := rfl
@[simp] theorem setReed_scrubSeen (x : ReedRef) (r : Reed) : (s.setReed x r).scrubSeen = s.scrubSeen := rfl
@[simp] theorem setReed_fns (x : ReedRef) (r : Reed) : (s.setReed x r).fns = s.fns := rfl
@[simp] theorem setReed_mbxLast (x : ReedRef) (r : Reed) : (s.setReed x r).mbxLast = s.mbxLast := rfl
@[simp] theorem setReed_abortsA (x : ReedRef) (r : Reed) : (s.setReed x r).abortsA = s.abortsA := rfl
@[simp] theorem setReed_abortsB (x : ReedRef) (r : Reed) : (s.setReed x r).abortsB = s.abortsB := rfl
@[simp] theorem setReed_fwNotices (x : ReedRef) (r : Reed) : (s.setReed x r).fwNotices = s.fwNotices := rfl
@[simp] theorem setReed_msixSent (x : ReedRef) (r : Reed) : (s.setReed x r).msixSent = s.msixSent := rfl
@[simp] theorem setReed_reply (x : ReedRef) (r : Reed) : (s.setReed x r).reply = s.reply := rfl
@[simp] theorem setReed_restarted (x : ReedRef) (r : Reed) : (s.setReed x r).restarted = s.restarted := rfl
@[simp] theorem setReed_objs (x : ReedRef) (r : Reed) : (s.setReed x r).objs = s.objs := rfl
@[simp] theorem setReed_swaps (x : ReedRef) (r : Reed) : (s.setReed x r).swaps = s.swaps := rfl
@[simp] theorem setReed_models (x : ReedRef) (r : Reed) : (s.setReed x r).models = s.models := rfl
@[simp] theorem setReed_horns (x : ReedRef) (r : Reed) : (s.setReed x r).horns = s.horns := rfl
@[simp] theorem setReed_dirs (x : ReedRef) (r : Reed) : (s.setReed x r).dirs = s.dirs := rfl
@[simp] theorem setReed_pubs (x : ReedRef) (r : Reed) : (s.setReed x r).pubs = s.pubs := rfl
@[simp] theorem setReed_runs (x : ReedRef) (r : Reed) : (s.setReed x r).runs = s.runs := rfl
@[simp] theorem setReed_serps (x : ReedRef) (r : Reed) : (s.setReed x r).serps = s.serps := rfl
@[simp] theorem setReed_panps (x : ReedRef) (r : Reed) : (s.setReed x r).panps = s.panps := rfl
@[simp] theorem setReed_reqs (x : ReedRef) (r : Reed) : (s.setReed x r).reqs = s.reqs := rfl
@[simp] theorem setReed_reqEvents (x : ReedRef) (r : Reed) : (s.setReed x r).reqEvents = s.reqEvents := rfl
@[simp] theorem setReed_shedClear (x : ReedRef) (r : Reed) : (s.setReed x r).shedClear = s.shedClear := rfl
@[simp] theorem setReed_edgeReplies (x : ReedRef) (r : Reed) : (s.setReed x r).edgeReplies = s.edgeReplies := rfl
@[simp] theorem setReed_sess (x : ReedRef) (r : Reed) : (s.setReed x r).sess = s.sess := rfl
@[simp] theorem setReed_sessOps (x : ReedRef) (r : Reed) : (s.setReed x r).sessOps = s.sessOps := rfl
@[simp] theorem setReed_sessLost (x : ReedRef) (r : Reed) : (s.setReed x r).sessLost = s.sessLost := rfl
@[simp] theorem setReed_pfxs (x : ReedRef) (r : Reed) : (s.setReed x r).pfxs = s.pfxs := rfl
@[simp] theorem setReed_fwds (x : ReedRef) (r : Reed) : (s.setReed x r).fwds = s.fwds := rfl
@[simp] theorem setReed_repros (x : ReedRef) (r : Reed) : (s.setReed x r).repros = s.repros := rfl
@[simp] theorem setReed_bktLast (x : ReedRef) (r : Reed) : (s.setReed x r).bktLast = s.bktLast := rfl
@[simp] theorem setReed_drones (x : ReedRef) (r : Reed) : (s.setReed x r).drones = s.drones := rfl
@[simp] theorem setReed_flashDone (x : ReedRef) (r : Reed) : (s.setReed x r).flashDone = s.flashDone := rfl
@[simp] theorem setReed_faults (x : ReedRef) (r : Reed) : (s.setReed x r).faults = s.faults := rfl
@[simp] theorem setReed_recov (x : ReedRef) (r : Reed) : (s.setReed x r).recov = s.recov := rfl
@[simp] theorem setReed_waitFaults (x : ReedRef) (r : Reed) : (s.setReed x r).waitFaults = s.waitFaults := rfl
@[simp] theorem setReed_trackers (x : ReedRef) (r : Reed) : (s.setReed x r).trackers = s.trackers := rfl
@[simp] theorem setReed_spareRows (x : ReedRef) (r : Reed) : (s.setReed x r).spareRows = s.spareRows := rfl
@[simp] theorem setReed_withdrawnBanks (x : ReedRef) (r : Reed) : (s.setReed x r).withdrawnBanks = s.withdrawnBanks := rfl
@[simp] theorem setReed_ueSeen (x : ReedRef) (r : Reed) : (s.setReed x r).ueSeen = s.ueSeen := rfl
@[simp] theorem setReed_dramSpare (x : ReedRef) (r : Reed) : (s.setReed x r).dramSpare = s.dramSpare := rfl
@[simp] theorem setReed_withheld (x : ReedRef) (r : Reed) : (s.setReed x r).withheld = s.withheld := rfl
@[simp] theorem setReed_health (x : ReedRef) (r : Reed) : (s.setReed x r).health = s.health := rfl
@[simp] theorem setReed_healthAge (x : ReedRef) (r : Reed) : (s.setReed x r).healthAge = s.healthAge := rfl
@[simp] theorem setReed_monDelay (x : ReedRef) (r : Reed) : (s.setReed x r).monDelay = s.monDelay := rfl
@[simp] theorem setReed_coresOut (x : ReedRef) (r : Reed) : (s.setReed x r).coresOut = s.coresOut := rfl
@[simp] theorem setReed_retrains (x : ReedRef) (r : Reed) : (s.setReed x r).retrains = s.retrains := rfl
@[simp] theorem setReed_linkReplay (x : ReedRef) (r : Reed) : (s.setReed x r).linkReplay = s.linkReplay := rfl
@[simp] theorem setReed_sec (x : ReedRef) (r : Reed) : (s.setReed x r).sec = s.sec := rfl
@[simp] theorem setReed_pwr (x : ReedRef) (r : Reed) : (s.setReed x r).pwr = s.pwr := rfl
@[simp] theorem setReed_mgmt (x : ReedRef) (r : Reed) : (s.setReed x r).mgmt = s.mgmt := rfl
@[simp] theorem setReed_bist (x : ReedRef) (r : Reed) : (s.setReed x r).bist = s.bist := rfl
@[simp] theorem setReed_spareOk (x : ReedRef) (r : Reed) : (s.setReed x r).spareOk = s.spareOk := rfl

/-! ### setFn -/

@[simp] theorem setFn_pending (f : Nat) (x : Fn) : (s.setFn f x).pending = s.pending := rfl
@[simp] theorem setFn_regs (f : Nat) (x : Fn) : (s.setFn f x).regs = s.regs := rfl
@[simp] theorem setFn_cnt (f : Nat) (x : Fn) : (s.setFn f x).cnt = s.cnt := rfl
@[simp] theorem setFn_cntHi (f : Nat) (x : Fn) : (s.setFn f x).cntHi = s.cntHi := rfl
@[simp] theorem setFn_mem (f : Nat) (x : Fn) : (s.setFn f x).mem = s.mem := rfl
@[simp] theorem setFn_flip (f : Nat) (x : Fn) : (s.setFn f x).flip = s.flip := rfl
@[simp] theorem setFn_hostMem (f : Nat) (x : Fn) : (s.setFn f x).hostMem = s.hostMem := rfl
@[simp] theorem setFn_readData (f : Nat) (x : Fn) : (s.setFn f x).readData = s.readData := rfl
@[simp] theorem setFn_freeCtr (f : Nat) (x : Fn) : (s.setFn f x).freeCtr = s.freeCtr := rfl
@[simp] theorem setFn_breath (f : Nat) (x : Fn) : (s.setFn f x).breath = s.breath := rfl
@[simp] theorem setFn_steps (f : Nat) (x : Fn) : (s.setFn f x).steps = s.steps := rfl
@[simp] theorem setFn_reeds (f : Nat) (x : Fn) : (s.setFn f x).reeds = s.reeds := rfl
@[simp] theorem setFn_linksDown (f : Nat) (x : Fn) : (s.setFn f x).linksDown = s.linksDown := rfl
@[simp] theorem setFn_inReset (f : Nat) (x : Fn) : (s.setFn f x).inReset = s.inReset := rfl
@[simp] theorem setFn_handover (f : Nat) (x : Fn) : (s.setFn f x).handover = s.handover := rfl
@[simp] theorem setFn_portLast (f : Nat) (x : Fn) : (s.setFn f x).portLast = s.portLast := rfl
@[simp] theorem setFn_scrubLeft (f : Nat) (x : Fn) : (s.setFn f x).scrubLeft = s.scrubLeft := rfl
@[simp] theorem setFn_scrubSeen (f : Nat) (x : Fn) : (s.setFn f x).scrubSeen = s.scrubSeen := rfl
@[simp] theorem setFn_mbxLast (f : Nat) (x : Fn) : (s.setFn f x).mbxLast = s.mbxLast := rfl
@[simp] theorem setFn_abortsA (f : Nat) (x : Fn) : (s.setFn f x).abortsA = s.abortsA := rfl
@[simp] theorem setFn_abortsB (f : Nat) (x : Fn) : (s.setFn f x).abortsB = s.abortsB := rfl
@[simp] theorem setFn_fwNotices (f : Nat) (x : Fn) : (s.setFn f x).fwNotices = s.fwNotices := rfl
@[simp] theorem setFn_msixSent (f : Nat) (x : Fn) : (s.setFn f x).msixSent = s.msixSent := rfl
@[simp] theorem setFn_reply (f : Nat) (x : Fn) : (s.setFn f x).reply = s.reply := rfl
@[simp] theorem setFn_restarted (f : Nat) (x : Fn) : (s.setFn f x).restarted = s.restarted := rfl
@[simp] theorem setFn_objs (f : Nat) (x : Fn) : (s.setFn f x).objs = s.objs := rfl
@[simp] theorem setFn_swaps (f : Nat) (x : Fn) : (s.setFn f x).swaps = s.swaps := rfl
@[simp] theorem setFn_models (f : Nat) (x : Fn) : (s.setFn f x).models = s.models := rfl
@[simp] theorem setFn_horns (f : Nat) (x : Fn) : (s.setFn f x).horns = s.horns := rfl
@[simp] theorem setFn_dirs (f : Nat) (x : Fn) : (s.setFn f x).dirs = s.dirs := rfl
@[simp] theorem setFn_pubs (f : Nat) (x : Fn) : (s.setFn f x).pubs = s.pubs := rfl
@[simp] theorem setFn_runs (f : Nat) (x : Fn) : (s.setFn f x).runs = s.runs := rfl
@[simp] theorem setFn_serps (f : Nat) (x : Fn) : (s.setFn f x).serps = s.serps := rfl
@[simp] theorem setFn_panps (f : Nat) (x : Fn) : (s.setFn f x).panps = s.panps := rfl
@[simp] theorem setFn_reqs (f : Nat) (x : Fn) : (s.setFn f x).reqs = s.reqs := rfl
@[simp] theorem setFn_reqEvents (f : Nat) (x : Fn) : (s.setFn f x).reqEvents = s.reqEvents := rfl
@[simp] theorem setFn_shedClear (f : Nat) (x : Fn) : (s.setFn f x).shedClear = s.shedClear := rfl
@[simp] theorem setFn_edgeReplies (f : Nat) (x : Fn) : (s.setFn f x).edgeReplies = s.edgeReplies := rfl
@[simp] theorem setFn_sess (f : Nat) (x : Fn) : (s.setFn f x).sess = s.sess := rfl
@[simp] theorem setFn_sessOps (f : Nat) (x : Fn) : (s.setFn f x).sessOps = s.sessOps := rfl
@[simp] theorem setFn_sessLost (f : Nat) (x : Fn) : (s.setFn f x).sessLost = s.sessLost := rfl
@[simp] theorem setFn_pfxs (f : Nat) (x : Fn) : (s.setFn f x).pfxs = s.pfxs := rfl
@[simp] theorem setFn_fwds (f : Nat) (x : Fn) : (s.setFn f x).fwds = s.fwds := rfl
@[simp] theorem setFn_repros (f : Nat) (x : Fn) : (s.setFn f x).repros = s.repros := rfl
@[simp] theorem setFn_bktLast (f : Nat) (x : Fn) : (s.setFn f x).bktLast = s.bktLast := rfl
@[simp] theorem setFn_drones (f : Nat) (x : Fn) : (s.setFn f x).drones = s.drones := rfl
@[simp] theorem setFn_flashDone (f : Nat) (x : Fn) : (s.setFn f x).flashDone = s.flashDone := rfl
@[simp] theorem setFn_faults (f : Nat) (x : Fn) : (s.setFn f x).faults = s.faults := rfl
@[simp] theorem setFn_recov (f : Nat) (x : Fn) : (s.setFn f x).recov = s.recov := rfl
@[simp] theorem setFn_waitFaults (f : Nat) (x : Fn) : (s.setFn f x).waitFaults = s.waitFaults := rfl
@[simp] theorem setFn_trackers (f : Nat) (x : Fn) : (s.setFn f x).trackers = s.trackers := rfl
@[simp] theorem setFn_spareRows (f : Nat) (x : Fn) : (s.setFn f x).spareRows = s.spareRows := rfl
@[simp] theorem setFn_withdrawnBanks (f : Nat) (x : Fn) : (s.setFn f x).withdrawnBanks = s.withdrawnBanks := rfl
@[simp] theorem setFn_ueSeen (f : Nat) (x : Fn) : (s.setFn f x).ueSeen = s.ueSeen := rfl
@[simp] theorem setFn_dramSpare (f : Nat) (x : Fn) : (s.setFn f x).dramSpare = s.dramSpare := rfl
@[simp] theorem setFn_withheld (f : Nat) (x : Fn) : (s.setFn f x).withheld = s.withheld := rfl
@[simp] theorem setFn_health (f : Nat) (x : Fn) : (s.setFn f x).health = s.health := rfl
@[simp] theorem setFn_healthAge (f : Nat) (x : Fn) : (s.setFn f x).healthAge = s.healthAge := rfl
@[simp] theorem setFn_monDelay (f : Nat) (x : Fn) : (s.setFn f x).monDelay = s.monDelay := rfl
@[simp] theorem setFn_coresOut (f : Nat) (x : Fn) : (s.setFn f x).coresOut = s.coresOut := rfl
@[simp] theorem setFn_retrains (f : Nat) (x : Fn) : (s.setFn f x).retrains = s.retrains := rfl
@[simp] theorem setFn_linkReplay (f : Nat) (x : Fn) : (s.setFn f x).linkReplay = s.linkReplay := rfl
@[simp] theorem setFn_sec (f : Nat) (x : Fn) : (s.setFn f x).sec = s.sec := rfl
@[simp] theorem setFn_pwr (f : Nat) (x : Fn) : (s.setFn f x).pwr = s.pwr := rfl
@[simp] theorem setFn_mgmt (f : Nat) (x : Fn) : (s.setFn f x).mgmt = s.mgmt := rfl
@[simp] theorem setFn_bist (f : Nat) (x : Fn) : (s.setFn f x).bist = s.bist := rfl
@[simp] theorem setFn_spareOk (f : Nat) (x : Fn) : (s.setFn f x).spareOk = s.spareOk := rfl

/-! ### setMgmt -/

@[simp] theorem setMgmt_pending (m : Mgmt) : (s.setMgmt m).pending = s.pending := rfl
@[simp] theorem setMgmt_regs (m : Mgmt) : (s.setMgmt m).regs = s.regs := rfl
@[simp] theorem setMgmt_cnt (m : Mgmt) : (s.setMgmt m).cnt = s.cnt := rfl
@[simp] theorem setMgmt_cntHi (m : Mgmt) : (s.setMgmt m).cntHi = s.cntHi := rfl
@[simp] theorem setMgmt_mem (m : Mgmt) : (s.setMgmt m).mem = s.mem := rfl
@[simp] theorem setMgmt_flip (m : Mgmt) : (s.setMgmt m).flip = s.flip := rfl
@[simp] theorem setMgmt_hostMem (m : Mgmt) : (s.setMgmt m).hostMem = s.hostMem := rfl
@[simp] theorem setMgmt_readData (m : Mgmt) : (s.setMgmt m).readData = s.readData := rfl
@[simp] theorem setMgmt_freeCtr (m : Mgmt) : (s.setMgmt m).freeCtr = s.freeCtr := rfl
@[simp] theorem setMgmt_breath (m : Mgmt) : (s.setMgmt m).breath = s.breath := rfl
@[simp] theorem setMgmt_steps (m : Mgmt) : (s.setMgmt m).steps = s.steps := rfl
@[simp] theorem setMgmt_reeds (m : Mgmt) : (s.setMgmt m).reeds = s.reeds := rfl
@[simp] theorem setMgmt_linksDown (m : Mgmt) : (s.setMgmt m).linksDown = s.linksDown := rfl
@[simp] theorem setMgmt_inReset (m : Mgmt) : (s.setMgmt m).inReset = s.inReset := rfl
@[simp] theorem setMgmt_handover (m : Mgmt) : (s.setMgmt m).handover = s.handover := rfl
@[simp] theorem setMgmt_portLast (m : Mgmt) : (s.setMgmt m).portLast = s.portLast := rfl
@[simp] theorem setMgmt_scrubLeft (m : Mgmt) : (s.setMgmt m).scrubLeft = s.scrubLeft := rfl
@[simp] theorem setMgmt_scrubSeen (m : Mgmt) : (s.setMgmt m).scrubSeen = s.scrubSeen := rfl
@[simp] theorem setMgmt_fns (m : Mgmt) : (s.setMgmt m).fns = s.fns := rfl
@[simp] theorem setMgmt_mbxLast (m : Mgmt) : (s.setMgmt m).mbxLast = s.mbxLast := rfl
@[simp] theorem setMgmt_abortsA (m : Mgmt) : (s.setMgmt m).abortsA = s.abortsA := rfl
@[simp] theorem setMgmt_abortsB (m : Mgmt) : (s.setMgmt m).abortsB = s.abortsB := rfl
@[simp] theorem setMgmt_fwNotices (m : Mgmt) : (s.setMgmt m).fwNotices = s.fwNotices := rfl
@[simp] theorem setMgmt_msixSent (m : Mgmt) : (s.setMgmt m).msixSent = s.msixSent := rfl
@[simp] theorem setMgmt_reply (m : Mgmt) : (s.setMgmt m).reply = s.reply := rfl
@[simp] theorem setMgmt_restarted (m : Mgmt) : (s.setMgmt m).restarted = s.restarted := rfl
@[simp] theorem setMgmt_objs (m : Mgmt) : (s.setMgmt m).objs = s.objs := rfl
@[simp] theorem setMgmt_swaps (m : Mgmt) : (s.setMgmt m).swaps = s.swaps := rfl
@[simp] theorem setMgmt_models (m : Mgmt) : (s.setMgmt m).models = s.models := rfl
@[simp] theorem setMgmt_horns (m : Mgmt) : (s.setMgmt m).horns = s.horns := rfl
@[simp] theorem setMgmt_dirs (m : Mgmt) : (s.setMgmt m).dirs = s.dirs := rfl
@[simp] theorem setMgmt_pubs (m : Mgmt) : (s.setMgmt m).pubs = s.pubs := rfl
@[simp] theorem setMgmt_runs (m : Mgmt) : (s.setMgmt m).runs = s.runs := rfl
@[simp] theorem setMgmt_serps (m : Mgmt) : (s.setMgmt m).serps = s.serps := rfl
@[simp] theorem setMgmt_panps (m : Mgmt) : (s.setMgmt m).panps = s.panps := rfl
@[simp] theorem setMgmt_reqs (m : Mgmt) : (s.setMgmt m).reqs = s.reqs := rfl
@[simp] theorem setMgmt_reqEvents (m : Mgmt) : (s.setMgmt m).reqEvents = s.reqEvents := rfl
@[simp] theorem setMgmt_shedClear (m : Mgmt) : (s.setMgmt m).shedClear = s.shedClear := rfl
@[simp] theorem setMgmt_edgeReplies (m : Mgmt) : (s.setMgmt m).edgeReplies = s.edgeReplies := rfl
@[simp] theorem setMgmt_sess (m : Mgmt) : (s.setMgmt m).sess = s.sess := rfl
@[simp] theorem setMgmt_sessOps (m : Mgmt) : (s.setMgmt m).sessOps = s.sessOps := rfl
@[simp] theorem setMgmt_sessLost (m : Mgmt) : (s.setMgmt m).sessLost = s.sessLost := rfl
@[simp] theorem setMgmt_pfxs (m : Mgmt) : (s.setMgmt m).pfxs = s.pfxs := rfl
@[simp] theorem setMgmt_fwds (m : Mgmt) : (s.setMgmt m).fwds = s.fwds := rfl
@[simp] theorem setMgmt_repros (m : Mgmt) : (s.setMgmt m).repros = s.repros := rfl
@[simp] theorem setMgmt_bktLast (m : Mgmt) : (s.setMgmt m).bktLast = s.bktLast := rfl
@[simp] theorem setMgmt_drones (m : Mgmt) : (s.setMgmt m).drones = s.drones := rfl
@[simp] theorem setMgmt_flashDone (m : Mgmt) : (s.setMgmt m).flashDone = s.flashDone := rfl
@[simp] theorem setMgmt_faults (m : Mgmt) : (s.setMgmt m).faults = s.faults := rfl
@[simp] theorem setMgmt_recov (m : Mgmt) : (s.setMgmt m).recov = s.recov := rfl
@[simp] theorem setMgmt_waitFaults (m : Mgmt) : (s.setMgmt m).waitFaults = s.waitFaults := rfl
@[simp] theorem setMgmt_trackers (m : Mgmt) : (s.setMgmt m).trackers = s.trackers := rfl
@[simp] theorem setMgmt_spareRows (m : Mgmt) : (s.setMgmt m).spareRows = s.spareRows := rfl
@[simp] theorem setMgmt_withdrawnBanks (m : Mgmt) : (s.setMgmt m).withdrawnBanks = s.withdrawnBanks := rfl
@[simp] theorem setMgmt_ueSeen (m : Mgmt) : (s.setMgmt m).ueSeen = s.ueSeen := rfl
@[simp] theorem setMgmt_dramSpare (m : Mgmt) : (s.setMgmt m).dramSpare = s.dramSpare := rfl
@[simp] theorem setMgmt_withheld (m : Mgmt) : (s.setMgmt m).withheld = s.withheld := rfl
@[simp] theorem setMgmt_health (m : Mgmt) : (s.setMgmt m).health = s.health := rfl
@[simp] theorem setMgmt_healthAge (m : Mgmt) : (s.setMgmt m).healthAge = s.healthAge := rfl
@[simp] theorem setMgmt_monDelay (m : Mgmt) : (s.setMgmt m).monDelay = s.monDelay := rfl
@[simp] theorem setMgmt_coresOut (m : Mgmt) : (s.setMgmt m).coresOut = s.coresOut := rfl
@[simp] theorem setMgmt_retrains (m : Mgmt) : (s.setMgmt m).retrains = s.retrains := rfl
@[simp] theorem setMgmt_linkReplay (m : Mgmt) : (s.setMgmt m).linkReplay = s.linkReplay := rfl
@[simp] theorem setMgmt_sec (m : Mgmt) : (s.setMgmt m).sec = s.sec := rfl
@[simp] theorem setMgmt_pwr (m : Mgmt) : (s.setMgmt m).pwr = s.pwr := rfl
@[simp] theorem setMgmt_bist (m : Mgmt) : (s.setMgmt m).bist = s.bist := rfl
@[simp] theorem setMgmt_spareOk (m : Mgmt) : (s.setMgmt m).spareOk = s.spareOk := rfl

/-! ### setPfx -/

@[simp] theorem setPfx_pending (p : Nat) (x : Option Pfx) : (s.setPfx p x).pending = s.pending := rfl
@[simp] theorem setPfx_regs (p : Nat) (x : Option Pfx) : (s.setPfx p x).regs = s.regs := rfl
@[simp] theorem setPfx_cnt (p : Nat) (x : Option Pfx) : (s.setPfx p x).cnt = s.cnt := rfl
@[simp] theorem setPfx_cntHi (p : Nat) (x : Option Pfx) : (s.setPfx p x).cntHi = s.cntHi := rfl
@[simp] theorem setPfx_mem (p : Nat) (x : Option Pfx) : (s.setPfx p x).mem = s.mem := rfl
@[simp] theorem setPfx_flip (p : Nat) (x : Option Pfx) : (s.setPfx p x).flip = s.flip := rfl
@[simp] theorem setPfx_hostMem (p : Nat) (x : Option Pfx) : (s.setPfx p x).hostMem = s.hostMem := rfl
@[simp] theorem setPfx_readData (p : Nat) (x : Option Pfx) : (s.setPfx p x).readData = s.readData := rfl
@[simp] theorem setPfx_freeCtr (p : Nat) (x : Option Pfx) : (s.setPfx p x).freeCtr = s.freeCtr := rfl
@[simp] theorem setPfx_breath (p : Nat) (x : Option Pfx) : (s.setPfx p x).breath = s.breath := rfl
@[simp] theorem setPfx_steps (p : Nat) (x : Option Pfx) : (s.setPfx p x).steps = s.steps := rfl
@[simp] theorem setPfx_reeds (p : Nat) (x : Option Pfx) : (s.setPfx p x).reeds = s.reeds := rfl
@[simp] theorem setPfx_linksDown (p : Nat) (x : Option Pfx) : (s.setPfx p x).linksDown = s.linksDown := rfl
@[simp] theorem setPfx_inReset (p : Nat) (x : Option Pfx) : (s.setPfx p x).inReset = s.inReset := rfl
@[simp] theorem setPfx_handover (p : Nat) (x : Option Pfx) : (s.setPfx p x).handover = s.handover := rfl
@[simp] theorem setPfx_portLast (p : Nat) (x : Option Pfx) : (s.setPfx p x).portLast = s.portLast := rfl
@[simp] theorem setPfx_scrubLeft (p : Nat) (x : Option Pfx) : (s.setPfx p x).scrubLeft = s.scrubLeft := rfl
@[simp] theorem setPfx_scrubSeen (p : Nat) (x : Option Pfx) : (s.setPfx p x).scrubSeen = s.scrubSeen := rfl
@[simp] theorem setPfx_fns (p : Nat) (x : Option Pfx) : (s.setPfx p x).fns = s.fns := rfl
@[simp] theorem setPfx_mbxLast (p : Nat) (x : Option Pfx) : (s.setPfx p x).mbxLast = s.mbxLast := rfl
@[simp] theorem setPfx_abortsA (p : Nat) (x : Option Pfx) : (s.setPfx p x).abortsA = s.abortsA := rfl
@[simp] theorem setPfx_abortsB (p : Nat) (x : Option Pfx) : (s.setPfx p x).abortsB = s.abortsB := rfl
@[simp] theorem setPfx_fwNotices (p : Nat) (x : Option Pfx) : (s.setPfx p x).fwNotices = s.fwNotices := rfl
@[simp] theorem setPfx_msixSent (p : Nat) (x : Option Pfx) : (s.setPfx p x).msixSent = s.msixSent := rfl
@[simp] theorem setPfx_reply (p : Nat) (x : Option Pfx) : (s.setPfx p x).reply = s.reply := rfl
@[simp] theorem setPfx_restarted (p : Nat) (x : Option Pfx) : (s.setPfx p x).restarted = s.restarted := rfl
@[simp] theorem setPfx_objs (p : Nat) (x : Option Pfx) : (s.setPfx p x).objs = s.objs := rfl
@[simp] theorem setPfx_swaps (p : Nat) (x : Option Pfx) : (s.setPfx p x).swaps = s.swaps := rfl
@[simp] theorem setPfx_models (p : Nat) (x : Option Pfx) : (s.setPfx p x).models = s.models := rfl
@[simp] theorem setPfx_horns (p : Nat) (x : Option Pfx) : (s.setPfx p x).horns = s.horns := rfl
@[simp] theorem setPfx_dirs (p : Nat) (x : Option Pfx) : (s.setPfx p x).dirs = s.dirs := rfl
@[simp] theorem setPfx_pubs (p : Nat) (x : Option Pfx) : (s.setPfx p x).pubs = s.pubs := rfl
@[simp] theorem setPfx_runs (p : Nat) (x : Option Pfx) : (s.setPfx p x).runs = s.runs := rfl
@[simp] theorem setPfx_serps (p : Nat) (x : Option Pfx) : (s.setPfx p x).serps = s.serps := rfl
@[simp] theorem setPfx_panps (p : Nat) (x : Option Pfx) : (s.setPfx p x).panps = s.panps := rfl
@[simp] theorem setPfx_reqs (p : Nat) (x : Option Pfx) : (s.setPfx p x).reqs = s.reqs := rfl
@[simp] theorem setPfx_reqEvents (p : Nat) (x : Option Pfx) : (s.setPfx p x).reqEvents = s.reqEvents := rfl
@[simp] theorem setPfx_shedClear (p : Nat) (x : Option Pfx) : (s.setPfx p x).shedClear = s.shedClear := rfl
@[simp] theorem setPfx_edgeReplies (p : Nat) (x : Option Pfx) : (s.setPfx p x).edgeReplies = s.edgeReplies := rfl
@[simp] theorem setPfx_sess (p : Nat) (x : Option Pfx) : (s.setPfx p x).sess = s.sess := rfl
@[simp] theorem setPfx_sessOps (p : Nat) (x : Option Pfx) : (s.setPfx p x).sessOps = s.sessOps := rfl
@[simp] theorem setPfx_sessLost (p : Nat) (x : Option Pfx) : (s.setPfx p x).sessLost = s.sessLost := rfl
@[simp] theorem setPfx_fwds (p : Nat) (x : Option Pfx) : (s.setPfx p x).fwds = s.fwds := rfl
@[simp] theorem setPfx_repros (p : Nat) (x : Option Pfx) : (s.setPfx p x).repros = s.repros := rfl
@[simp] theorem setPfx_bktLast (p : Nat) (x : Option Pfx) : (s.setPfx p x).bktLast = s.bktLast := rfl
@[simp] theorem setPfx_drones (p : Nat) (x : Option Pfx) : (s.setPfx p x).drones = s.drones := rfl
@[simp] theorem setPfx_flashDone (p : Nat) (x : Option Pfx) : (s.setPfx p x).flashDone = s.flashDone := rfl
@[simp] theorem setPfx_faults (p : Nat) (x : Option Pfx) : (s.setPfx p x).faults = s.faults := rfl
@[simp] theorem setPfx_recov (p : Nat) (x : Option Pfx) : (s.setPfx p x).recov = s.recov := rfl
@[simp] theorem setPfx_waitFaults (p : Nat) (x : Option Pfx) : (s.setPfx p x).waitFaults = s.waitFaults := rfl
@[simp] theorem setPfx_trackers (p : Nat) (x : Option Pfx) : (s.setPfx p x).trackers = s.trackers := rfl
@[simp] theorem setPfx_spareRows (p : Nat) (x : Option Pfx) : (s.setPfx p x).spareRows = s.spareRows := rfl
@[simp] theorem setPfx_withdrawnBanks (p : Nat) (x : Option Pfx) : (s.setPfx p x).withdrawnBanks = s.withdrawnBanks := rfl
@[simp] theorem setPfx_ueSeen (p : Nat) (x : Option Pfx) : (s.setPfx p x).ueSeen = s.ueSeen := rfl
@[simp] theorem setPfx_dramSpare (p : Nat) (x : Option Pfx) : (s.setPfx p x).dramSpare = s.dramSpare := rfl
@[simp] theorem setPfx_withheld (p : Nat) (x : Option Pfx) : (s.setPfx p x).withheld = s.withheld := rfl
@[simp] theorem setPfx_health (p : Nat) (x : Option Pfx) : (s.setPfx p x).health = s.health := rfl
@[simp] theorem setPfx_healthAge (p : Nat) (x : Option Pfx) : (s.setPfx p x).healthAge = s.healthAge := rfl
@[simp] theorem setPfx_monDelay (p : Nat) (x : Option Pfx) : (s.setPfx p x).monDelay = s.monDelay := rfl
@[simp] theorem setPfx_coresOut (p : Nat) (x : Option Pfx) : (s.setPfx p x).coresOut = s.coresOut := rfl
@[simp] theorem setPfx_retrains (p : Nat) (x : Option Pfx) : (s.setPfx p x).retrains = s.retrains := rfl
@[simp] theorem setPfx_linkReplay (p : Nat) (x : Option Pfx) : (s.setPfx p x).linkReplay = s.linkReplay := rfl
@[simp] theorem setPfx_sec (p : Nat) (x : Option Pfx) : (s.setPfx p x).sec = s.sec := rfl
@[simp] theorem setPfx_pwr (p : Nat) (x : Option Pfx) : (s.setPfx p x).pwr = s.pwr := rfl
@[simp] theorem setPfx_mgmt (p : Nat) (x : Option Pfx) : (s.setPfx p x).mgmt = s.mgmt := rfl
@[simp] theorem setPfx_bist (p : Nat) (x : Option Pfx) : (s.setPfx p x).bist = s.bist := rfl
@[simp] theorem setPfx_spareOk (p : Nat) (x : Option Pfx) : (s.setPfx p x).spareOk = s.spareOk := rfl

/-! ### setPanp -/

@[simp] theorem setPanp_pending (die : Nat) (x : Panpipe) : (s.setPanp die x).pending = s.pending := rfl
@[simp] theorem setPanp_regs (die : Nat) (x : Panpipe) : (s.setPanp die x).regs = s.regs := rfl
@[simp] theorem setPanp_cnt (die : Nat) (x : Panpipe) : (s.setPanp die x).cnt = s.cnt := rfl
@[simp] theorem setPanp_cntHi (die : Nat) (x : Panpipe) : (s.setPanp die x).cntHi = s.cntHi := rfl
@[simp] theorem setPanp_mem (die : Nat) (x : Panpipe) : (s.setPanp die x).mem = s.mem := rfl
@[simp] theorem setPanp_flip (die : Nat) (x : Panpipe) : (s.setPanp die x).flip = s.flip := rfl
@[simp] theorem setPanp_hostMem (die : Nat) (x : Panpipe) : (s.setPanp die x).hostMem = s.hostMem := rfl
@[simp] theorem setPanp_readData (die : Nat) (x : Panpipe) : (s.setPanp die x).readData = s.readData := rfl
@[simp] theorem setPanp_freeCtr (die : Nat) (x : Panpipe) : (s.setPanp die x).freeCtr = s.freeCtr := rfl
@[simp] theorem setPanp_breath (die : Nat) (x : Panpipe) : (s.setPanp die x).breath = s.breath := rfl
@[simp] theorem setPanp_steps (die : Nat) (x : Panpipe) : (s.setPanp die x).steps = s.steps := rfl
@[simp] theorem setPanp_reeds (die : Nat) (x : Panpipe) : (s.setPanp die x).reeds = s.reeds := rfl
@[simp] theorem setPanp_linksDown (die : Nat) (x : Panpipe) : (s.setPanp die x).linksDown = s.linksDown := rfl
@[simp] theorem setPanp_inReset (die : Nat) (x : Panpipe) : (s.setPanp die x).inReset = s.inReset := rfl
@[simp] theorem setPanp_handover (die : Nat) (x : Panpipe) : (s.setPanp die x).handover = s.handover := rfl
@[simp] theorem setPanp_portLast (die : Nat) (x : Panpipe) : (s.setPanp die x).portLast = s.portLast := rfl
@[simp] theorem setPanp_scrubLeft (die : Nat) (x : Panpipe) : (s.setPanp die x).scrubLeft = s.scrubLeft := rfl
@[simp] theorem setPanp_scrubSeen (die : Nat) (x : Panpipe) : (s.setPanp die x).scrubSeen = s.scrubSeen := rfl
@[simp] theorem setPanp_fns (die : Nat) (x : Panpipe) : (s.setPanp die x).fns = s.fns := rfl
@[simp] theorem setPanp_mbxLast (die : Nat) (x : Panpipe) : (s.setPanp die x).mbxLast = s.mbxLast := rfl
@[simp] theorem setPanp_abortsA (die : Nat) (x : Panpipe) : (s.setPanp die x).abortsA = s.abortsA := rfl
@[simp] theorem setPanp_abortsB (die : Nat) (x : Panpipe) : (s.setPanp die x).abortsB = s.abortsB := rfl
@[simp] theorem setPanp_fwNotices (die : Nat) (x : Panpipe) : (s.setPanp die x).fwNotices = s.fwNotices := rfl
@[simp] theorem setPanp_msixSent (die : Nat) (x : Panpipe) : (s.setPanp die x).msixSent = s.msixSent := rfl
@[simp] theorem setPanp_reply (die : Nat) (x : Panpipe) : (s.setPanp die x).reply = s.reply := rfl
@[simp] theorem setPanp_restarted (die : Nat) (x : Panpipe) : (s.setPanp die x).restarted = s.restarted := rfl
@[simp] theorem setPanp_objs (die : Nat) (x : Panpipe) : (s.setPanp die x).objs = s.objs := rfl
@[simp] theorem setPanp_swaps (die : Nat) (x : Panpipe) : (s.setPanp die x).swaps = s.swaps := rfl
@[simp] theorem setPanp_models (die : Nat) (x : Panpipe) : (s.setPanp die x).models = s.models := rfl
@[simp] theorem setPanp_horns (die : Nat) (x : Panpipe) : (s.setPanp die x).horns = s.horns := rfl
@[simp] theorem setPanp_dirs (die : Nat) (x : Panpipe) : (s.setPanp die x).dirs = s.dirs := rfl
@[simp] theorem setPanp_pubs (die : Nat) (x : Panpipe) : (s.setPanp die x).pubs = s.pubs := rfl
@[simp] theorem setPanp_runs (die : Nat) (x : Panpipe) : (s.setPanp die x).runs = s.runs := rfl
@[simp] theorem setPanp_serps (die : Nat) (x : Panpipe) : (s.setPanp die x).serps = s.serps := rfl
@[simp] theorem setPanp_reqs (die : Nat) (x : Panpipe) : (s.setPanp die x).reqs = s.reqs := rfl
@[simp] theorem setPanp_reqEvents (die : Nat) (x : Panpipe) : (s.setPanp die x).reqEvents = s.reqEvents := rfl
@[simp] theorem setPanp_shedClear (die : Nat) (x : Panpipe) : (s.setPanp die x).shedClear = s.shedClear := rfl
@[simp] theorem setPanp_edgeReplies (die : Nat) (x : Panpipe) : (s.setPanp die x).edgeReplies = s.edgeReplies := rfl
@[simp] theorem setPanp_sess (die : Nat) (x : Panpipe) : (s.setPanp die x).sess = s.sess := rfl
@[simp] theorem setPanp_sessOps (die : Nat) (x : Panpipe) : (s.setPanp die x).sessOps = s.sessOps := rfl
@[simp] theorem setPanp_sessLost (die : Nat) (x : Panpipe) : (s.setPanp die x).sessLost = s.sessLost := rfl
@[simp] theorem setPanp_pfxs (die : Nat) (x : Panpipe) : (s.setPanp die x).pfxs = s.pfxs := rfl
@[simp] theorem setPanp_fwds (die : Nat) (x : Panpipe) : (s.setPanp die x).fwds = s.fwds := rfl
@[simp] theorem setPanp_repros (die : Nat) (x : Panpipe) : (s.setPanp die x).repros = s.repros := rfl
@[simp] theorem setPanp_bktLast (die : Nat) (x : Panpipe) : (s.setPanp die x).bktLast = s.bktLast := rfl
@[simp] theorem setPanp_drones (die : Nat) (x : Panpipe) : (s.setPanp die x).drones = s.drones := rfl
@[simp] theorem setPanp_flashDone (die : Nat) (x : Panpipe) : (s.setPanp die x).flashDone = s.flashDone := rfl
@[simp] theorem setPanp_faults (die : Nat) (x : Panpipe) : (s.setPanp die x).faults = s.faults := rfl
@[simp] theorem setPanp_recov (die : Nat) (x : Panpipe) : (s.setPanp die x).recov = s.recov := rfl
@[simp] theorem setPanp_waitFaults (die : Nat) (x : Panpipe) : (s.setPanp die x).waitFaults = s.waitFaults := rfl
@[simp] theorem setPanp_trackers (die : Nat) (x : Panpipe) : (s.setPanp die x).trackers = s.trackers := rfl
@[simp] theorem setPanp_spareRows (die : Nat) (x : Panpipe) : (s.setPanp die x).spareRows = s.spareRows := rfl
@[simp] theorem setPanp_withdrawnBanks (die : Nat) (x : Panpipe) : (s.setPanp die x).withdrawnBanks = s.withdrawnBanks := rfl
@[simp] theorem setPanp_ueSeen (die : Nat) (x : Panpipe) : (s.setPanp die x).ueSeen = s.ueSeen := rfl
@[simp] theorem setPanp_dramSpare (die : Nat) (x : Panpipe) : (s.setPanp die x).dramSpare = s.dramSpare := rfl
@[simp] theorem setPanp_withheld (die : Nat) (x : Panpipe) : (s.setPanp die x).withheld = s.withheld := rfl
@[simp] theorem setPanp_health (die : Nat) (x : Panpipe) : (s.setPanp die x).health = s.health := rfl
@[simp] theorem setPanp_healthAge (die : Nat) (x : Panpipe) : (s.setPanp die x).healthAge = s.healthAge := rfl
@[simp] theorem setPanp_monDelay (die : Nat) (x : Panpipe) : (s.setPanp die x).monDelay = s.monDelay := rfl
@[simp] theorem setPanp_coresOut (die : Nat) (x : Panpipe) : (s.setPanp die x).coresOut = s.coresOut := rfl
@[simp] theorem setPanp_retrains (die : Nat) (x : Panpipe) : (s.setPanp die x).retrains = s.retrains := rfl
@[simp] theorem setPanp_linkReplay (die : Nat) (x : Panpipe) : (s.setPanp die x).linkReplay = s.linkReplay := rfl
@[simp] theorem setPanp_sec (die : Nat) (x : Panpipe) : (s.setPanp die x).sec = s.sec := rfl
@[simp] theorem setPanp_pwr (die : Nat) (x : Panpipe) : (s.setPanp die x).pwr = s.pwr := rfl
@[simp] theorem setPanp_mgmt (die : Nat) (x : Panpipe) : (s.setPanp die x).mgmt = s.mgmt := rfl
@[simp] theorem setPanp_bist (die : Nat) (x : Panpipe) : (s.setPanp die x).bist = s.bist := rfl
@[simp] theorem setPanp_spareOk (die : Nat) (x : Panpipe) : (s.setPanp die x).spareOk = s.spareOk := rfl

/-! ### setSerp -/

@[simp] theorem setSerp_pending (die : Nat) (x : Serpent) : (s.setSerp die x).pending = s.pending := rfl
@[simp] theorem setSerp_cnt (die : Nat) (x : Serpent) : (s.setSerp die x).cnt = s.cnt := rfl
@[simp] theorem setSerp_cntHi (die : Nat) (x : Serpent) : (s.setSerp die x).cntHi = s.cntHi := rfl
@[simp] theorem setSerp_mem (die : Nat) (x : Serpent) : (s.setSerp die x).mem = s.mem := rfl
@[simp] theorem setSerp_flip (die : Nat) (x : Serpent) : (s.setSerp die x).flip = s.flip := rfl
@[simp] theorem setSerp_hostMem (die : Nat) (x : Serpent) : (s.setSerp die x).hostMem = s.hostMem := rfl
@[simp] theorem setSerp_readData (die : Nat) (x : Serpent) : (s.setSerp die x).readData = s.readData := rfl
@[simp] theorem setSerp_freeCtr (die : Nat) (x : Serpent) : (s.setSerp die x).freeCtr = s.freeCtr := rfl
@[simp] theorem setSerp_breath (die : Nat) (x : Serpent) : (s.setSerp die x).breath = s.breath := rfl
@[simp] theorem setSerp_steps (die : Nat) (x : Serpent) : (s.setSerp die x).steps = s.steps := rfl
@[simp] theorem setSerp_reeds (die : Nat) (x : Serpent) : (s.setSerp die x).reeds = s.reeds := rfl
@[simp] theorem setSerp_linksDown (die : Nat) (x : Serpent) : (s.setSerp die x).linksDown = s.linksDown := rfl
@[simp] theorem setSerp_inReset (die : Nat) (x : Serpent) : (s.setSerp die x).inReset = s.inReset := rfl
@[simp] theorem setSerp_handover (die : Nat) (x : Serpent) : (s.setSerp die x).handover = s.handover := rfl
@[simp] theorem setSerp_portLast (die : Nat) (x : Serpent) : (s.setSerp die x).portLast = s.portLast := rfl
@[simp] theorem setSerp_scrubLeft (die : Nat) (x : Serpent) : (s.setSerp die x).scrubLeft = s.scrubLeft := rfl
@[simp] theorem setSerp_scrubSeen (die : Nat) (x : Serpent) : (s.setSerp die x).scrubSeen = s.scrubSeen := rfl
@[simp] theorem setSerp_fns (die : Nat) (x : Serpent) : (s.setSerp die x).fns = s.fns := rfl
@[simp] theorem setSerp_mbxLast (die : Nat) (x : Serpent) : (s.setSerp die x).mbxLast = s.mbxLast := rfl
@[simp] theorem setSerp_abortsA (die : Nat) (x : Serpent) : (s.setSerp die x).abortsA = s.abortsA := rfl
@[simp] theorem setSerp_abortsB (die : Nat) (x : Serpent) : (s.setSerp die x).abortsB = s.abortsB := rfl
@[simp] theorem setSerp_fwNotices (die : Nat) (x : Serpent) : (s.setSerp die x).fwNotices = s.fwNotices := rfl
@[simp] theorem setSerp_msixSent (die : Nat) (x : Serpent) : (s.setSerp die x).msixSent = s.msixSent := rfl
@[simp] theorem setSerp_reply (die : Nat) (x : Serpent) : (s.setSerp die x).reply = s.reply := rfl
@[simp] theorem setSerp_restarted (die : Nat) (x : Serpent) : (s.setSerp die x).restarted = s.restarted := rfl
@[simp] theorem setSerp_objs (die : Nat) (x : Serpent) : (s.setSerp die x).objs = s.objs := rfl
@[simp] theorem setSerp_swaps (die : Nat) (x : Serpent) : (s.setSerp die x).swaps = s.swaps := rfl
@[simp] theorem setSerp_models (die : Nat) (x : Serpent) : (s.setSerp die x).models = s.models := rfl
@[simp] theorem setSerp_horns (die : Nat) (x : Serpent) : (s.setSerp die x).horns = s.horns := rfl
@[simp] theorem setSerp_dirs (die : Nat) (x : Serpent) : (s.setSerp die x).dirs = s.dirs := rfl
@[simp] theorem setSerp_pubs (die : Nat) (x : Serpent) : (s.setSerp die x).pubs = s.pubs := rfl
@[simp] theorem setSerp_runs (die : Nat) (x : Serpent) : (s.setSerp die x).runs = s.runs := rfl
@[simp] theorem setSerp_panps (die : Nat) (x : Serpent) : (s.setSerp die x).panps = s.panps := rfl
@[simp] theorem setSerp_reqs (die : Nat) (x : Serpent) : (s.setSerp die x).reqs = s.reqs := rfl
@[simp] theorem setSerp_reqEvents (die : Nat) (x : Serpent) : (s.setSerp die x).reqEvents = s.reqEvents := rfl
@[simp] theorem setSerp_shedClear (die : Nat) (x : Serpent) : (s.setSerp die x).shedClear = s.shedClear := rfl
@[simp] theorem setSerp_edgeReplies (die : Nat) (x : Serpent) : (s.setSerp die x).edgeReplies = s.edgeReplies := rfl
@[simp] theorem setSerp_sess (die : Nat) (x : Serpent) : (s.setSerp die x).sess = s.sess := rfl
@[simp] theorem setSerp_sessOps (die : Nat) (x : Serpent) : (s.setSerp die x).sessOps = s.sessOps := rfl
@[simp] theorem setSerp_sessLost (die : Nat) (x : Serpent) : (s.setSerp die x).sessLost = s.sessLost := rfl
@[simp] theorem setSerp_pfxs (die : Nat) (x : Serpent) : (s.setSerp die x).pfxs = s.pfxs := rfl
@[simp] theorem setSerp_fwds (die : Nat) (x : Serpent) : (s.setSerp die x).fwds = s.fwds := rfl
@[simp] theorem setSerp_repros (die : Nat) (x : Serpent) : (s.setSerp die x).repros = s.repros := rfl
@[simp] theorem setSerp_bktLast (die : Nat) (x : Serpent) : (s.setSerp die x).bktLast = s.bktLast := rfl
@[simp] theorem setSerp_drones (die : Nat) (x : Serpent) : (s.setSerp die x).drones = s.drones := rfl
@[simp] theorem setSerp_flashDone (die : Nat) (x : Serpent) : (s.setSerp die x).flashDone = s.flashDone := rfl
@[simp] theorem setSerp_faults (die : Nat) (x : Serpent) : (s.setSerp die x).faults = s.faults := rfl
@[simp] theorem setSerp_recov (die : Nat) (x : Serpent) : (s.setSerp die x).recov = s.recov := rfl
@[simp] theorem setSerp_waitFaults (die : Nat) (x : Serpent) : (s.setSerp die x).waitFaults = s.waitFaults := rfl
@[simp] theorem setSerp_trackers (die : Nat) (x : Serpent) : (s.setSerp die x).trackers = s.trackers := rfl
@[simp] theorem setSerp_spareRows (die : Nat) (x : Serpent) : (s.setSerp die x).spareRows = s.spareRows := rfl
@[simp] theorem setSerp_withdrawnBanks (die : Nat) (x : Serpent) : (s.setSerp die x).withdrawnBanks = s.withdrawnBanks := rfl
@[simp] theorem setSerp_ueSeen (die : Nat) (x : Serpent) : (s.setSerp die x).ueSeen = s.ueSeen := rfl
@[simp] theorem setSerp_dramSpare (die : Nat) (x : Serpent) : (s.setSerp die x).dramSpare = s.dramSpare := rfl
@[simp] theorem setSerp_withheld (die : Nat) (x : Serpent) : (s.setSerp die x).withheld = s.withheld := rfl
@[simp] theorem setSerp_health (die : Nat) (x : Serpent) : (s.setSerp die x).health = s.health := rfl
@[simp] theorem setSerp_healthAge (die : Nat) (x : Serpent) : (s.setSerp die x).healthAge = s.healthAge := rfl
@[simp] theorem setSerp_monDelay (die : Nat) (x : Serpent) : (s.setSerp die x).monDelay = s.monDelay := rfl
@[simp] theorem setSerp_coresOut (die : Nat) (x : Serpent) : (s.setSerp die x).coresOut = s.coresOut := rfl
@[simp] theorem setSerp_retrains (die : Nat) (x : Serpent) : (s.setSerp die x).retrains = s.retrains := rfl
@[simp] theorem setSerp_linkReplay (die : Nat) (x : Serpent) : (s.setSerp die x).linkReplay = s.linkReplay := rfl
@[simp] theorem setSerp_sec (die : Nat) (x : Serpent) : (s.setSerp die x).sec = s.sec := rfl
@[simp] theorem setSerp_pwr (die : Nat) (x : Serpent) : (s.setSerp die x).pwr = s.pwr := rfl
@[simp] theorem setSerp_mgmt (die : Nat) (x : Serpent) : (s.setSerp die x).mgmt = s.mgmt := rfl
@[simp] theorem setSerp_bist (die : Nat) (x : Serpent) : (s.setSerp die x).bist = s.bist := rfl
@[simp] theorem setSerp_spareOk (die : Nat) (x : Serpent) : (s.setSerp die x).spareOk = s.spareOk := rfl

/-! ### setDrone -/

@[simp] theorem setDrone_pending (d : Nat) (x : Drone) : (s.setDrone d x).pending = s.pending := rfl
@[simp] theorem setDrone_regs (d : Nat) (x : Drone) : (s.setDrone d x).regs = s.regs := rfl
@[simp] theorem setDrone_cnt (d : Nat) (x : Drone) : (s.setDrone d x).cnt = s.cnt := rfl
@[simp] theorem setDrone_cntHi (d : Nat) (x : Drone) : (s.setDrone d x).cntHi = s.cntHi := rfl
@[simp] theorem setDrone_mem (d : Nat) (x : Drone) : (s.setDrone d x).mem = s.mem := rfl
@[simp] theorem setDrone_flip (d : Nat) (x : Drone) : (s.setDrone d x).flip = s.flip := rfl
@[simp] theorem setDrone_hostMem (d : Nat) (x : Drone) : (s.setDrone d x).hostMem = s.hostMem := rfl
@[simp] theorem setDrone_readData (d : Nat) (x : Drone) : (s.setDrone d x).readData = s.readData := rfl
@[simp] theorem setDrone_freeCtr (d : Nat) (x : Drone) : (s.setDrone d x).freeCtr = s.freeCtr := rfl
@[simp] theorem setDrone_breath (d : Nat) (x : Drone) : (s.setDrone d x).breath = s.breath := rfl
@[simp] theorem setDrone_steps (d : Nat) (x : Drone) : (s.setDrone d x).steps = s.steps := rfl
@[simp] theorem setDrone_reeds (d : Nat) (x : Drone) : (s.setDrone d x).reeds = s.reeds := rfl
@[simp] theorem setDrone_linksDown (d : Nat) (x : Drone) : (s.setDrone d x).linksDown = s.linksDown := rfl
@[simp] theorem setDrone_inReset (d : Nat) (x : Drone) : (s.setDrone d x).inReset = s.inReset := rfl
@[simp] theorem setDrone_handover (d : Nat) (x : Drone) : (s.setDrone d x).handover = s.handover := rfl
@[simp] theorem setDrone_portLast (d : Nat) (x : Drone) : (s.setDrone d x).portLast = s.portLast := rfl
@[simp] theorem setDrone_scrubLeft (d : Nat) (x : Drone) : (s.setDrone d x).scrubLeft = s.scrubLeft := rfl
@[simp] theorem setDrone_scrubSeen (d : Nat) (x : Drone) : (s.setDrone d x).scrubSeen = s.scrubSeen := rfl
@[simp] theorem setDrone_fns (d : Nat) (x : Drone) : (s.setDrone d x).fns = s.fns := rfl
@[simp] theorem setDrone_mbxLast (d : Nat) (x : Drone) : (s.setDrone d x).mbxLast = s.mbxLast := rfl
@[simp] theorem setDrone_abortsA (d : Nat) (x : Drone) : (s.setDrone d x).abortsA = s.abortsA := rfl
@[simp] theorem setDrone_abortsB (d : Nat) (x : Drone) : (s.setDrone d x).abortsB = s.abortsB := rfl
@[simp] theorem setDrone_fwNotices (d : Nat) (x : Drone) : (s.setDrone d x).fwNotices = s.fwNotices := rfl
@[simp] theorem setDrone_msixSent (d : Nat) (x : Drone) : (s.setDrone d x).msixSent = s.msixSent := rfl
@[simp] theorem setDrone_reply (d : Nat) (x : Drone) : (s.setDrone d x).reply = s.reply := rfl
@[simp] theorem setDrone_restarted (d : Nat) (x : Drone) : (s.setDrone d x).restarted = s.restarted := rfl
@[simp] theorem setDrone_objs (d : Nat) (x : Drone) : (s.setDrone d x).objs = s.objs := rfl
@[simp] theorem setDrone_swaps (d : Nat) (x : Drone) : (s.setDrone d x).swaps = s.swaps := rfl
@[simp] theorem setDrone_models (d : Nat) (x : Drone) : (s.setDrone d x).models = s.models := rfl
@[simp] theorem setDrone_horns (d : Nat) (x : Drone) : (s.setDrone d x).horns = s.horns := rfl
@[simp] theorem setDrone_dirs (d : Nat) (x : Drone) : (s.setDrone d x).dirs = s.dirs := rfl
@[simp] theorem setDrone_pubs (d : Nat) (x : Drone) : (s.setDrone d x).pubs = s.pubs := rfl
@[simp] theorem setDrone_runs (d : Nat) (x : Drone) : (s.setDrone d x).runs = s.runs := rfl
@[simp] theorem setDrone_serps (d : Nat) (x : Drone) : (s.setDrone d x).serps = s.serps := rfl
@[simp] theorem setDrone_panps (d : Nat) (x : Drone) : (s.setDrone d x).panps = s.panps := rfl
@[simp] theorem setDrone_reqs (d : Nat) (x : Drone) : (s.setDrone d x).reqs = s.reqs := rfl
@[simp] theorem setDrone_reqEvents (d : Nat) (x : Drone) : (s.setDrone d x).reqEvents = s.reqEvents := rfl
@[simp] theorem setDrone_shedClear (d : Nat) (x : Drone) : (s.setDrone d x).shedClear = s.shedClear := rfl
@[simp] theorem setDrone_edgeReplies (d : Nat) (x : Drone) : (s.setDrone d x).edgeReplies = s.edgeReplies := rfl
@[simp] theorem setDrone_sess (d : Nat) (x : Drone) : (s.setDrone d x).sess = s.sess := rfl
@[simp] theorem setDrone_sessOps (d : Nat) (x : Drone) : (s.setDrone d x).sessOps = s.sessOps := rfl
@[simp] theorem setDrone_sessLost (d : Nat) (x : Drone) : (s.setDrone d x).sessLost = s.sessLost := rfl
@[simp] theorem setDrone_pfxs (d : Nat) (x : Drone) : (s.setDrone d x).pfxs = s.pfxs := rfl
@[simp] theorem setDrone_fwds (d : Nat) (x : Drone) : (s.setDrone d x).fwds = s.fwds := rfl
@[simp] theorem setDrone_repros (d : Nat) (x : Drone) : (s.setDrone d x).repros = s.repros := rfl
@[simp] theorem setDrone_bktLast (d : Nat) (x : Drone) : (s.setDrone d x).bktLast = s.bktLast := rfl
@[simp] theorem setDrone_flashDone (d : Nat) (x : Drone) : (s.setDrone d x).flashDone = s.flashDone := rfl
@[simp] theorem setDrone_faults (d : Nat) (x : Drone) : (s.setDrone d x).faults = s.faults := rfl
@[simp] theorem setDrone_recov (d : Nat) (x : Drone) : (s.setDrone d x).recov = s.recov := rfl
@[simp] theorem setDrone_waitFaults (d : Nat) (x : Drone) : (s.setDrone d x).waitFaults = s.waitFaults := rfl
@[simp] theorem setDrone_trackers (d : Nat) (x : Drone) : (s.setDrone d x).trackers = s.trackers := rfl
@[simp] theorem setDrone_spareRows (d : Nat) (x : Drone) : (s.setDrone d x).spareRows = s.spareRows := rfl
@[simp] theorem setDrone_withdrawnBanks (d : Nat) (x : Drone) : (s.setDrone d x).withdrawnBanks = s.withdrawnBanks := rfl
@[simp] theorem setDrone_ueSeen (d : Nat) (x : Drone) : (s.setDrone d x).ueSeen = s.ueSeen := rfl
@[simp] theorem setDrone_dramSpare (d : Nat) (x : Drone) : (s.setDrone d x).dramSpare = s.dramSpare := rfl
@[simp] theorem setDrone_withheld (d : Nat) (x : Drone) : (s.setDrone d x).withheld = s.withheld := rfl
@[simp] theorem setDrone_health (d : Nat) (x : Drone) : (s.setDrone d x).health = s.health := rfl
@[simp] theorem setDrone_healthAge (d : Nat) (x : Drone) : (s.setDrone d x).healthAge = s.healthAge := rfl
@[simp] theorem setDrone_monDelay (d : Nat) (x : Drone) : (s.setDrone d x).monDelay = s.monDelay := rfl
@[simp] theorem setDrone_coresOut (d : Nat) (x : Drone) : (s.setDrone d x).coresOut = s.coresOut := rfl
@[simp] theorem setDrone_retrains (d : Nat) (x : Drone) : (s.setDrone d x).retrains = s.retrains := rfl
@[simp] theorem setDrone_linkReplay (d : Nat) (x : Drone) : (s.setDrone d x).linkReplay = s.linkReplay := rfl
@[simp] theorem setDrone_sec (d : Nat) (x : Drone) : (s.setDrone d x).sec = s.sec := rfl
@[simp] theorem setDrone_pwr (d : Nat) (x : Drone) : (s.setDrone d x).pwr = s.pwr := rfl
@[simp] theorem setDrone_mgmt (d : Nat) (x : Drone) : (s.setDrone d x).mgmt = s.mgmt := rfl
@[simp] theorem setDrone_bist (d : Nat) (x : Drone) : (s.setDrone d x).bist = s.bist := rfl
@[simp] theorem setDrone_spareOk (d : Nat) (x : Drone) : (s.setDrone d x).spareOk = s.spareOk := rfl

/-! ### setHorn -/

@[simp] theorem setHorn_pending (die k : Nat) (h : Horn) : (s.setHorn die k h).pending = s.pending := rfl
@[simp] theorem setHorn_regs (die k : Nat) (h : Horn) : (s.setHorn die k h).regs = s.regs := rfl
@[simp] theorem setHorn_cnt (die k : Nat) (h : Horn) : (s.setHorn die k h).cnt = s.cnt := rfl
@[simp] theorem setHorn_cntHi (die k : Nat) (h : Horn) : (s.setHorn die k h).cntHi = s.cntHi := rfl
@[simp] theorem setHorn_mem (die k : Nat) (h : Horn) : (s.setHorn die k h).mem = s.mem := rfl
@[simp] theorem setHorn_flip (die k : Nat) (h : Horn) : (s.setHorn die k h).flip = s.flip := rfl
@[simp] theorem setHorn_hostMem (die k : Nat) (h : Horn) : (s.setHorn die k h).hostMem = s.hostMem := rfl
@[simp] theorem setHorn_readData (die k : Nat) (h : Horn) : (s.setHorn die k h).readData = s.readData := rfl
@[simp] theorem setHorn_freeCtr (die k : Nat) (h : Horn) : (s.setHorn die k h).freeCtr = s.freeCtr := rfl
@[simp] theorem setHorn_breath (die k : Nat) (h : Horn) : (s.setHorn die k h).breath = s.breath := rfl
@[simp] theorem setHorn_steps (die k : Nat) (h : Horn) : (s.setHorn die k h).steps = s.steps := rfl
@[simp] theorem setHorn_reeds (die k : Nat) (h : Horn) : (s.setHorn die k h).reeds = s.reeds := rfl
@[simp] theorem setHorn_linksDown (die k : Nat) (h : Horn) : (s.setHorn die k h).linksDown = s.linksDown := rfl
@[simp] theorem setHorn_inReset (die k : Nat) (h : Horn) : (s.setHorn die k h).inReset = s.inReset := rfl
@[simp] theorem setHorn_handover (die k : Nat) (h : Horn) : (s.setHorn die k h).handover = s.handover := rfl
@[simp] theorem setHorn_portLast (die k : Nat) (h : Horn) : (s.setHorn die k h).portLast = s.portLast := rfl
@[simp] theorem setHorn_scrubLeft (die k : Nat) (h : Horn) : (s.setHorn die k h).scrubLeft = s.scrubLeft := rfl
@[simp] theorem setHorn_scrubSeen (die k : Nat) (h : Horn) : (s.setHorn die k h).scrubSeen = s.scrubSeen := rfl
@[simp] theorem setHorn_fns (die k : Nat) (h : Horn) : (s.setHorn die k h).fns = s.fns := rfl
@[simp] theorem setHorn_mbxLast (die k : Nat) (h : Horn) : (s.setHorn die k h).mbxLast = s.mbxLast := rfl
@[simp] theorem setHorn_abortsA (die k : Nat) (h : Horn) : (s.setHorn die k h).abortsA = s.abortsA := rfl
@[simp] theorem setHorn_abortsB (die k : Nat) (h : Horn) : (s.setHorn die k h).abortsB = s.abortsB := rfl
@[simp] theorem setHorn_fwNotices (die k : Nat) (h : Horn) : (s.setHorn die k h).fwNotices = s.fwNotices := rfl
@[simp] theorem setHorn_msixSent (die k : Nat) (h : Horn) : (s.setHorn die k h).msixSent = s.msixSent := rfl
@[simp] theorem setHorn_reply (die k : Nat) (h : Horn) : (s.setHorn die k h).reply = s.reply := rfl
@[simp] theorem setHorn_restarted (die k : Nat) (h : Horn) : (s.setHorn die k h).restarted = s.restarted := rfl
@[simp] theorem setHorn_objs (die k : Nat) (h : Horn) : (s.setHorn die k h).objs = s.objs := rfl
@[simp] theorem setHorn_swaps (die k : Nat) (h : Horn) : (s.setHorn die k h).swaps = s.swaps := rfl
@[simp] theorem setHorn_models (die k : Nat) (h : Horn) : (s.setHorn die k h).models = s.models := rfl
@[simp] theorem setHorn_dirs (die k : Nat) (h : Horn) : (s.setHorn die k h).dirs = s.dirs := rfl
@[simp] theorem setHorn_pubs (die k : Nat) (h : Horn) : (s.setHorn die k h).pubs = s.pubs := rfl
@[simp] theorem setHorn_runs (die k : Nat) (h : Horn) : (s.setHorn die k h).runs = s.runs := rfl
@[simp] theorem setHorn_serps (die k : Nat) (h : Horn) : (s.setHorn die k h).serps = s.serps := rfl
@[simp] theorem setHorn_panps (die k : Nat) (h : Horn) : (s.setHorn die k h).panps = s.panps := rfl
@[simp] theorem setHorn_reqs (die k : Nat) (h : Horn) : (s.setHorn die k h).reqs = s.reqs := rfl
@[simp] theorem setHorn_reqEvents (die k : Nat) (h : Horn) : (s.setHorn die k h).reqEvents = s.reqEvents := rfl
@[simp] theorem setHorn_shedClear (die k : Nat) (h : Horn) : (s.setHorn die k h).shedClear = s.shedClear := rfl
@[simp] theorem setHorn_edgeReplies (die k : Nat) (h : Horn) : (s.setHorn die k h).edgeReplies = s.edgeReplies := rfl
@[simp] theorem setHorn_sess (die k : Nat) (h : Horn) : (s.setHorn die k h).sess = s.sess := rfl
@[simp] theorem setHorn_sessOps (die k : Nat) (h : Horn) : (s.setHorn die k h).sessOps = s.sessOps := rfl
@[simp] theorem setHorn_sessLost (die k : Nat) (h : Horn) : (s.setHorn die k h).sessLost = s.sessLost := rfl
@[simp] theorem setHorn_pfxs (die k : Nat) (h : Horn) : (s.setHorn die k h).pfxs = s.pfxs := rfl
@[simp] theorem setHorn_fwds (die k : Nat) (h : Horn) : (s.setHorn die k h).fwds = s.fwds := rfl
@[simp] theorem setHorn_repros (die k : Nat) (h : Horn) : (s.setHorn die k h).repros = s.repros := rfl
@[simp] theorem setHorn_bktLast (die k : Nat) (h : Horn) : (s.setHorn die k h).bktLast = s.bktLast := rfl
@[simp] theorem setHorn_drones (die k : Nat) (h : Horn) : (s.setHorn die k h).drones = s.drones := rfl
@[simp] theorem setHorn_flashDone (die k : Nat) (h : Horn) : (s.setHorn die k h).flashDone = s.flashDone := rfl
@[simp] theorem setHorn_faults (die k : Nat) (h : Horn) : (s.setHorn die k h).faults = s.faults := rfl
@[simp] theorem setHorn_recov (die k : Nat) (h : Horn) : (s.setHorn die k h).recov = s.recov := rfl
@[simp] theorem setHorn_waitFaults (die k : Nat) (h : Horn) : (s.setHorn die k h).waitFaults = s.waitFaults := rfl
@[simp] theorem setHorn_trackers (die k : Nat) (h : Horn) : (s.setHorn die k h).trackers = s.trackers := rfl
@[simp] theorem setHorn_spareRows (die k : Nat) (h : Horn) : (s.setHorn die k h).spareRows = s.spareRows := rfl
@[simp] theorem setHorn_withdrawnBanks (die k : Nat) (h : Horn) : (s.setHorn die k h).withdrawnBanks = s.withdrawnBanks := rfl
@[simp] theorem setHorn_ueSeen (die k : Nat) (h : Horn) : (s.setHorn die k h).ueSeen = s.ueSeen := rfl
@[simp] theorem setHorn_dramSpare (die k : Nat) (h : Horn) : (s.setHorn die k h).dramSpare = s.dramSpare := rfl
@[simp] theorem setHorn_withheld (die k : Nat) (h : Horn) : (s.setHorn die k h).withheld = s.withheld := rfl
@[simp] theorem setHorn_health (die k : Nat) (h : Horn) : (s.setHorn die k h).health = s.health := rfl
@[simp] theorem setHorn_healthAge (die k : Nat) (h : Horn) : (s.setHorn die k h).healthAge = s.healthAge := rfl
@[simp] theorem setHorn_monDelay (die k : Nat) (h : Horn) : (s.setHorn die k h).monDelay = s.monDelay := rfl
@[simp] theorem setHorn_coresOut (die k : Nat) (h : Horn) : (s.setHorn die k h).coresOut = s.coresOut := rfl
@[simp] theorem setHorn_retrains (die k : Nat) (h : Horn) : (s.setHorn die k h).retrains = s.retrains := rfl
@[simp] theorem setHorn_linkReplay (die k : Nat) (h : Horn) : (s.setHorn die k h).linkReplay = s.linkReplay := rfl
@[simp] theorem setHorn_sec (die k : Nat) (h : Horn) : (s.setHorn die k h).sec = s.sec := rfl
@[simp] theorem setHorn_pwr (die k : Nat) (h : Horn) : (s.setHorn die k h).pwr = s.pwr := rfl
@[simp] theorem setHorn_mgmt (die k : Nat) (h : Horn) : (s.setHorn die k h).mgmt = s.mgmt := rfl
@[simp] theorem setHorn_bist (die k : Nat) (h : Horn) : (s.setHorn die k h).bist = s.bist := rfl
@[simp] theorem setHorn_spareOk (die k : Nat) (h : Horn) : (s.setHorn die k h).spareOk = s.spareOk := rfl

/-! ### setDir -/

@[simp] theorem setDir_pending (kind die : Nat) (d : Dir) : (s.setDir kind die d).pending = s.pending := rfl
@[simp] theorem setDir_cnt (kind die : Nat) (d : Dir) : (s.setDir kind die d).cnt = s.cnt := rfl
@[simp] theorem setDir_cntHi (kind die : Nat) (d : Dir) : (s.setDir kind die d).cntHi = s.cntHi := rfl
@[simp] theorem setDir_mem (kind die : Nat) (d : Dir) : (s.setDir kind die d).mem = s.mem := rfl
@[simp] theorem setDir_flip (kind die : Nat) (d : Dir) : (s.setDir kind die d).flip = s.flip := rfl
@[simp] theorem setDir_hostMem (kind die : Nat) (d : Dir) : (s.setDir kind die d).hostMem = s.hostMem := rfl
@[simp] theorem setDir_readData (kind die : Nat) (d : Dir) : (s.setDir kind die d).readData = s.readData := rfl
@[simp] theorem setDir_freeCtr (kind die : Nat) (d : Dir) : (s.setDir kind die d).freeCtr = s.freeCtr := rfl
@[simp] theorem setDir_breath (kind die : Nat) (d : Dir) : (s.setDir kind die d).breath = s.breath := rfl
@[simp] theorem setDir_steps (kind die : Nat) (d : Dir) : (s.setDir kind die d).steps = s.steps := rfl
@[simp] theorem setDir_reeds (kind die : Nat) (d : Dir) : (s.setDir kind die d).reeds = s.reeds := rfl
@[simp] theorem setDir_linksDown (kind die : Nat) (d : Dir) : (s.setDir kind die d).linksDown = s.linksDown := rfl
@[simp] theorem setDir_inReset (kind die : Nat) (d : Dir) : (s.setDir kind die d).inReset = s.inReset := rfl
@[simp] theorem setDir_handover (kind die : Nat) (d : Dir) : (s.setDir kind die d).handover = s.handover := rfl
@[simp] theorem setDir_portLast (kind die : Nat) (d : Dir) : (s.setDir kind die d).portLast = s.portLast := rfl
@[simp] theorem setDir_scrubLeft (kind die : Nat) (d : Dir) : (s.setDir kind die d).scrubLeft = s.scrubLeft := rfl
@[simp] theorem setDir_scrubSeen (kind die : Nat) (d : Dir) : (s.setDir kind die d).scrubSeen = s.scrubSeen := rfl
@[simp] theorem setDir_fns (kind die : Nat) (d : Dir) : (s.setDir kind die d).fns = s.fns := rfl
@[simp] theorem setDir_mbxLast (kind die : Nat) (d : Dir) : (s.setDir kind die d).mbxLast = s.mbxLast := rfl
@[simp] theorem setDir_abortsA (kind die : Nat) (d : Dir) : (s.setDir kind die d).abortsA = s.abortsA := rfl
@[simp] theorem setDir_abortsB (kind die : Nat) (d : Dir) : (s.setDir kind die d).abortsB = s.abortsB := rfl
@[simp] theorem setDir_fwNotices (kind die : Nat) (d : Dir) : (s.setDir kind die d).fwNotices = s.fwNotices := rfl
@[simp] theorem setDir_msixSent (kind die : Nat) (d : Dir) : (s.setDir kind die d).msixSent = s.msixSent := rfl
@[simp] theorem setDir_reply (kind die : Nat) (d : Dir) : (s.setDir kind die d).reply = s.reply := rfl
@[simp] theorem setDir_restarted (kind die : Nat) (d : Dir) : (s.setDir kind die d).restarted = s.restarted := rfl
@[simp] theorem setDir_objs (kind die : Nat) (d : Dir) : (s.setDir kind die d).objs = s.objs := rfl
@[simp] theorem setDir_swaps (kind die : Nat) (d : Dir) : (s.setDir kind die d).swaps = s.swaps := rfl
@[simp] theorem setDir_models (kind die : Nat) (d : Dir) : (s.setDir kind die d).models = s.models := rfl
@[simp] theorem setDir_horns (kind die : Nat) (d : Dir) : (s.setDir kind die d).horns = s.horns := rfl
@[simp] theorem setDir_pubs (kind die : Nat) (d : Dir) : (s.setDir kind die d).pubs = s.pubs := rfl
@[simp] theorem setDir_runs (kind die : Nat) (d : Dir) : (s.setDir kind die d).runs = s.runs := rfl
@[simp] theorem setDir_serps (kind die : Nat) (d : Dir) : (s.setDir kind die d).serps = s.serps := rfl
@[simp] theorem setDir_panps (kind die : Nat) (d : Dir) : (s.setDir kind die d).panps = s.panps := rfl
@[simp] theorem setDir_reqs (kind die : Nat) (d : Dir) : (s.setDir kind die d).reqs = s.reqs := rfl
@[simp] theorem setDir_reqEvents (kind die : Nat) (d : Dir) : (s.setDir kind die d).reqEvents = s.reqEvents := rfl
@[simp] theorem setDir_shedClear (kind die : Nat) (d : Dir) : (s.setDir kind die d).shedClear = s.shedClear := rfl
@[simp] theorem setDir_edgeReplies (kind die : Nat) (d : Dir) : (s.setDir kind die d).edgeReplies = s.edgeReplies := rfl
@[simp] theorem setDir_sess (kind die : Nat) (d : Dir) : (s.setDir kind die d).sess = s.sess := rfl
@[simp] theorem setDir_sessOps (kind die : Nat) (d : Dir) : (s.setDir kind die d).sessOps = s.sessOps := rfl
@[simp] theorem setDir_sessLost (kind die : Nat) (d : Dir) : (s.setDir kind die d).sessLost = s.sessLost := rfl
@[simp] theorem setDir_pfxs (kind die : Nat) (d : Dir) : (s.setDir kind die d).pfxs = s.pfxs := rfl
@[simp] theorem setDir_fwds (kind die : Nat) (d : Dir) : (s.setDir kind die d).fwds = s.fwds := rfl
@[simp] theorem setDir_repros (kind die : Nat) (d : Dir) : (s.setDir kind die d).repros = s.repros := rfl
@[simp] theorem setDir_bktLast (kind die : Nat) (d : Dir) : (s.setDir kind die d).bktLast = s.bktLast := rfl
@[simp] theorem setDir_drones (kind die : Nat) (d : Dir) : (s.setDir kind die d).drones = s.drones := rfl
@[simp] theorem setDir_flashDone (kind die : Nat) (d : Dir) : (s.setDir kind die d).flashDone = s.flashDone := rfl
@[simp] theorem setDir_faults (kind die : Nat) (d : Dir) : (s.setDir kind die d).faults = s.faults := rfl
@[simp] theorem setDir_recov (kind die : Nat) (d : Dir) : (s.setDir kind die d).recov = s.recov := rfl
@[simp] theorem setDir_waitFaults (kind die : Nat) (d : Dir) : (s.setDir kind die d).waitFaults = s.waitFaults := rfl
@[simp] theorem setDir_trackers (kind die : Nat) (d : Dir) : (s.setDir kind die d).trackers = s.trackers := rfl
@[simp] theorem setDir_spareRows (kind die : Nat) (d : Dir) : (s.setDir kind die d).spareRows = s.spareRows := rfl
@[simp] theorem setDir_withdrawnBanks (kind die : Nat) (d : Dir) : (s.setDir kind die d).withdrawnBanks = s.withdrawnBanks := rfl
@[simp] theorem setDir_ueSeen (kind die : Nat) (d : Dir) : (s.setDir kind die d).ueSeen = s.ueSeen := rfl
@[simp] theorem setDir_dramSpare (kind die : Nat) (d : Dir) : (s.setDir kind die d).dramSpare = s.dramSpare := rfl
@[simp] theorem setDir_withheld (kind die : Nat) (d : Dir) : (s.setDir kind die d).withheld = s.withheld := rfl
@[simp] theorem setDir_health (kind die : Nat) (d : Dir) : (s.setDir kind die d).health = s.health := rfl
@[simp] theorem setDir_healthAge (kind die : Nat) (d : Dir) : (s.setDir kind die d).healthAge = s.healthAge := rfl
@[simp] theorem setDir_monDelay (kind die : Nat) (d : Dir) : (s.setDir kind die d).monDelay = s.monDelay := rfl
@[simp] theorem setDir_coresOut (kind die : Nat) (d : Dir) : (s.setDir kind die d).coresOut = s.coresOut := rfl
@[simp] theorem setDir_retrains (kind die : Nat) (d : Dir) : (s.setDir kind die d).retrains = s.retrains := rfl
@[simp] theorem setDir_linkReplay (kind die : Nat) (d : Dir) : (s.setDir kind die d).linkReplay = s.linkReplay := rfl
@[simp] theorem setDir_sec (kind die : Nat) (d : Dir) : (s.setDir kind die d).sec = s.sec := rfl
@[simp] theorem setDir_pwr (kind die : Nat) (d : Dir) : (s.setDir kind die d).pwr = s.pwr := rfl
@[simp] theorem setDir_mgmt (kind die : Nat) (d : Dir) : (s.setDir kind die d).mgmt = s.mgmt := rfl
@[simp] theorem setDir_bist (kind die : Nat) (d : Dir) : (s.setDir kind die d).bist = s.bist := rfl
@[simp] theorem setDir_spareOk (kind die : Nat) (d : Dir) : (s.setDir kind die d).spareOk = s.spareOk := rfl

/-! ### setRun -/

@[simp] theorem setRun_pending (die slot : Nat) (r : Option URun) : (s.setRun die slot r).pending = s.pending := rfl
@[simp] theorem setRun_regs (die slot : Nat) (r : Option URun) : (s.setRun die slot r).regs = s.regs := rfl
@[simp] theorem setRun_cnt (die slot : Nat) (r : Option URun) : (s.setRun die slot r).cnt = s.cnt := rfl
@[simp] theorem setRun_cntHi (die slot : Nat) (r : Option URun) : (s.setRun die slot r).cntHi = s.cntHi := rfl
@[simp] theorem setRun_mem (die slot : Nat) (r : Option URun) : (s.setRun die slot r).mem = s.mem := rfl
@[simp] theorem setRun_flip (die slot : Nat) (r : Option URun) : (s.setRun die slot r).flip = s.flip := rfl
@[simp] theorem setRun_hostMem (die slot : Nat) (r : Option URun) : (s.setRun die slot r).hostMem = s.hostMem := rfl
@[simp] theorem setRun_readData (die slot : Nat) (r : Option URun) : (s.setRun die slot r).readData = s.readData := rfl
@[simp] theorem setRun_freeCtr (die slot : Nat) (r : Option URun) : (s.setRun die slot r).freeCtr = s.freeCtr := rfl
@[simp] theorem setRun_breath (die slot : Nat) (r : Option URun) : (s.setRun die slot r).breath = s.breath := rfl
@[simp] theorem setRun_steps (die slot : Nat) (r : Option URun) : (s.setRun die slot r).steps = s.steps := rfl
@[simp] theorem setRun_reeds (die slot : Nat) (r : Option URun) : (s.setRun die slot r).reeds = s.reeds := rfl
@[simp] theorem setRun_linksDown (die slot : Nat) (r : Option URun) : (s.setRun die slot r).linksDown = s.linksDown := rfl
@[simp] theorem setRun_inReset (die slot : Nat) (r : Option URun) : (s.setRun die slot r).inReset = s.inReset := rfl
@[simp] theorem setRun_handover (die slot : Nat) (r : Option URun) : (s.setRun die slot r).handover = s.handover := rfl
@[simp] theorem setRun_portLast (die slot : Nat) (r : Option URun) : (s.setRun die slot r).portLast = s.portLast := rfl
@[simp] theorem setRun_scrubLeft (die slot : Nat) (r : Option URun) : (s.setRun die slot r).scrubLeft = s.scrubLeft := rfl
@[simp] theorem setRun_scrubSeen (die slot : Nat) (r : Option URun) : (s.setRun die slot r).scrubSeen = s.scrubSeen := rfl
@[simp] theorem setRun_fns (die slot : Nat) (r : Option URun) : (s.setRun die slot r).fns = s.fns := rfl
@[simp] theorem setRun_mbxLast (die slot : Nat) (r : Option URun) : (s.setRun die slot r).mbxLast = s.mbxLast := rfl
@[simp] theorem setRun_abortsA (die slot : Nat) (r : Option URun) : (s.setRun die slot r).abortsA = s.abortsA := rfl
@[simp] theorem setRun_abortsB (die slot : Nat) (r : Option URun) : (s.setRun die slot r).abortsB = s.abortsB := rfl
@[simp] theorem setRun_fwNotices (die slot : Nat) (r : Option URun) : (s.setRun die slot r).fwNotices = s.fwNotices := rfl
@[simp] theorem setRun_msixSent (die slot : Nat) (r : Option URun) : (s.setRun die slot r).msixSent = s.msixSent := rfl
@[simp] theorem setRun_reply (die slot : Nat) (r : Option URun) : (s.setRun die slot r).reply = s.reply := rfl
@[simp] theorem setRun_restarted (die slot : Nat) (r : Option URun) : (s.setRun die slot r).restarted = s.restarted := rfl
@[simp] theorem setRun_objs (die slot : Nat) (r : Option URun) : (s.setRun die slot r).objs = s.objs := rfl
@[simp] theorem setRun_swaps (die slot : Nat) (r : Option URun) : (s.setRun die slot r).swaps = s.swaps := rfl
@[simp] theorem setRun_models (die slot : Nat) (r : Option URun) : (s.setRun die slot r).models = s.models := rfl
@[simp] theorem setRun_horns (die slot : Nat) (r : Option URun) : (s.setRun die slot r).horns = s.horns := rfl
@[simp] theorem setRun_dirs (die slot : Nat) (r : Option URun) : (s.setRun die slot r).dirs = s.dirs := rfl
@[simp] theorem setRun_pubs (die slot : Nat) (r : Option URun) : (s.setRun die slot r).pubs = s.pubs := rfl
@[simp] theorem setRun_serps (die slot : Nat) (r : Option URun) : (s.setRun die slot r).serps = s.serps := rfl
@[simp] theorem setRun_panps (die slot : Nat) (r : Option URun) : (s.setRun die slot r).panps = s.panps := rfl
@[simp] theorem setRun_reqs (die slot : Nat) (r : Option URun) : (s.setRun die slot r).reqs = s.reqs := rfl
@[simp] theorem setRun_reqEvents (die slot : Nat) (r : Option URun) : (s.setRun die slot r).reqEvents = s.reqEvents := rfl
@[simp] theorem setRun_shedClear (die slot : Nat) (r : Option URun) : (s.setRun die slot r).shedClear = s.shedClear := rfl
@[simp] theorem setRun_edgeReplies (die slot : Nat) (r : Option URun) : (s.setRun die slot r).edgeReplies = s.edgeReplies := rfl
@[simp] theorem setRun_sess (die slot : Nat) (r : Option URun) : (s.setRun die slot r).sess = s.sess := rfl
@[simp] theorem setRun_sessOps (die slot : Nat) (r : Option URun) : (s.setRun die slot r).sessOps = s.sessOps := rfl
@[simp] theorem setRun_sessLost (die slot : Nat) (r : Option URun) : (s.setRun die slot r).sessLost = s.sessLost := rfl
@[simp] theorem setRun_pfxs (die slot : Nat) (r : Option URun) : (s.setRun die slot r).pfxs = s.pfxs := rfl
@[simp] theorem setRun_fwds (die slot : Nat) (r : Option URun) : (s.setRun die slot r).fwds = s.fwds := rfl
@[simp] theorem setRun_repros (die slot : Nat) (r : Option URun) : (s.setRun die slot r).repros = s.repros := rfl
@[simp] theorem setRun_bktLast (die slot : Nat) (r : Option URun) : (s.setRun die slot r).bktLast = s.bktLast := rfl
@[simp] theorem setRun_drones (die slot : Nat) (r : Option URun) : (s.setRun die slot r).drones = s.drones := rfl
@[simp] theorem setRun_flashDone (die slot : Nat) (r : Option URun) : (s.setRun die slot r).flashDone = s.flashDone := rfl
@[simp] theorem setRun_faults (die slot : Nat) (r : Option URun) : (s.setRun die slot r).faults = s.faults := rfl
@[simp] theorem setRun_recov (die slot : Nat) (r : Option URun) : (s.setRun die slot r).recov = s.recov := rfl
@[simp] theorem setRun_waitFaults (die slot : Nat) (r : Option URun) : (s.setRun die slot r).waitFaults = s.waitFaults := rfl
@[simp] theorem setRun_trackers (die slot : Nat) (r : Option URun) : (s.setRun die slot r).trackers = s.trackers := rfl
@[simp] theorem setRun_spareRows (die slot : Nat) (r : Option URun) : (s.setRun die slot r).spareRows = s.spareRows := rfl
@[simp] theorem setRun_withdrawnBanks (die slot : Nat) (r : Option URun) : (s.setRun die slot r).withdrawnBanks = s.withdrawnBanks := rfl
@[simp] theorem setRun_ueSeen (die slot : Nat) (r : Option URun) : (s.setRun die slot r).ueSeen = s.ueSeen := rfl
@[simp] theorem setRun_dramSpare (die slot : Nat) (r : Option URun) : (s.setRun die slot r).dramSpare = s.dramSpare := rfl
@[simp] theorem setRun_withheld (die slot : Nat) (r : Option URun) : (s.setRun die slot r).withheld = s.withheld := rfl
@[simp] theorem setRun_health (die slot : Nat) (r : Option URun) : (s.setRun die slot r).health = s.health := rfl
@[simp] theorem setRun_healthAge (die slot : Nat) (r : Option URun) : (s.setRun die slot r).healthAge = s.healthAge := rfl
@[simp] theorem setRun_monDelay (die slot : Nat) (r : Option URun) : (s.setRun die slot r).monDelay = s.monDelay := rfl
@[simp] theorem setRun_coresOut (die slot : Nat) (r : Option URun) : (s.setRun die slot r).coresOut = s.coresOut := rfl
@[simp] theorem setRun_retrains (die slot : Nat) (r : Option URun) : (s.setRun die slot r).retrains = s.retrains := rfl
@[simp] theorem setRun_linkReplay (die slot : Nat) (r : Option URun) : (s.setRun die slot r).linkReplay = s.linkReplay := rfl
@[simp] theorem setRun_sec (die slot : Nat) (r : Option URun) : (s.setRun die slot r).sec = s.sec := rfl
@[simp] theorem setRun_pwr (die slot : Nat) (r : Option URun) : (s.setRun die slot r).pwr = s.pwr := rfl
@[simp] theorem setRun_mgmt (die slot : Nat) (r : Option URun) : (s.setRun die slot r).mgmt = s.mgmt := rfl
@[simp] theorem setRun_bist (die slot : Nat) (r : Option URun) : (s.setRun die slot r).bist = s.bist := rfl
@[simp] theorem setRun_spareOk (die slot : Nat) (r : Option URun) : (s.setRun die slot r).spareOk = s.spareOk := rfl

end Sys2Proof.Laws
end

