-- ==== Sys2Proof/Laws/Ops.lean ====
section
/-! SUPPORT. Laws of the shared operations: what a register field, a counter, an interrupt bit, an error record, a memory write
and the frame of a reed instruction can do. -/
namespace Sys2Proof.Laws
open Sys2Proof.Machine

/-! ### Fields of a word -/

theorem getLsbD_maskW (hi lo n : Nat) : (maskW hi lo).getLsbD n = (decide (n < 32) && decide (lo ≤ n) && decide (n < hi + 1)) := by
  simp only [maskW, BitVec.getLsbD_ofNat, Nat.testBit_mul_two_pow, Nat.testBit_two_pow_sub_one]
  by_cases h1 : n < 32 <;> by_cases h2 : lo ≤ n <;> simp [h1, h2]
  omega

theorem getLsbD_putW (x : Word) (hi lo v n : Nat) : (putW x hi lo v).getLsbD n =
    if lo ≤ n ∧ n < hi + 1 then (decide (n < 32) && v.testBit (n - lo)) else x.getLsbD n := by
  simp only [putW, BitVec.getLsbD_or, BitVec.getLsbD_and, BitVec.getLsbD_not, getLsbD_maskW, BitVec.getLsbD_ofNat,
    Nat.testBit_mul_two_pow]
  by_cases h1 : n < 32
  · by_cases h2 : lo ≤ n <;> by_cases h3 : n < hi + 1 <;> simp [h1, h2, h3]
  · have : x.getLsbD n = false := BitVec.getLsbD_of_ge x n (by omega)
    simp [h1, this]

theorem testBit_fieldW (x : Word) (hi lo i : Nat) : (fieldW x hi lo).testBit i = (decide (i < hi + 1 - lo) && x.getLsbD (lo + i)) := by
  simp [fieldW, bits, Nat.testBit_mod_two_pow, Nat.testBit_shiftRight, BitVec.getLsbD]

/-- A field written reads back modulo its width. -/
theorem fieldW_putW_same (x : Word) (hi lo v : Nat) (h : hi < 32) : fieldW (putW x hi lo v) hi lo = v % 2 ^ (hi + 1 - lo) := by
  apply Nat.eq_of_testBit_eq
  intro i
  rw [testBit_fieldW, getLsbD_putW, Nat.testBit_mod_two_pow]
  by_cases h1 : i < hi + 1 - lo
  · have h2 : lo + i < hi + 1 := by omega
    have h3 : lo + i < 32 := by omega
    simp [h1, h2, h3]
  · simp [h1]

/-- A write of one field leaves a field beside it. -/
theorem fieldW_putW_other (x : Word) (hi lo v hi' lo' : Nat) (h : hi < lo' ∨ hi' < lo) :
    fieldW (putW x hi lo v) hi' lo' = fieldW x hi' lo' := by
  apply Nat.eq_of_testBit_eq
  intro i
  rw [testBit_fieldW, testBit_fieldW, getLsbD_putW]
  by_cases h1 : i < hi' + 1 - lo'
  · rw [if_neg (by omega : ¬ (lo ≤ lo' + i ∧ lo' + i < hi + 1))]
  · simp [h1]

/-! ### Register fields -/

variable (s : State)

theorem fld_setFld_same (a hi lo v : Nat) (h : hi < 32) : (s.setFld a hi lo v).fld a hi lo = v % 2 ^ (hi + 1 - lo) := by
  simp [State.fld, reg_setFld, fieldW_putW_same _ _ _ _ h]

theorem fld_setFld_other (a hi lo v hi' lo' : Nat) (h : hi < lo' ∨ hi' < lo) : (s.setFld a hi lo v).fld a hi' lo' = s.fld a hi' lo' := by
  simp [State.fld, reg_setFld, fieldW_putW_other _ _ _ _ _ _ h]

theorem fld_setFld_reg (a b hi lo v hi' lo' : Nat) (h : a ≠ b) : (s.setFld a hi lo v).fld b hi' lo' = s.fld b hi' lo' := by
  simp [State.fld, reg_setFld, h]

theorem fld_setReg_other (a b : Nat) (w : Word) (hi lo : Nat) (h : a ≠ b) : (s.setReg a w).fld b hi lo = s.fld b hi lo := by
  simp [State.fld, reg_setReg, h]

@[simp] theorem fld_setReg_same (a : Nat) (w : Word) (hi lo : Nat) : (s.setReg a w).fld a hi lo = fieldW w hi lo := by simp [State.fld]

theorem rbit_setFld_same (a n : Nat) (h : n < 32) (v : Nat) : (s.setFld a n n v).rbit a n = decide (v % 2 = 1) := by
  simp [State.rbit, fld_setFld_same s a n n v h]

theorem rbit_setFld_other (a n m v : Nat) (h : n ≠ m) : (s.setFld a n n v).rbit a m = s.rbit a m := by
  simp only [State.rbit]; rw [fld_setFld_other]; omega

theorem rbit_setFld_reg (a b n m v : Nat) (h : a ≠ b) : (s.setFld a n n v).rbit b m = s.rbit b m := by
  simp only [State.rbit]; rw [fld_setFld_reg _ _ _ _ _ _ _ _ h]

/-! ### Counters, interrupts and error records -/

/-- What a count does to the counters: it saturates at all ones (R746, R877). -/
theorem count_cntAdd (b : Blk) (die i off n a : Nat) : (s.cntAdd b die i off n).count a =
    if b.at die i off = a then min (s.count (b.at die i off) + n) cntMax else s.count a := by
  unfold State.cntAdd
  simp only []
  split <;> simp only [State.count, setFld_cnt, get_set]

theorem cntAdd_regs (b : Blk) (die i off n : Nat) (h : s.count (b.at die i off) + n < cntMax) : (s.cntAdd b die i off n).regs = s.regs := by
  unfold State.cntAdd
  rw [if_neg (by omega)]

theorem rbit_cntAdd (b : Blk) (die i off n : Nat) (h : cntMax ≤ s.count (b.at die i off) + n) (hb : ovfBit b off < 32) :
    (s.cntAdd b die i off n).rbit (inPage (b.at die i off) 0x028) (ovfBit b off) = true := by
  unfold State.cntAdd
  rw [if_pos h, rbit_setFld_same _ _ _ hb]; rfl

/-- A count changes the counters and the registers alone. -/
theorem cntAdd_frame (b : Blk) (die i off n : Nat) : { s.cntAdd b die i off n with cnt := s.cnt, regs := s.regs } = s := by
  unfold State.cntAdd
  simp only []
  split <;> rfl

/-- The one register that a count can change. -/
theorem reg_cntAdd_other (b : Blk) (die i off n a : Nat) (h : inPage (b.at die i off) 0x028 ≠ a) : (s.cntAdd b die i off n).reg a = s.reg a := by
  unfold State.cntAdd
  simp only []
  split
  · rw [reg_setFld, if_neg h]; rfl
  · rfl

theorem setFld_frame (a hi lo v : Nat) : { s.setFld a hi lo v with regs := s.regs } = s := rfl

theorem setReg_frame (a : Nat) (w : Word) : { s.setReg a w with regs := s.regs } = s := rfl

/-- An error record changes registers alone. -/
theorem err_frame (who : Requester) (b : Blk) (a : Nat) (k : ErrKind) : { s.err who b a k with regs := s.regs } = s := by
  unfold State.err
  simp only []
  split <;> rfl

theorem reg_err_other (who : Requester) (b : Blk) (a : Nat) (k : ErrKind) (c : Nat) (h1 : inPage a 0x01C ≠ c) (h2 : inPage a 0x020 ≠ c)
    (h3 : inPage a 0x024 ≠ c) : (s.err who b a k).reg c = s.reg c := by
  unfold State.err
  simp only []
  split <;> simp [reg_setReg, reg_setFld, h1, h2, h3]

/-- A register write changes registers alone. -/
theorem writeFields_frame (who : Requester) (b : Blk) (a key : Nat) (v : Word) :
    { s.writeFields who b a key v with regs := s.regs } = s := by
  unfold State.writeFields
  have e : ∀ (t : State) k, { t with regs := s.regs } = s → { t.err who b a k with regs := s.regs } = s := by
    intro t k h
    have := err_frame t who b a k
    rw [← h]
    exact congrArg (fun x : State => { x with regs := s.regs }) this
  cases regRow b (a / 2 ^ 23) (a % 4096) with
  | none => rfl
  | some r =>
    simp only []
    split <;> split <;> first | rfl | (apply e; first | rfl | (apply e; rfl))

/-- A register write changes the register and the error record of its page alone. -/
theorem reg_writeFields_other (who : Requester) (b : Blk) (a key : Nat) (v : Word) (c : Nat) (h0 : key ≠ c) (h1 : inPage a 0x01C ≠ c)
    (h2 : inPage a 0x020 ≠ c) (h3 : inPage a 0x024 ≠ c) : (s.writeFields who b a key v).reg c = s.reg c := by
  unfold State.writeFields
  cases regRow b (a / 2 ^ 23) (a % 4096) with
  | none => rfl
  | some r =>
    simp only []
    split <;> split <;> simp [reg_err_other, reg_setReg, *]

/-- A write that the gate lets through. -/
theorem gate_writable (who : Requester) (a : Nat) (k : State → State) (h : s.writable who a = true) : s.gate who a k = k s := by
  unfold State.gate
  unfold State.writable at h
  cases who <;> simp_all

/-- A write that the gate turns away. -/
theorem gate_turnedAway (who : Requester) (a : Nat) (k : State → State) (h : s.writable who a = false) : s.gate who a k = s.turnedAway who a := by
  unfold State.gate State.turnedAway
  unfold State.writable at h
  cases who with
  | host fn => cases hm : s.manage fn <;> simp_all [entryDie, State.jtagPasses]
  | _ => simp_all

/-! ### The frame of a reed instruction -/

/-- An instruction that is ready runs its body. -/
theorem runReed_ready (x : RI) (u : Uses) (body : State → Reed → RRes) (h : ready u x s = true) :
    runReed x u s body = s.finish x.reed (s.reed x.reed).ibuf.length (body s (s.reed x.reed)) := by
  simp only [ready, Bool.and_eq_true, decide_eq_true_eq] at h
  obtain ⟨⟨h1, h2⟩, h3⟩ := h
  unfold runReed
  simp only []
  rw [if_neg (by simp [h1]), if_neg (by omega), if_neg (by simp [h3])]

/-- An instruction that only computes: its result, and the next instruction follows. -/
theorem finish_done (x : ReedRef) (n : Nat) (t : State) (r : Reed) : s.finish x n (.done t r) = t.setReed x r.advanced := rfl

theorem runReed_idle (x : RI) (u : Uses) (body : State → Reed → RRes) (h : (s.reed x.reed).run ≠ .running) : runReed x u s body = s := by
  unfold runReed
  simp [h]

end Sys2Proof.Laws
end

