-- ==== Sys2Proof/Laws/Frames.lean ====
section
/-! SUPPORT. The fields of State after a count, an error record and a register write, and the addresses of registers: two registers
of one page differ by their offsets, and pages do not overlap. -/
namespace Sys2Proof.Laws
open Sys2Proof.Machine

/-! ### Addresses -/

theorem at_off (b : Blk) (die i off : Nat) : b.at die i off = off + b.at die i 0 := by simp [Blk.at, regAddr]

theorem at_page (b : Blk) (die i : Nat) : b.at die i 0 = 4096 * (b.page die i + 2048 * die) := by simp [Blk.at, regAddr]; omega

@[simp] theorem inPage_at (b : Blk) (die i off o : Nat) (h : off < 4096) : inPage (b.at die i off) o = b.at die i o := by
  rw [at_off b die i off, at_off b die i o, at_page]; unfold inPage; omega

theorem at_inj (b : Blk) (die i o p : Nat) : b.at die i o = b.at die i p ↔ o = p := by
  rw [at_off b die i o, at_off b die i p]; omega

theorem at_ne (b b' : Blk) (die die' i i' o p : Nat) (ho : o < 4096) (hp : p < 4096)
    (h : b.page die i + 2048 * die ≠ b'.page die' i' + 2048 * die') : b.at die i o ≠ b'.at die' i' p := by
  rw [at_off b die i o, at_off b' die' i' p, at_page, at_page]; omega

variable (s : State)

/-- An update of registers keeps every other field. -/
theorem field_of_regs {α : Type} (f : State → α) (t : State) (h : { t with regs := s.regs } = s)
    (e : f { t with regs := s.regs } = f t) : f t = f s := by rw [← e, h]

theorem field_of_cnt {α : Type} (f : State → α) (t : State) (h : { t with cnt := s.cnt, regs := s.regs } = s)
    (e : f { t with cnt := s.cnt, regs := s.regs } = f t) : f t = f s := by rw [← e, h]

theorem writeAt_frame (who : Requester) (b : Blk) (die i off : Nat) (v : Word) :
    { s.writeAt who b die i off v with regs := s.regs } = s := writeFields_frame s who b _ _ v

theorem refuseAt_frame (who : Requester) (b : Blk) (die i off : Nat) : { s.refuseAt who b die i off with regs := s.regs } = s :=
  err_frame s who b _ _

/-! ### cntAdd -/

@[simp] theorem cntAdd_pending (b : Blk) (die i off n : Nat) : (s.cntAdd b die i off n).pending = s.pending := field_of_cnt s State.pending _ (cntAdd_frame s b die i off n) rfl
@[simp] theorem cntAdd_cntHi (b : Blk) (die i off n : Nat) : (s.cntAdd b die i off n).cntHi = s.cntHi := field_of_cnt s State.cntHi _ (cntAdd_frame s b die i off n) rfl
@[simp] theorem cntAdd_mem (b : Blk) (die i off n : Nat) : (s.cntAdd b die i off n).mem = s.mem := field_of_cnt s State.mem _ (cntAdd_frame s b die i off n) rfl
@[simp] theorem cntAdd_flip (b : Blk) (die i off n : Nat) : (s.cntAdd b die i off n).flip = s.flip := field_of_cnt s State.flip _ (cntAdd_frame s b die i off n) rfl
@[simp] theorem cntAdd_hostMem (b : Blk) (die i off n : Nat) : (s.cntAdd b die i off n).hostMem = s.hostMem := field_of_cnt s State.hostMem _ (cntAdd_frame s b die i off n) rfl
@[simp] theorem cntAdd_readData (b : Blk) (die i off n : Nat) : (s.cntAdd b die i off n).readData = s.readData := field_of_cnt s State.readData _ (cntAdd_frame s b die i off n) rfl
@[simp] theorem cntAdd_freeCtr (b : Blk) (die i off n : Nat) : (s.cntAdd b die i off n).freeCtr = s.freeCtr := field_of_cnt s State.freeCtr _ (cntAdd_frame s b die i off n) rfl
@[simp] theorem cntAdd_breath (b : Blk) (die i off n : Nat) : (s.cntAdd b die i off n).breath = s.breath := field_of_cnt s State.breath _ (cntAdd_frame s b die i off n) rfl
@[simp] theorem cntAdd_steps (b : Blk) (die i off n : Nat) : (s.cntAdd b die i off n).steps = s.steps := field_of_cnt s State.steps _ (cntAdd_frame s b die i off n) rfl
@[simp] theorem cntAdd_reeds (b : Blk) (die i off n : Nat) : (s.cntAdd b die i off n).reeds = s.reeds := field_of_cnt s State.reeds _ (cntAdd_frame s b die i off n) rfl
@[simp] theorem cntAdd_linksDown (b : Blk) (die i off n : Nat) : (s.cntAdd b die i off n).linksDown = s.linksDown := field_of_cnt s State.linksDown _ (cntAdd_frame s b die i off n) rfl
@[simp] theorem cntAdd_inReset (b : Blk) (die i off n : Nat) : (s.cntAdd b die i off n).inReset = s.inReset := field_of_cnt s State.inReset _ (cntAdd_frame s b die i off n) rfl
@[simp] theorem cntAdd_handover (b : Blk) (die i off n : Nat) : (s.cntAdd b die i off n).handover = s.handover := field_of_cnt s State.handover _ (cntAdd_frame s b die i off n) rfl
@[simp] theorem cntAdd_portLast (b : Blk) (die i off n : Nat) : (s.cntAdd b die i off n).portLast = s.portLast := field_of_cnt s State.portLast _ (cntAdd_frame s b die i off n) rfl
@[simp] theorem cntAdd_scrubLeft (b : Blk) (die i off n : Nat) : (s.cntAdd b die i off n).scrubLeft = s.scrubLeft := field_of_cnt s State.scrubLeft _ (cntAdd_frame s b die i off n) rfl
@[simp] theorem cntAdd_scrubSeen (b : Blk) (die i off n : Nat) : (s.cntAdd b die i off n).scrubSeen = s.scrubSeen := field_of_cnt s State.scrubSeen _ (cntAdd_frame s b die i off n) rfl
@[simp] theorem cntAdd_fns (b : Blk) (die i off n : Nat) : (s.cntAdd b die i off n).fns = s.fns := field_of_cnt s State.fns _ (cntAdd_frame s b die i off n) rfl
@[simp] theorem cntAdd_mbxLast (b : Blk) (die i off n : Nat) : (s.cntAdd b die i off n).mbxLast = s.mbxLast := field_of_cnt s State.mbxLast _ (cntAdd_frame s b die i off n) rfl
@[simp] theorem cntAdd_abortsA (b : Blk) (die i off n : Nat) : (s.cntAdd b die i off n).abortsA = s.abortsA := field_of_cnt s State.abortsA _ (cntAdd_frame s b die i off n) rfl
@[simp] theorem cntAdd_abortsB (b : Blk) (die i off n : Nat) : (s.cntAdd b die i off n).abortsB = s.abortsB := field_of_cnt s State.abortsB _ (cntAdd_frame s b die i off n) rfl
@[simp] theorem cntAdd_fwNotices (b : Blk) (die i off n : Nat) : (s.cntAdd b die i off n).fwNotices = s.fwNotices := field_of_cnt s State.fwNotices _ (cntAdd_frame s b die i off n) rfl
@[simp] theorem cntAdd_msixSent (b : Blk) (die i off n : Nat) : (s.cntAdd b die i off n).msixSent = s.msixSent := field_of_cnt s State.msixSent _ (cntAdd_frame s b die i off n) rfl
@[simp] theorem cntAdd_reply (b : Blk) (die i off n : Nat) : (s.cntAdd b die i off n).reply = s.reply := field_of_cnt s State.reply _ (cntAdd_frame s b die i off n) rfl
@[simp] theorem cntAdd_restarted (b : Blk) (die i off n : Nat) : (s.cntAdd b die i off n).restarted = s.restarted := field_of_cnt s State.restarted _ (cntAdd_frame s b die i off n) rfl
@[simp] theorem cntAdd_objs (b : Blk) (die i off n : Nat) : (s.cntAdd b die i off n).objs = s.objs := field_of_cnt s State.objs _ (cntAdd_frame s b die i off n) rfl
@[simp] theorem cntAdd_swaps (b : Blk) (die i off n : Nat) : (s.cntAdd b die i off n).swaps = s.swaps := field_of_cnt s State.swaps _ (cntAdd_frame s b die i off n) rfl
@[simp] theorem cntAdd_models (b : Blk) (die i off n : Nat) : (s.cntAdd b die i off n).models = s.models := field_of_cnt s State.models _ (cntAdd_frame s b die i off n) rfl
@[simp] theorem cntAdd_horns (b : Blk) (die i off n : Nat) : (s.cntAdd b die i off n).horns = s.horns := field_of_cnt s State.horns _ (cntAdd_frame s b die i off n) rfl
@[simp] theorem cntAdd_dirs (b : Blk) (die i off n : Nat) : (s.cntAdd b die i off n).dirs = s.dirs := field_of_cnt s State.dirs _ (cntAdd_frame s b die i off n) rfl
@[simp] theorem cntAdd_pubs (b : Blk) (die i off n : Nat) : (s.cntAdd b die i off n).pubs = s.pubs := field_of_cnt s State.pubs _ (cntAdd_frame s b die i off n) rfl
@[simp] theorem cntAdd_runs (b : Blk) (die i off n : Nat) : (s.cntAdd b die i off n).runs = s.runs := field_of_cnt s State.runs _ (cntAdd_frame s b die i off n) rfl
@[simp] theorem cntAdd_serps (b : Blk) (die i off n : Nat) : (s.cntAdd b die i off n).serps = s.serps := field_of_cnt s State.serps _ (cntAdd_frame s b die i off n) rfl
@[simp] theorem cntAdd_panps (b : Blk) (die i off n : Nat) : (s.cntAdd b die i off n).panps = s.panps := field_of_cnt s State.panps _ (cntAdd_frame s b die i off n) rfl
@[simp] theorem cntAdd_reqs (b : Blk) (die i off n : Nat) : (s.cntAdd b die i off n).reqs = s.reqs := field_of_cnt s State.reqs _ (cntAdd_frame s b die i off n) rfl
@[simp] theorem cntAdd_reqEvents (b : Blk) (die i off n : Nat) : (s.cntAdd b die i off n).reqEvents = s.reqEvents := field_of_cnt s State.reqEvents _ (cntAdd_frame s b die i off n) rfl
@[simp] theorem cntAdd_shedClear (b : Blk) (die i off n : Nat) : (s.cntAdd b die i off n).shedClear = s.shedClear := field_of_cnt s State.shedClear _ (cntAdd_frame s b die i off n) rfl
@[simp] theorem cntAdd_edgeReplies (b : Blk) (die i off n : Nat) : (s.cntAdd b die i off n).edgeReplies = s.edgeReplies := field_of_cnt s State.edgeReplies _ (cntAdd_frame s b die i off n) rfl
@[simp] theorem cntAdd_sess (b : Blk) (die i off n : Nat) : (s.cntAdd b die i off n).sess = s.sess := field_of_cnt s State.sess _ (cntAdd_frame s b die i off n) rfl
@[simp] theorem cntAdd_sessOps (b : Blk) (die i off n : Nat) : (s.cntAdd b die i off n).sessOps = s.sessOps := field_of_cnt s State.sessOps _ (cntAdd_frame s b die i off n) rfl
@[simp] theorem cntAdd_sessLost (b : Blk) (die i off n : Nat) : (s.cntAdd b die i off n).sessLost = s.sessLost := field_of_cnt s State.sessLost _ (cntAdd_frame s b die i off n) rfl
@[simp] theorem cntAdd_pfxs (b : Blk) (die i off n : Nat) : (s.cntAdd b die i off n).pfxs = s.pfxs := field_of_cnt s State.pfxs _ (cntAdd_frame s b die i off n) rfl
@[simp] theorem cntAdd_fwds (b : Blk) (die i off n : Nat) : (s.cntAdd b die i off n).fwds = s.fwds := field_of_cnt s State.fwds _ (cntAdd_frame s b die i off n) rfl
@[simp] theorem cntAdd_repros (b : Blk) (die i off n : Nat) : (s.cntAdd b die i off n).repros = s.repros := field_of_cnt s State.repros _ (cntAdd_frame s b die i off n) rfl
@[simp] theorem cntAdd_bktLast (b : Blk) (die i off n : Nat) : (s.cntAdd b die i off n).bktLast = s.bktLast := field_of_cnt s State.bktLast _ (cntAdd_frame s b die i off n) rfl
@[simp] theorem cntAdd_drones (b : Blk) (die i off n : Nat) : (s.cntAdd b die i off n).drones = s.drones := field_of_cnt s State.drones _ (cntAdd_frame s b die i off n) rfl
@[simp] theorem cntAdd_flashDone (b : Blk) (die i off n : Nat) : (s.cntAdd b die i off n).flashDone = s.flashDone := field_of_cnt s State.flashDone _ (cntAdd_frame s b die i off n) rfl
@[simp] theorem cntAdd_faults (b : Blk) (die i off n : Nat) : (s.cntAdd b die i off n).faults = s.faults := field_of_cnt s State.faults _ (cntAdd_frame s b die i off n) rfl
@[simp] theorem cntAdd_recov (b : Blk) (die i off n : Nat) : (s.cntAdd b die i off n).recov = s.recov := field_of_cnt s State.recov _ (cntAdd_frame s b die i off n) rfl
@[simp] theorem cntAdd_waitFaults (b : Blk) (die i off n : Nat) : (s.cntAdd b die i off n).waitFaults = s.waitFaults := field_of_cnt s State.waitFaults _ (cntAdd_frame s b die i off n) rfl
@[simp] theorem cntAdd_trackers (b : Blk) (die i off n : Nat) : (s.cntAdd b die i off n).trackers = s.trackers := field_of_cnt s State.trackers _ (cntAdd_frame s b die i off n) rfl
@[simp] theorem cntAdd_spareRows (b : Blk) (die i off n : Nat) : (s.cntAdd b die i off n).spareRows = s.spareRows := field_of_cnt s State.spareRows _ (cntAdd_frame s b die i off n) rfl
@[simp] theorem cntAdd_withdrawnBanks (b : Blk) (die i off n : Nat) : (s.cntAdd b die i off n).withdrawnBanks = s.withdrawnBanks := field_of_cnt s State.withdrawnBanks _ (cntAdd_frame s b die i off n) rfl
@[simp] theorem cntAdd_ueSeen (b : Blk) (die i off n : Nat) : (s.cntAdd b die i off n).ueSeen = s.ueSeen := field_of_cnt s State.ueSeen _ (cntAdd_frame s b die i off n) rfl
@[simp] theorem cntAdd_dramSpare (b : Blk) (die i off n : Nat) : (s.cntAdd b die i off n).dramSpare = s.dramSpare := field_of_cnt s State.dramSpare _ (cntAdd_frame s b die i off n) rfl
@[simp] theorem cntAdd_withheld (b : Blk) (die i off n : Nat) : (s.cntAdd b die i off n).withheld = s.withheld := field_of_cnt s State.withheld _ (cntAdd_frame s b die i off n) rfl
@[simp] theorem cntAdd_health (b : Blk) (die i off n : Nat) : (s.cntAdd b die i off n).health = s.health := field_of_cnt s State.health _ (cntAdd_frame s b die i off n) rfl
@[simp] theorem cntAdd_healthAge (b : Blk) (die i off n : Nat) : (s.cntAdd b die i off n).healthAge = s.healthAge := field_of_cnt s State.healthAge _ (cntAdd_frame s b die i off n) rfl
@[simp] theorem cntAdd_monDelay (b : Blk) (die i off n : Nat) : (s.cntAdd b die i off n).monDelay = s.monDelay := field_of_cnt s State.monDelay _ (cntAdd_frame s b die i off n) rfl
@[simp] theorem cntAdd_coresOut (b : Blk) (die i off n : Nat) : (s.cntAdd b die i off n).coresOut = s.coresOut := field_of_cnt s State.coresOut _ (cntAdd_frame s b die i off n) rfl
@[simp] theorem cntAdd_retrains (b : Blk) (die i off n : Nat) : (s.cntAdd b die i off n).retrains = s.retrains := field_of_cnt s State.retrains _ (cntAdd_frame s b die i off n) rfl
@[simp] theorem cntAdd_linkReplay (b : Blk) (die i off n : Nat) : (s.cntAdd b die i off n).linkReplay = s.linkReplay := field_of_cnt s State.linkReplay _ (cntAdd_frame s b die i off n) rfl
@[simp] theorem cntAdd_sec (b : Blk) (die i off n : Nat) : (s.cntAdd b die i off n).sec = s.sec := field_of_cnt s State.sec _ (cntAdd_frame s b die i off n) rfl
@[simp] theorem cntAdd_pwr (b : Blk) (die i off n : Nat) : (s.cntAdd b die i off n).pwr = s.pwr := field_of_cnt s State.pwr _ (cntAdd_frame s b die i off n) rfl
@[simp] theorem cntAdd_mgmt (b : Blk) (die i off n : Nat) : (s.cntAdd b die i off n).mgmt = s.mgmt := field_of_cnt s State.mgmt _ (cntAdd_frame s b die i off n) rfl
@[simp] theorem cntAdd_bist (b : Blk) (die i off n : Nat) : (s.cntAdd b die i off n).bist = s.bist := field_of_cnt s State.bist _ (cntAdd_frame s b die i off n) rfl
@[simp] theorem cntAdd_spareOk (b : Blk) (die i off n : Nat) : (s.cntAdd b die i off n).spareOk = s.spareOk := field_of_cnt s State.spareOk _ (cntAdd_frame s b die i off n) rfl

/-! ### err -/

@[simp] theorem err_pending (who : Requester) (b : Blk) (a : Nat) (k : ErrKind) : (s.err who b a k).pending = s.pending := field_of_regs s State.pending _ (err_frame s who b a k) rfl
@[simp] theorem err_cnt (who : Requester) (b : Blk) (a : Nat) (k : ErrKind) : (s.err who b a k).cnt = s.cnt := field_of_regs s State.cnt _ (err_frame s who b a k) rfl
@[simp] theorem err_cntHi (who : Requester) (b : Blk) (a : Nat) (k : ErrKind) : (s.err who b a k).cntHi = s.cntHi := field_of_regs s State.cntHi _ (err_frame s who b a k) rfl
@[simp] theorem err_mem (who : Requester) (b : Blk) (a : Nat) (k : ErrKind) : (s.err who b a k).mem = s.mem := field_of_regs s State.mem _ (err_frame s who b a k) rfl
@[simp] theorem err_flip (who : Requester) (b : Blk) (a : Nat) (k : ErrKind) : (s.err who b a k).flip = s.flip := field_of_regs s State.flip _ (err_frame s who b a k) rfl
@[simp] theorem err_hostMem (who : Requester) (b : Blk) (a : Nat) (k : ErrKind) : (s.err who b a k).hostMem = s.hostMem := field_of_regs s State.hostMem _ (err_frame s who b a k) rfl
@[simp] theorem err_readData (who : Requester) (b : Blk) (a : Nat) (k : ErrKind) : (s.err who b a k).readData = s.readData := field_of_regs s State.readData _ (err_frame s who b a k) rfl
@[simp] theorem err_freeCtr (who : Requester) (b : Blk) (a : Nat) (k : ErrKind) : (s.err who b a k).freeCtr = s.freeCtr := field_of_regs s State.freeCtr _ (err_frame s who b a k) rfl
@[simp] theorem err_breath (who : Requester) (b : Blk) (a : Nat) (k : ErrKind) : (s.err who b a k).breath = s.breath := field_of_regs s State.breath _ (err_frame s who b a k) rfl
@[simp] theorem err_steps (who : Requester) (b : Blk) (a : Nat) (k : ErrKind) : (s.err who b a k).steps = s.steps := field_of_regs s State.steps _ (err_frame s who b a k) rfl
@[simp] theorem err_reeds (who : Requester) (b : Blk) (a : Nat) (k : ErrKind) : (s.err who b a k).reeds = s.reeds := field_of_regs s State.reeds _ (err_frame s who b a k) rfl
@[simp] theorem err_linksDown (who : Requester) (b : Blk) (a : Nat) (k : ErrKind) : (s.err who b a k).linksDown = s.linksDown := field_of_regs s State.linksDown _ (err_frame s who b a k) rfl
@[simp] theorem err_inReset (who : Requester) (b : Blk) (a : Nat) (k : ErrKind) : (s.err who b a k).inReset = s.inReset := field_of_regs s State.inReset _ (err_frame s who b a k) rfl
@[simp] theorem err_handover (who : Requester) (b : Blk) (a : Nat) (k : ErrKind) : (s.err who b a k).handover = s.handover := field_of_regs s State.handover _ (err_frame s who b a k) rfl
@[simp] theorem err_portLast (who : Requester) (b : Blk) (a : Nat) (k : ErrKind) : (s.err who b a k).portLast = s.portLast := field_of_regs s State.portLast _ (err_frame s who b a k) rfl
@[simp] theorem err_scrubLeft (who : Requester) (b : Blk) (a : Nat) (k : ErrKind) : (s.err who b a k).scrubLeft = s.scrubLeft := field_of_regs s State.scrubLeft _ (err_frame s who b a k) rfl
@[simp] theorem err_scrubSeen (who : Requester) (b : Blk) (a : Nat) (k : ErrKind) : (s.err who b a k).scrubSeen = s.scrubSeen := field_of_regs s State.scrubSeen _ (err_frame s who b a k) rfl
@[simp] theorem err_fns (who : Requester) (b : Blk) (a : Nat) (k : ErrKind) : (s.err who b a k).fns = s.fns := field_of_regs s State.fns _ (err_frame s who b a k) rfl
@[simp] theorem err_mbxLast (who : Requester) (b : Blk) (a : Nat) (k : ErrKind) : (s.err who b a k).mbxLast = s.mbxLast := field_of_regs s State.mbxLast _ (err_frame s who b a k) rfl
@[simp] theorem err_abortsA (who : Requester) (b : Blk) (a : Nat) (k : ErrKind) : (s.err who b a k).abortsA = s.abortsA := field_of_regs s State.abortsA _ (err_frame s who b a k) rfl
@[simp] theorem err_abortsB (who : Requester) (b : Blk) (a : Nat) (k : ErrKind) : (s.err who b a k).abortsB = s.abortsB := field_of_regs s State.abortsB _ (err_frame s who b a k) rfl
@[simp] theorem err_fwNotices (who : Requester) (b : Blk) (a : Nat) (k : ErrKind) : (s.err who b a k).fwNotices = s.fwNotices := field_of_regs s State.fwNotices _ (err_frame s who b a k) rfl
@[simp] theorem err_msixSent (who : Requester) (b : Blk) (a : Nat) (k : ErrKind) : (s.err who b a k).msixSent = s.msixSent := field_of_regs s State.msixSent _ (err_frame s who b a k) rfl
@[simp] theorem err_reply (who : Requester) (b : Blk) (a : Nat) (k : ErrKind) : (s.err who b a k).reply = s.reply := field_of_regs s State.reply _ (err_frame s who b a k) rfl
@[simp] theorem err_restarted (who : Requester) (b : Blk) (a : Nat) (k : ErrKind) : (s.err who b a k).restarted = s.restarted := field_of_regs s State.restarted _ (err_frame s who b a k) rfl
@[simp] theorem err_objs (who : Requester) (b : Blk) (a : Nat) (k : ErrKind) : (s.err who b a k).objs = s.objs := field_of_regs s State.objs _ (err_frame s who b a k) rfl
@[simp] theorem err_swaps (who : Requester) (b : Blk) (a : Nat) (k : ErrKind) : (s.err who b a k).swaps = s.swaps := field_of_regs s State.swaps _ (err_frame s who b a k) rfl
@[simp] theorem err_models (who : Requester) (b : Blk) (a : Nat) (k : ErrKind) : (s.err who b a k).models = s.models := field_of_regs s State.models _ (err_frame s who b a k) rfl
@[simp] theorem err_horns (who : Requester) (b : Blk) (a : Nat) (k : ErrKind) : (s.err who b a k).horns = s.horns := field_of_regs s State.horns _ (err_frame s who b a k) rfl
@[simp] theorem err_dirs (who : Requester) (b : Blk) (a : Nat) (k : ErrKind) : (s.err who b a k).dirs = s.dirs := field_of_regs s State.dirs _ (err_frame s who b a k) rfl
@[simp] theorem err_pubs (who : Requester) (b : Blk) (a : Nat) (k : ErrKind) : (s.err who b a k).pubs = s.pubs := field_of_regs s State.pubs _ (err_frame s who b a k) rfl
@[simp] theorem err_runs (who : Requester) (b : Blk) (a : Nat) (k : ErrKind) : (s.err who b a k).runs = s.runs := field_of_regs s State.runs _ (err_frame s who b a k) rfl
@[simp] theorem err_serps (who : Requester) (b : Blk) (a : Nat) (k : ErrKind) : (s.err who b a k).serps = s.serps := field_of_regs s State.serps _ (err_frame s who b a k) rfl
@[simp] theorem err_panps (who : Requester) (b : Blk) (a : Nat) (k : ErrKind) : (s.err who b a k).panps = s.panps := field_of_regs s State.panps _ (err_frame s who b a k) rfl
@[simp] theorem err_reqs (who : Requester) (b : Blk) (a : Nat) (k : ErrKind) : (s.err who b a k).reqs = s.reqs := field_of_regs s State.reqs _ (err_frame s who b a k) rfl
@[simp] theorem err_reqEvents (who : Requester) (b : Blk) (a : Nat) (k : ErrKind) : (s.err who b a k).reqEvents = s.reqEvents := field_of_regs s State.reqEvents _ (err_frame s who b a k) rfl
@[simp] theorem err_shedClear (who : Requester) (b : Blk) (a : Nat) (k : ErrKind) : (s.err who b a k).shedClear = s.shedClear := field_of_regs s State.shedClear _ (err_frame s who b a k) rfl
@[simp] theorem err_edgeReplies (who : Requester) (b : Blk) (a : Nat) (k : ErrKind) : (s.err who b a k).edgeReplies = s.edgeReplies := field_of_regs s State.edgeReplies _ (err_frame s who b a k) rfl
@[simp] theorem err_sess (who : Requester) (b : Blk) (a : Nat) (k : ErrKind) : (s.err who b a k).sess = s.sess := field_of_regs s State.sess _ (err_frame s who b a k) rfl
@[simp] theorem err_sessOps (who : Requester) (b : Blk) (a : Nat) (k : ErrKind) : (s.err who b a k).sessOps = s.sessOps := field_of_regs s State.sessOps _ (err_frame s who b a k) rfl
@[simp] theorem err_sessLost (who : Requester) (b : Blk) (a : Nat) (k : ErrKind) : (s.err who b a k).sessLost = s.sessLost := field_of_regs s State.sessLost _ (err_frame s who b a k) rfl
@[simp] theorem err_pfxs (who : Requester) (b : Blk) (a : Nat) (k : ErrKind) : (s.err who b a k).pfxs = s.pfxs := field_of_regs s State.pfxs _ (err_frame s who b a k) rfl
@[simp] theorem err_fwds (who : Requester) (b : Blk) (a : Nat) (k : ErrKind) : (s.err who b a k).fwds = s.fwds := field_of_regs s State.fwds _ (err_frame s who b a k) rfl
@[simp] theorem err_repros (who : Requester) (b : Blk) (a : Nat) (k : ErrKind) : (s.err who b a k).repros = s.repros := field_of_regs s State.repros _ (err_frame s who b a k) rfl
@[simp] theorem err_bktLast (who : Requester) (b : Blk) (a : Nat) (k : ErrKind) : (s.err who b a k).bktLast = s.bktLast := field_of_regs s State.bktLast _ (err_frame s who b a k) rfl
@[simp] theorem err_drones (who : Requester) (b : Blk) (a : Nat) (k : ErrKind) : (s.err who b a k).drones = s.drones := field_of_regs s State.drones _ (err_frame s who b a k) rfl
@[simp] theorem err_flashDone (who : Requester) (b : Blk) (a : Nat) (k : ErrKind) : (s.err who b a k).flashDone = s.flashDone := field_of_regs s State.flashDone _ (err_frame s who b a k) rfl
@[simp] theorem err_faults (who : Requester) (b : Blk) (a : Nat) (k : ErrKind) : (s.err who b a k).faults = s.faults := field_of_regs s State.faults _ (err_frame s who b a k) rfl
@[simp] theorem err_recov (who : Requester) (b : Blk) (a : Nat) (k : ErrKind) : (s.err who b a k).recov = s.recov := field_of_regs s State.recov _ (err_frame s who b a k) rfl
@[simp] theorem err_waitFaults (who : Requester) (b : Blk) (a : Nat) (k : ErrKind) : (s.err who b a k).waitFaults = s.waitFaults := field_of_regs s State.waitFaults _ (err_frame s who b a k) rfl
@[simp] theorem err_trackers (who : Requester) (b : Blk) (a : Nat) (k : ErrKind) : (s.err who b a k).trackers = s.trackers := field_of_regs s State.trackers _ (err_frame s who b a k) rfl
@[simp] theorem err_spareRows (who : Requester) (b : Blk) (a : Nat) (k : ErrKind) : (s.err who b a k).spareRows = s.spareRows := field_of_regs s State.spareRows _ (err_frame s who b a k) rfl
@[simp] theorem err_withdrawnBanks (who : Requester) (b : Blk) (a : Nat) (k : ErrKind) : (s.err who b a k).withdrawnBanks = s.withdrawnBanks := field_of_regs s State.withdrawnBanks _ (err_frame s who b a k) rfl
@[simp] theorem err_ueSeen (who : Requester) (b : Blk) (a : Nat) (k : ErrKind) : (s.err who b a k).ueSeen = s.ueSeen := field_of_regs s State.ueSeen _ (err_frame s who b a k) rfl
@[simp] theorem err_dramSpare (who : Requester) (b : Blk) (a : Nat) (k : ErrKind) : (s.err who b a k).dramSpare = s.dramSpare := field_of_regs s State.dramSpare _ (err_frame s who b a k) rfl
@[simp] theorem err_withheld (who : Requester) (b : Blk) (a : Nat) (k : ErrKind) : (s.err who b a k).withheld = s.withheld := field_of_regs s State.withheld _ (err_frame s who b a k) rfl
@[simp] theorem err_health (who : Requester) (b : Blk) (a : Nat) (k : ErrKind) : (s.err who b a k).health = s.health := field_of_regs s State.health _ (err_frame s who b a k) rfl
@[simp] theorem err_healthAge (who : Requester) (b : Blk) (a : Nat) (k : ErrKind) : (s.err who b a k).healthAge = s.healthAge := field_of_regs s State.healthAge _ (err_frame s who b a k) rfl
@[simp] theorem err_monDelay (who : Requester) (b : Blk) (a : Nat) (k : ErrKind) : (s.err who b a k).monDelay = s.monDelay := field_of_regs s State.monDelay _ (err_frame s who b a k) rfl
@[simp] theorem err_coresOut (who : Requester) (b : Blk) (a : Nat) (k : ErrKind) : (s.err who b a k).coresOut = s.coresOut := field_of_regs s State.coresOut _ (err_frame s who b a k) rfl
@[simp] theorem err_retrains (who : Requester) (b : Blk) (a : Nat) (k : ErrKind) : (s.err who b a k).retrains = s.retrains := field_of_regs s State.retrains _ (err_frame s who b a k) rfl
@[simp] theorem err_linkReplay (who : Requester) (b : Blk) (a : Nat) (k : ErrKind) : (s.err who b a k).linkReplay = s.linkReplay := field_of_regs s State.linkReplay _ (err_frame s who b a k) rfl
@[simp] theorem err_sec (who : Requester) (b : Blk) (a : Nat) (k : ErrKind) : (s.err who b a k).sec = s.sec := field_of_regs s State.sec _ (err_frame s who b a k) rfl
@[simp] theorem err_pwr (who : Requester) (b : Blk) (a : Nat) (k : ErrKind) : (s.err who b a k).pwr = s.pwr := field_of_regs s State.pwr _ (err_frame s who b a k) rfl
@[simp] theorem err_mgmt (who : Requester) (b : Blk) (a : Nat) (k : ErrKind) : (s.err who b a k).mgmt = s.mgmt := field_of_regs s State.mgmt _ (err_frame s who b a k) rfl
@[simp] theorem err_bist (who : Requester) (b : Blk) (a : Nat) (k : ErrKind) : (s.err who b a k).bist = s.bist := field_of_regs s State.bist _ (err_frame s who b a k) rfl
@[simp] theorem err_spareOk (who : Requester) (b : Blk) (a : Nat) (k : ErrKind) : (s.err who b a k).spareOk = s.spareOk := field_of_regs s State.spareOk _ (err_frame s who b a k) rfl

/-! ### writeFields -/

@[simp] theorem writeFields_pending (who : Requester) (b : Blk) (a key : Nat) (v : Word) : (s.writeFields who b a key v).pending = s.pending := field_of_regs s State.pending _ (writeFields_frame s who b a key v) rfl
@[simp] theorem writeFields_cnt (who : Requester) (b : Blk) (a key : Nat) (v : Word) : (s.writeFields who b a key v).cnt = s.cnt := field_of_regs s State.cnt _ (writeFields_frame s who b a key v) rfl
@[simp] theorem writeFields_cntHi (who : Requester) (b : Blk) (a key : Nat) (v : Word) : (s.writeFields who b a key v).cntHi = s.cntHi := field_of_regs s State.cntHi _ (writeFields_frame s who b a key v) rfl
@[simp] theorem writeFields_mem (who : Requester) (b : Blk) (a key : Nat) (v : Word) : (s.writeFields who b a key v).mem = s.mem := field_of_regs s State.mem _ (writeFields_frame s who b a key v) rfl
@[simp] theorem writeFields_flip (who : Requester) (b : Blk) (a key : Nat) (v : Word) : (s.writeFields who b a key v).flip = s.flip := field_of_regs s State.flip _ (writeFields_frame s who b a key v) rfl
@[simp] theorem writeFields_hostMem (who : Requester) (b : Blk) (a key : Nat) (v : Word) : (s.writeFields who b a key v).hostMem = s.hostMem := field_of_regs s State.hostMem _ (writeFields_frame s who b a key v) rfl
@[simp] theorem writeFields_readData (who : Requester) (b : Blk) (a key : Nat) (v : Word) : (s.writeFields who b a key v).readData = s.readData := field_of_regs s State.readData _ (writeFields_frame s who b a key v) rfl
@[simp] theorem writeFields_freeCtr (who : Requester) (b : Blk) (a key : Nat) (v : Word) : (s.writeFields who b a key v).freeCtr = s.freeCtr := field_of_regs s State.freeCtr _ (writeFields_frame s who b a key v) rfl
@[simp] theorem writeFields_breath (who : Requester) (b : Blk) (a key : Nat) (v : Word) : (s.writeFields who b a key v).breath = s.breath := field_of_regs s State.breath _ (writeFields_frame s who b a key v) rfl
@[simp] theorem writeFields_steps (who : Requester) (b : Blk) (a key : Nat) (v : Word) : (s.writeFields who b a key v).steps = s.steps := field_of_regs s State.steps _ (writeFields_frame s who b a key v) rfl
@[simp] theorem writeFields_reeds (who : Requester) (b : Blk) (a key : Nat) (v : Word) : (s.writeFields who b a key v).reeds = s.reeds := field_of_regs s State.reeds _ (writeFields_frame s who b a key v) rfl
@[simp] theorem writeFields_linksDown (who : Requester) (b : Blk) (a key : Nat) (v : Word) : (s.writeFields who b a key v).linksDown = s.linksDown := field_of_regs s State.linksDown _ (writeFields_frame s who b a key v) rfl
@[simp] theorem writeFields_inReset (who : Requester) (b : Blk) (a key : Nat) (v : Word) : (s.writeFields who b a key v).inReset = s.inReset := field_of_regs s State.inReset _ (writeFields_frame s who b a key v) rfl
@[simp] theorem writeFields_handover (who : Requester) (b : Blk) (a key : Nat) (v : Word) : (s.writeFields who b a key v).handover = s.handover := field_of_regs s State.handover _ (writeFields_frame s who b a key v) rfl
@[simp] theorem writeFields_portLast (who : Requester) (b : Blk) (a key : Nat) (v : Word) : (s.writeFields who b a key v).portLast = s.portLast := field_of_regs s State.portLast _ (writeFields_frame s who b a key v) rfl
@[simp] theorem writeFields_scrubLeft (who : Requester) (b : Blk) (a key : Nat) (v : Word) : (s.writeFields who b a key v).scrubLeft = s.scrubLeft := field_of_regs s State.scrubLeft _ (writeFields_frame s who b a key v) rfl
@[simp] theorem writeFields_scrubSeen (who : Requester) (b : Blk) (a key : Nat) (v : Word) : (s.writeFields who b a key v).scrubSeen = s.scrubSeen := field_of_regs s State.scrubSeen _ (writeFields_frame s who b a key v) rfl
@[simp] theorem writeFields_fns (who : Requester) (b : Blk) (a key : Nat) (v : Word) : (s.writeFields who b a key v).fns = s.fns := field_of_regs s State.fns _ (writeFields_frame s who b a key v) rfl
@[simp] theorem writeFields_mbxLast (who : Requester) (b : Blk) (a key : Nat) (v : Word) : (s.writeFields who b a key v).mbxLast = s.mbxLast := field_of_regs s State.mbxLast _ (writeFields_frame s who b a key v) rfl
@[simp] theorem writeFields_abortsA (who : Requester) (b : Blk) (a key : Nat) (v : Word) : (s.writeFields who b a key v).abortsA = s.abortsA := field_of_regs s State.abortsA _ (writeFields_frame s who b a key v) rfl
@[simp] theorem writeFields_abortsB (who : Requester) (b : Blk) (a key : Nat) (v : Word) : (s.writeFields who b a key v).abortsB = s.abortsB := field_of_regs s State.abortsB _ (writeFields_frame s who b a key v) rfl
@[simp] theorem writeFields_fwNotices (who : Requester) (b : Blk) (a key : Nat) (v : Word) : (s.writeFields who b a key v).fwNotices = s.fwNotices := field_of_regs s State.fwNotices _ (writeFields_frame s who b a key v) rfl
@[simp] theorem writeFields_msixSent (who : Requester) (b : Blk) (a key : Nat) (v : Word) : (s.writeFields who b a key v).msixSent = s.msixSent := field_of_regs s State.msixSent _ (writeFields_frame s who b a key v) rfl
@[simp] theorem writeFields_reply (who : Requester) (b : Blk) (a key : Nat) (v : Word) : (s.writeFields who b a key v).reply = s.reply := field_of_regs s State.reply _ (writeFields_frame s who b a key v) rfl
@[simp] theorem writeFields_restarted (who : Requester) (b : Blk) (a key : Nat) (v : Word) : (s.writeFields who b a key v).restarted = s.restarted := field_of_regs s State.restarted _ (writeFields_frame s who b a key v) rfl
@[simp] theorem writeFields_objs (who : Requester) (b : Blk) (a key : Nat) (v : Word) : (s.writeFields who b a key v).objs = s.objs := field_of_regs s State.objs _ (writeFields_frame s who b a key v) rfl
@[simp] theorem writeFields_swaps (who : Requester) (b : Blk) (a key : Nat) (v : Word) : (s.writeFields who b a key v).swaps = s.swaps := field_of_regs s State.swaps _ (writeFields_frame s who b a key v) rfl
@[simp] theorem writeFields_models (who : Requester) (b : Blk) (a key : Nat) (v : Word) : (s.writeFields who b a key v).models = s.models := field_of_regs s State.models _ (writeFields_frame s who b a key v) rfl
@[simp] theorem writeFields_horns (who : Requester) (b : Blk) (a key : Nat) (v : Word) : (s.writeFields who b a key v).horns = s.horns := field_of_regs s State.horns _ (writeFields_frame s who b a key v) rfl
@[simp] theorem writeFields_dirs (who : Requester) (b : Blk) (a key : Nat) (v : Word) : (s.writeFields who b a key v).dirs = s.dirs := field_of_regs s State.dirs _ (writeFields_frame s who b a key v) rfl
@[simp] theorem writeFields_pubs (who : Requester) (b : Blk) (a key : Nat) (v : Word) : (s.writeFields who b a key v).pubs = s.pubs := field_of_regs s State.pubs _ (writeFields_frame s who b a key v) rfl
@[simp] theorem writeFields_runs (who : Requester) (b : Blk) (a key : Nat) (v : Word) : (s.writeFields who b a key v).runs = s.runs := field_of_regs s State.runs _ (writeFields_frame s who b a key v) rfl
@[simp] theorem writeFields_serps (who : Requester) (b : Blk) (a key : Nat) (v : Word) : (s.writeFields who b a key v).serps = s.serps := field_of_regs s State.serps _ (writeFields_frame s who b a key v) rfl
@[simp] theorem writeFields_panps (who : Requester) (b : Blk) (a key : Nat) (v : Word) : (s.writeFields who b a key v).panps = s.panps := field_of_regs s State.panps _ (writeFields_frame s who b a key v) rfl
@[simp] theorem writeFields_reqs (who : Requester) (b : Blk) (a key : Nat) (v : Word) : (s.writeFields who b a key v).reqs = s.reqs := field_of_regs s State.reqs _ (writeFields_frame s who b a key v) rfl
@[simp] theorem writeFields_reqEvents (who : Requester) (b : Blk) (a key : Nat) (v : Word) : (s.writeFields who b a key v).reqEvents = s.reqEvents := field_of_regs s State.reqEvents _ (writeFields_frame s who b a key v) rfl
@[simp] theorem writeFields_shedClear (who : Requester) (b : Blk) (a key : Nat) (v : Word) : (s.writeFields who b a key v).shedClear = s.shedClear := field_of_regs s State.shedClear _ (writeFields_frame s who b a key v) rfl
@[simp] theorem writeFields_edgeReplies (who : Requester) (b : Blk) (a key : Nat) (v : Word) : (s.writeFields who b a key v).edgeReplies = s.edgeReplies := field_of_regs s State.edgeReplies _ (writeFields_frame s who b a key v) rfl
@[simp] theorem writeFields_sess (who : Requester) (b : Blk) (a key : Nat) (v : Word) : (s.writeFields who b a key v).sess = s.sess := field_of_regs s State.sess _ (writeFields_frame s who b a key v) rfl
@[simp] theorem writeFields_sessOps (who : Requester) (b : Blk) (a key : Nat) (v : Word) : (s.writeFields who b a key v).sessOps = s.sessOps := field_of_regs s State.sessOps _ (writeFields_frame s who b a key v) rfl
@[simp] theorem writeFields_sessLost (who : Requester) (b : Blk) (a key : Nat) (v : Word) : (s.writeFields who b a key v).sessLost = s.sessLost := field_of_regs s State.sessLost _ (writeFields_frame s who b a key v) rfl
@[simp] theorem writeFields_pfxs (who : Requester) (b : Blk) (a key : Nat) (v : Word) : (s.writeFields who b a key v).pfxs = s.pfxs := field_of_regs s State.pfxs _ (writeFields_frame s who b a key v) rfl
@[simp] theorem writeFields_fwds (who : Requester) (b : Blk) (a key : Nat) (v : Word) : (s.writeFields who b a key v).fwds = s.fwds := field_of_regs s State.fwds _ (writeFields_frame s who b a key v) rfl
@[simp] theorem writeFields_repros (who : Requester) (b : Blk) (a key : Nat) (v : Word) : (s.writeFields who b a key v).repros = s.repros := field_of_regs s State.repros _ (writeFields_frame s who b a key v) rfl
@[simp] theorem writeFields_bktLast (who : Requester) (b : Blk) (a key : Nat) (v : Word) : (s.writeFields who b a key v).bktLast = s.bktLast := field_of_regs s State.bktLast _ (writeFields_frame s who b a key v) rfl
@[simp] theorem writeFields_drones (who : Requester) (b : Blk) (a key : Nat) (v : Word) : (s.writeFields who b a key v).drones = s.drones := field_of_regs s State.drones _ (writeFields_frame s who b a key v) rfl
@[simp] theorem writeFields_flashDone (who : Requester) (b : Blk) (a key : Nat) (v : Word) : (s.writeFields who b a key v).flashDone = s.flashDone := field_of_regs s State.flashDone _ (writeFields_frame s who b a key v) rfl
@[simp] theorem writeFields_faults (who : Requester) (b : Blk) (a key : Nat) (v : Word) : (s.writeFields who b a key v).faults = s.faults := field_of_regs s State.faults _ (writeFields_frame s who b a key v) rfl
@[simp] theorem writeFields_recov (who : Requester) (b : Blk) (a key : Nat) (v : Word) : (s.writeFields who b a key v).recov = s.recov := field_of_regs s State.recov _ (writeFields_frame s who b a key v) rfl
@[simp] theorem writeFields_waitFaults (who : Requester) (b : Blk) (a key : Nat) (v : Word) : (s.writeFields who b a key v).waitFaults = s.waitFaults := field_of_regs s State.waitFaults _ (writeFields_frame s who b a key v) rfl
@[simp] theorem writeFields_trackers (who : Requester) (b : Blk) (a key : Nat) (v : Word) : (s.writeFields who b a key v).trackers = s.trackers := field_of_regs s State.trackers _ (writeFields_frame s who b a key v) rfl
@[simp] theorem writeFields_spareRows (who : Requester) (b : Blk) (a key : Nat) (v : Word) : (s.writeFields who b a key v).spareRows = s.spareRows := field_of_regs s State.spareRows _ (writeFields_frame s who b a key v) rfl
@[simp] theorem writeFields_withdrawnBanks (who : Requester) (b : Blk) (a key : Nat) (v : Word) : (s.writeFields who b a key v).withdrawnBanks = s.withdrawnBanks := field_of_regs s State.withdrawnBanks _ (writeFields_frame s who b a key v) rfl
@[simp] theorem writeFields_ueSeen (who : Requester) (b : Blk) (a key : Nat) (v : Word) : (s.writeFields who b a key v).ueSeen = s.ueSeen := field_of_regs s State.ueSeen _ (writeFields_frame s who b a key v) rfl
@[simp] theorem writeFields_dramSpare (who : Requester) (b : Blk) (a key : Nat) (v : Word) : (s.writeFields who b a key v).dramSpare = s.dramSpare := field_of_regs s State.dramSpare _ (writeFields_frame s who b a key v) rfl
@[simp] theorem writeFields_withheld (who : Requester) (b : Blk) (a key : Nat) (v : Word) : (s.writeFields who b a key v).withheld = s.withheld := field_of_regs s State.withheld _ (writeFields_frame s who b a key v) rfl
@[simp] theorem writeFields_health (who : Requester) (b : Blk) (a key : Nat) (v : Word) : (s.writeFields who b a key v).health = s.health := field_of_regs s State.health _ (writeFields_frame s who b a key v) rfl
@[simp] theorem writeFields_healthAge (who : Requester) (b : Blk) (a key : Nat) (v : Word) : (s.writeFields who b a key v).healthAge = s.healthAge := field_of_regs s State.healthAge _ (writeFields_frame s who b a key v) rfl
@[simp] theorem writeFields_monDelay (who : Requester) (b : Blk) (a key : Nat) (v : Word) : (s.writeFields who b a key v).monDelay = s.monDelay := field_of_regs s State.monDelay _ (writeFields_frame s who b a key v) rfl
@[simp] theorem writeFields_coresOut (who : Requester) (b : Blk) (a key : Nat) (v : Word) : (s.writeFields who b a key v).coresOut = s.coresOut := field_of_regs s State.coresOut _ (writeFields_frame s who b a key v) rfl
@[simp] theorem writeFields_retrains (who : Requester) (b : Blk) (a key : Nat) (v : Word) : (s.writeFields who b a key v).retrains = s.retrains := field_of_regs s State.retrains _ (writeFields_frame s who b a key v) rfl
@[simp] theorem writeFields_linkReplay (who : Requester) (b : Blk) (a key : Nat) (v : Word) : (s.writeFields who b a key v).linkReplay = s.linkReplay := field_of_regs s State.linkReplay _ (writeFields_frame s who b a key v) rfl
@[simp] theorem writeFields_sec (who : Requester) (b : Blk) (a key : Nat) (v : Word) : (s.writeFields who b a key v).sec = s.sec := field_of_regs s State.sec _ (writeFields_frame s who b a key v) rfl
@[simp] theorem writeFields_pwr (who : Requester) (b : Blk) (a key : Nat) (v : Word) : (s.writeFields who b a key v).pwr = s.pwr := field_of_regs s State.pwr _ (writeFields_frame s who b a key v) rfl
@[simp] theorem writeFields_mgmt (who : Requester) (b : Blk) (a key : Nat) (v : Word) : (s.writeFields who b a key v).mgmt = s.mgmt := field_of_regs s State.mgmt _ (writeFields_frame s who b a key v) rfl
@[simp] theorem writeFields_bist (who : Requester) (b : Blk) (a key : Nat) (v : Word) : (s.writeFields who b a key v).bist = s.bist := field_of_regs s State.bist _ (writeFields_frame s who b a key v) rfl
@[simp] theorem writeFields_spareOk (who : Requester) (b : Blk) (a key : Nat) (v : Word) : (s.writeFields who b a key v).spareOk = s.spareOk := field_of_regs s State.spareOk _ (writeFields_frame s who b a key v) rfl

/-! ### writeAt -/

@[simp] theorem writeAt_pending (who : Requester) (b : Blk) (die i off : Nat) (v : Word) : (s.writeAt who b die i off v).pending = s.pending := field_of_regs s State.pending _ (writeAt_frame s who b die i off v) rfl
@[simp] theorem writeAt_cnt (who : Requester) (b : Blk) (die i off : Nat) (v : Word) : (s.writeAt who b die i off v).cnt = s.cnt := field_of_regs s State.cnt _ (writeAt_frame s who b die i off v) rfl
@[simp] theorem writeAt_cntHi (who : Requester) (b : Blk) (die i off : Nat) (v : Word) : (s.writeAt who b die i off v).cntHi = s.cntHi := field_of_regs s State.cntHi _ (writeAt_frame s who b die i off v) rfl
@[simp] theorem writeAt_mem (who : Requester) (b : Blk) (die i off : Nat) (v : Word) : (s.writeAt who b die i off v).mem = s.mem := field_of_regs s State.mem _ (writeAt_frame s who b die i off v) rfl
@[simp] theorem writeAt_flip (who : Requester) (b : Blk) (die i off : Nat) (v : Word) : (s.writeAt who b die i off v).flip = s.flip := field_of_regs s State.flip _ (writeAt_frame s who b die i off v) rfl
@[simp] theorem writeAt_hostMem (who : Requester) (b : Blk) (die i off : Nat) (v : Word) : (s.writeAt who b die i off v).hostMem = s.hostMem := field_of_regs s State.hostMem _ (writeAt_frame s who b die i off v) rfl
@[simp] theorem writeAt_readData (who : Requester) (b : Blk) (die i off : Nat) (v : Word) : (s.writeAt who b die i off v).readData = s.readData := field_of_regs s State.readData _ (writeAt_frame s who b die i off v) rfl
@[simp] theorem writeAt_freeCtr (who : Requester) (b : Blk) (die i off : Nat) (v : Word) : (s.writeAt who b die i off v).freeCtr = s.freeCtr := field_of_regs s State.freeCtr _ (writeAt_frame s who b die i off v) rfl
@[simp] theorem writeAt_breath (who : Requester) (b : Blk) (die i off : Nat) (v : Word) : (s.writeAt who b die i off v).breath = s.breath := field_of_regs s State.breath _ (writeAt_frame s who b die i off v) rfl
@[simp] theorem writeAt_steps (who : Requester) (b : Blk) (die i off : Nat) (v : Word) : (s.writeAt who b die i off v).steps = s.steps := field_of_regs s State.steps _ (writeAt_frame s who b die i off v) rfl
@[simp] theorem writeAt_reeds (who : Requester) (b : Blk) (die i off : Nat) (v : Word) : (s.writeAt who b die i off v).reeds = s.reeds := field_of_regs s State.reeds _ (writeAt_frame s who b die i off v) rfl
@[simp] theorem writeAt_linksDown (who : Requester) (b : Blk) (die i off : Nat) (v : Word) : (s.writeAt who b die i off v).linksDown = s.linksDown := field_of_regs s State.linksDown _ (writeAt_frame s who b die i off v) rfl
@[simp] theorem writeAt_inReset (who : Requester) (b : Blk) (die i off : Nat) (v : Word) : (s.writeAt who b die i off v).inReset = s.inReset := field_of_regs s State.inReset _ (writeAt_frame s who b die i off v) rfl
@[simp] theorem writeAt_handover (who : Requester) (b : Blk) (die i off : Nat) (v : Word) : (s.writeAt who b die i off v).handover = s.handover := field_of_regs s State.handover _ (writeAt_frame s who b die i off v) rfl
@[simp] theorem writeAt_portLast (who : Requester) (b : Blk) (die i off : Nat) (v : Word) : (s.writeAt who b die i off v).portLast = s.portLast := field_of_regs s State.portLast _ (writeAt_frame s who b die i off v) rfl
@[simp] theorem writeAt_scrubLeft (who : Requester) (b : Blk) (die i off : Nat) (v : Word) : (s.writeAt who b die i off v).scrubLeft = s.scrubLeft := field_of_regs s State.scrubLeft _ (writeAt_frame s who b die i off v) rfl
@[simp] theorem writeAt_scrubSeen (who : Requester) (b : Blk) (die i off : Nat) (v : Word) : (s.writeAt who b die i off v).scrubSeen = s.scrubSeen := field_of_regs s State.scrubSeen _ (writeAt_frame s who b die i off v) rfl
@[simp] theorem writeAt_fns (who : Requester) (b : Blk) (die i off : Nat) (v : Word) : (s.writeAt who b die i off v).fns = s.fns := field_of_regs s State.fns _ (writeAt_frame s who b die i off v) rfl
@[simp] theorem writeAt_mbxLast (who : Requester) (b : Blk) (die i off : Nat) (v : Word) : (s.writeAt who b die i off v).mbxLast = s.mbxLast := field_of_regs s State.mbxLast _ (writeAt_frame s who b die i off v) rfl
@[simp] theorem writeAt_abortsA (who : Requester) (b : Blk) (die i off : Nat) (v : Word) : (s.writeAt who b die i off v).abortsA = s.abortsA := field_of_regs s State.abortsA _ (writeAt_frame s who b die i off v) rfl
@[simp] theorem writeAt_abortsB (who : Requester) (b : Blk) (die i off : Nat) (v : Word) : (s.writeAt who b die i off v).abortsB = s.abortsB := field_of_regs s State.abortsB _ (writeAt_frame s who b die i off v) rfl
@[simp] theorem writeAt_fwNotices (who : Requester) (b : Blk) (die i off : Nat) (v : Word) : (s.writeAt who b die i off v).fwNotices = s.fwNotices := field_of_regs s State.fwNotices _ (writeAt_frame s who b die i off v) rfl
@[simp] theorem writeAt_msixSent (who : Requester) (b : Blk) (die i off : Nat) (v : Word) : (s.writeAt who b die i off v).msixSent = s.msixSent := field_of_regs s State.msixSent _ (writeAt_frame s who b die i off v) rfl
@[simp] theorem writeAt_reply (who : Requester) (b : Blk) (die i off : Nat) (v : Word) : (s.writeAt who b die i off v).reply = s.reply := field_of_regs s State.reply _ (writeAt_frame s who b die i off v) rfl
@[simp] theorem writeAt_restarted (who : Requester) (b : Blk) (die i off : Nat) (v : Word) : (s.writeAt who b die i off v).restarted = s.restarted := field_of_regs s State.restarted _ (writeAt_frame s who b die i off v) rfl
@[simp] theorem writeAt_objs (who : Requester) (b : Blk) (die i off : Nat) (v : Word) : (s.writeAt who b die i off v).objs = s.objs := field_of_regs s State.objs _ (writeAt_frame s who b die i off v) rfl
@[simp] theorem writeAt_swaps (who : Requester) (b : Blk) (die i off : Nat) (v : Word) : (s.writeAt who b die i off v).swaps = s.swaps := field_of_regs s State.swaps _ (writeAt_frame s who b die i off v) rfl
@[simp] theorem writeAt_models (who : Requester) (b : Blk) (die i off : Nat) (v : Word) : (s.writeAt who b die i off v).models = s.models := field_of_regs s State.models _ (writeAt_frame s who b die i off v) rfl
@[simp] theorem writeAt_horns (who : Requester) (b : Blk) (die i off : Nat) (v : Word) : (s.writeAt who b die i off v).horns = s.horns := field_of_regs s State.horns _ (writeAt_frame s who b die i off v) rfl
@[simp] theorem writeAt_dirs (who : Requester) (b : Blk) (die i off : Nat) (v : Word) : (s.writeAt who b die i off v).dirs = s.dirs := field_of_regs s State.dirs _ (writeAt_frame s who b die i off v) rfl
@[simp] theorem writeAt_pubs (who : Requester) (b : Blk) (die i off : Nat) (v : Word) : (s.writeAt who b die i off v).pubs = s.pubs := field_of_regs s State.pubs _ (writeAt_frame s who b die i off v) rfl
@[simp] theorem writeAt_runs (who : Requester) (b : Blk) (die i off : Nat) (v : Word) : (s.writeAt who b die i off v).runs = s.runs := field_of_regs s State.runs _ (writeAt_frame s who b die i off v) rfl
@[simp] theorem writeAt_serps (who : Requester) (b : Blk) (die i off : Nat) (v : Word) : (s.writeAt who b die i off v).serps = s.serps := field_of_regs s State.serps _ (writeAt_frame s who b die i off v) rfl
@[simp] theorem writeAt_panps (who : Requester) (b : Blk) (die i off : Nat) (v : Word) : (s.writeAt who b die i off v).panps = s.panps := field_of_regs s State.panps _ (writeAt_frame s who b die i off v) rfl
@[simp] theorem writeAt_reqs (who : Requester) (b : Blk) (die i off : Nat) (v : Word) : (s.writeAt who b die i off v).reqs = s.reqs := field_of_regs s State.reqs _ (writeAt_frame s who b die i off v) rfl
@[simp] theorem writeAt_reqEvents (who : Requester) (b : Blk) (die i off : Nat) (v : Word) : (s.writeAt who b die i off v).reqEvents = s.reqEvents := field_of_regs s State.reqEvents _ (writeAt_frame s who b die i off v) rfl
@[simp] theorem writeAt_shedClear (who : Requester) (b : Blk) (die i off : Nat) (v : Word) : (s.writeAt who b die i off v).shedClear = s.shedClear := field_of_regs s State.shedClear _ (writeAt_frame s who b die i off v) rfl
@[simp] theorem writeAt_edgeReplies (who : Requester) (b : Blk) (die i off : Nat) (v : Word) : (s.writeAt who b die i off v).edgeReplies = s.edgeReplies := field_of_regs s State.edgeReplies _ (writeAt_frame s who b die i off v) rfl
@[simp] theorem writeAt_sess (who : Requester) (b : Blk) (die i off : Nat) (v : Word) : (s.writeAt who b die i off v).sess = s.sess := field_of_regs s State.sess _ (writeAt_frame s who b die i off v) rfl
@[simp] theorem writeAt_sessOps (who : Requester) (b : Blk) (die i off : Nat) (v : Word) : (s.writeAt who b die i off v).sessOps = s.sessOps := field_of_regs s State.sessOps _ (writeAt_frame s who b die i off v) rfl
@[simp] theorem writeAt_sessLost (who : Requester) (b : Blk) (die i off : Nat) (v : Word) : (s.writeAt who b die i off v).sessLost = s.sessLost := field_of_regs s State.sessLost _ (writeAt_frame s who b die i off v) rfl
@[simp] theorem writeAt_pfxs (who : Requester) (b : Blk) (die i off : Nat) (v : Word) : (s.writeAt who b die i off v).pfxs = s.pfxs := field_of_regs s State.pfxs _ (writeAt_frame s who b die i off v) rfl
@[simp] theorem writeAt_fwds (who : Requester) (b : Blk) (die i off : Nat) (v : Word) : (s.writeAt who b die i off v).fwds = s.fwds := field_of_regs s State.fwds _ (writeAt_frame s who b die i off v) rfl
@[simp] theorem writeAt_repros (who : Requester) (b : Blk) (die i off : Nat) (v : Word) : (s.writeAt who b die i off v).repros = s.repros := field_of_regs s State.repros _ (writeAt_frame s who b die i off v) rfl
@[simp] theorem writeAt_bktLast (who : Requester) (b : Blk) (die i off : Nat) (v : Word) : (s.writeAt who b die i off v).bktLast = s.bktLast := field_of_regs s State.bktLast _ (writeAt_frame s who b die i off v) rfl
@[simp] theorem writeAt_drones (who : Requester) (b : Blk) (die i off : Nat) (v : Word) : (s.writeAt who b die i off v).drones = s.drones := field_of_regs s State.drones _ (writeAt_frame s who b die i off v) rfl
@[simp] theorem writeAt_flashDone (who : Requester) (b : Blk) (die i off : Nat) (v : Word) : (s.writeAt who b die i off v).flashDone = s.flashDone := field_of_regs s State.flashDone _ (writeAt_frame s who b die i off v) rfl
@[simp] theorem writeAt_faults (who : Requester) (b : Blk) (die i off : Nat) (v : Word) : (s.writeAt who b die i off v).faults = s.faults := field_of_regs s State.faults _ (writeAt_frame s who b die i off v) rfl
@[simp] theorem writeAt_recov (who : Requester) (b : Blk) (die i off : Nat) (v : Word) : (s.writeAt who b die i off v).recov = s.recov := field_of_regs s State.recov _ (writeAt_frame s who b die i off v) rfl
@[simp] theorem writeAt_waitFaults (who : Requester) (b : Blk) (die i off : Nat) (v : Word) : (s.writeAt who b die i off v).waitFaults = s.waitFaults := field_of_regs s State.waitFaults _ (writeAt_frame s who b die i off v) rfl
@[simp] theorem writeAt_trackers (who : Requester) (b : Blk) (die i off : Nat) (v : Word) : (s.writeAt who b die i off v).trackers = s.trackers := field_of_regs s State.trackers _ (writeAt_frame s who b die i off v) rfl
@[simp] theorem writeAt_spareRows (who : Requester) (b : Blk) (die i off : Nat) (v : Word) : (s.writeAt who b die i off v).spareRows = s.spareRows := field_of_regs s State.spareRows _ (writeAt_frame s who b die i off v) rfl
@[simp] theorem writeAt_withdrawnBanks (who : Requester) (b : Blk) (die i off : Nat) (v : Word) : (s.writeAt who b die i off v).withdrawnBanks = s.withdrawnBanks := field_of_regs s State.withdrawnBanks _ (writeAt_frame s who b die i off v) rfl
@[simp] theorem writeAt_ueSeen (who : Requester) (b : Blk) (die i off : Nat) (v : Word) : (s.writeAt who b die i off v).ueSeen = s.ueSeen := field_of_regs s State.ueSeen _ (writeAt_frame s who b die i off v) rfl
@[simp] theorem writeAt_dramSpare (who : Requester) (b : Blk) (die i off : Nat) (v : Word) : (s.writeAt who b die i off v).dramSpare = s.dramSpare := field_of_regs s State.dramSpare _ (writeAt_frame s who b die i off v) rfl
@[simp] theorem writeAt_withheld (who : Requester) (b : Blk) (die i off : Nat) (v : Word) : (s.writeAt who b die i off v).withheld = s.withheld := field_of_regs s State.withheld _ (writeAt_frame s who b die i off v) rfl
@[simp] theorem writeAt_health (who : Requester) (b : Blk) (die i off : Nat) (v : Word) : (s.writeAt who b die i off v).health = s.health := field_of_regs s State.health _ (writeAt_frame s who b die i off v) rfl
@[simp] theorem writeAt_healthAge (who : Requester) (b : Blk) (die i off : Nat) (v : Word) : (s.writeAt who b die i off v).healthAge = s.healthAge := field_of_regs s State.healthAge _ (writeAt_frame s who b die i off v) rfl
@[simp] theorem writeAt_monDelay (who : Requester) (b : Blk) (die i off : Nat) (v : Word) : (s.writeAt who b die i off v).monDelay = s.monDelay := field_of_regs s State.monDelay _ (writeAt_frame s who b die i off v) rfl
@[simp] theorem writeAt_coresOut (who : Requester) (b : Blk) (die i off : Nat) (v : Word) : (s.writeAt who b die i off v).coresOut = s.coresOut := field_of_regs s State.coresOut _ (writeAt_frame s who b die i off v) rfl
@[simp] theorem writeAt_retrains (who : Requester) (b : Blk) (die i off : Nat) (v : Word) : (s.writeAt who b die i off v).retrains = s.retrains := field_of_regs s State.retrains _ (writeAt_frame s who b die i off v) rfl
@[simp] theorem writeAt_linkReplay (who : Requester) (b : Blk) (die i off : Nat) (v : Word) : (s.writeAt who b die i off v).linkReplay = s.linkReplay := field_of_regs s State.linkReplay _ (writeAt_frame s who b die i off v) rfl
@[simp] theorem writeAt_sec (who : Requester) (b : Blk) (die i off : Nat) (v : Word) : (s.writeAt who b die i off v).sec = s.sec := field_of_regs s State.sec _ (writeAt_frame s who b die i off v) rfl
@[simp] theorem writeAt_pwr (who : Requester) (b : Blk) (die i off : Nat) (v : Word) : (s.writeAt who b die i off v).pwr = s.pwr := field_of_regs s State.pwr _ (writeAt_frame s who b die i off v) rfl
@[simp] theorem writeAt_mgmt (who : Requester) (b : Blk) (die i off : Nat) (v : Word) : (s.writeAt who b die i off v).mgmt = s.mgmt := field_of_regs s State.mgmt _ (writeAt_frame s who b die i off v) rfl
@[simp] theorem writeAt_bist (who : Requester) (b : Blk) (die i off : Nat) (v : Word) : (s.writeAt who b die i off v).bist = s.bist := field_of_regs s State.bist _ (writeAt_frame s who b die i off v) rfl
@[simp] theorem writeAt_spareOk (who : Requester) (b : Blk) (die i off : Nat) (v : Word) : (s.writeAt who b die i off v).spareOk = s.spareOk := field_of_regs s State.spareOk _ (writeAt_frame s who b die i off v) rfl

/-! ### refuseAt -/

@[simp] theorem refuseAt_pending (who : Requester) (b : Blk) (die i off : Nat) : (s.refuseAt who b die i off).pending = s.pending := field_of_regs s State.pending _ (refuseAt_frame s who b die i off) rfl
@[simp] theorem refuseAt_cnt (who : Requester) (b : Blk) (die i off : Nat) : (s.refuseAt who b die i off).cnt = s.cnt := field_of_regs s State.cnt _ (refuseAt_frame s who b die i off) rfl
@[simp] theorem refuseAt_cntHi (who : Requester) (b : Blk) (die i off : Nat) : (s.refuseAt who b die i off).cntHi = s.cntHi := field_of_regs s State.cntHi _ (refuseAt_frame s who b die i off) rfl
@[simp] theorem refuseAt_mem (who : Requester) (b : Blk) (die i off : Nat) : (s.refuseAt who b die i off).mem = s.mem := field_of_regs s State.mem _ (refuseAt_frame s who b die i off) rfl
@[simp] theorem refuseAt_flip (who : Requester) (b : Blk) (die i off : Nat) : (s.refuseAt who b die i off).flip = s.flip := field_of_regs s State.flip _ (refuseAt_frame s who b die i off) rfl
@[simp] theorem refuseAt_hostMem (who : Requester) (b : Blk) (die i off : Nat) : (s.refuseAt who b die i off).hostMem = s.hostMem := field_of_regs s State.hostMem _ (refuseAt_frame s who b die i off) rfl
@[simp] theorem refuseAt_readData (who : Requester) (b : Blk) (die i off : Nat) : (s.refuseAt who b die i off).readData = s.readData := field_of_regs s State.readData _ (refuseAt_frame s who b die i off) rfl
@[simp] theorem refuseAt_freeCtr (who : Requester) (b : Blk) (die i off : Nat) : (s.refuseAt who b die i off).freeCtr = s.freeCtr := field_of_regs s State.freeCtr _ (refuseAt_frame s who b die i off) rfl
@[simp] theorem refuseAt_breath (who : Requester) (b : Blk) (die i off : Nat) : (s.refuseAt who b die i off).breath = s.breath := field_of_regs s State.breath _ (refuseAt_frame s who b die i off) rfl
@[simp] theorem refuseAt_steps (who : Requester) (b : Blk) (die i off : Nat) : (s.refuseAt who b die i off).steps = s.steps := field_of_regs s State.steps _ (refuseAt_frame s who b die i off) rfl
@[simp] theorem refuseAt_reeds (who : Requester) (b : Blk) (die i off : Nat) : (s.refuseAt who b die i off).reeds = s.reeds := field_of_regs s State.reeds _ (refuseAt_frame s who b die i off) rfl
@[simp] theorem refuseAt_linksDown (who : Requester) (b : Blk) (die i off : Nat) : (s.refuseAt who b die i off).linksDown = s.linksDown := field_of_regs s State.linksDown _ (refuseAt_frame s who b die i off) rfl
@[simp] theorem refuseAt_inReset (who : Requester) (b : Blk) (die i off : Nat) : (s.refuseAt who b die i off).inReset = s.inReset := field_of_regs s State.inReset _ (refuseAt_frame s who b die i off) rfl
@[simp] theorem refuseAt_handover (who : Requester) (b : Blk) (die i off : Nat) : (s.refuseAt who b die i off).handover = s.handover := field_of_regs s State.handover _ (refuseAt_frame s who b die i off) rfl
@[simp] theorem refuseAt_portLast (who : Requester) (b : Blk) (die i off : Nat) : (s.refuseAt who b die i off).portLast = s.portLast := field_of_regs s State.portLast _ (refuseAt_frame s who b die i off) rfl
@[simp] theorem refuseAt_scrubLeft (who : Requester) (b : Blk) (die i off : Nat) : (s.refuseAt who b die i off).scrubLeft = s.scrubLeft := field_of_regs s State.scrubLeft _ (refuseAt_frame s who b die i off) rfl
@[simp] theorem refuseAt_scrubSeen (who : Requester) (b : Blk) (die i off : Nat) : (s.refuseAt who b die i off).scrubSeen = s.scrubSeen := field_of_regs s State.scrubSeen _ (refuseAt_frame s who b die i off) rfl
@[simp] theorem refuseAt_fns (who : Requester) (b : Blk) (die i off : Nat) : (s.refuseAt who b die i off).fns = s.fns := field_of_regs s State.fns _ (refuseAt_frame s who b die i off) rfl
@[simp] theorem refuseAt_mbxLast (who : Requester) (b : Blk) (die i off : Nat) : (s.refuseAt who b die i off).mbxLast = s.mbxLast := field_of_regs s State.mbxLast _ (refuseAt_frame s who b die i off) rfl
@[simp] theorem refuseAt_abortsA (who : Requester) (b : Blk) (die i off : Nat) : (s.refuseAt who b die i off).abortsA = s.abortsA := field_of_regs s State.abortsA _ (refuseAt_frame s who b die i off) rfl
@[simp] theorem refuseAt_abortsB (who : Requester) (b : Blk) (die i off : Nat) : (s.refuseAt who b die i off).abortsB = s.abortsB := field_of_regs s State.abortsB _ (refuseAt_frame s who b die i off) rfl
@[simp] theorem refuseAt_fwNotices (who : Requester) (b : Blk) (die i off : Nat) : (s.refuseAt who b die i off).fwNotices = s.fwNotices := field_of_regs s State.fwNotices _ (refuseAt_frame s who b die i off) rfl
@[simp] theorem refuseAt_msixSent (who : Requester) (b : Blk) (die i off : Nat) : (s.refuseAt who b die i off).msixSent = s.msixSent := field_of_regs s State.msixSent _ (refuseAt_frame s who b die i off) rfl
@[simp] theorem refuseAt_reply (who : Requester) (b : Blk) (die i off : Nat) : (s.refuseAt who b die i off).reply = s.reply := field_of_regs s State.reply _ (refuseAt_frame s who b die i off) rfl
@[simp] theorem refuseAt_restarted (who : Requester) (b : Blk) (die i off : Nat) : (s.refuseAt who b die i off).restarted = s.restarted := field_of_regs s State.restarted _ (refuseAt_frame s who b die i off) rfl
@[simp] theorem refuseAt_objs (who : Requester) (b : Blk) (die i off : Nat) : (s.refuseAt who b die i off).objs = s.objs := field_of_regs s State.objs _ (refuseAt_frame s who b die i off) rfl
@[simp] theorem refuseAt_swaps (who : Requester) (b : Blk) (die i off : Nat) : (s.refuseAt who b die i off).swaps = s.swaps := field_of_regs s State.swaps _ (refuseAt_frame s who b die i off) rfl
@[simp] theorem refuseAt_models (who : Requester) (b : Blk) (die i off : Nat) : (s.refuseAt who b die i off).models = s.models := field_of_regs s State.models _ (refuseAt_frame s who b die i off) rfl
@[simp] theorem refuseAt_horns (who : Requester) (b : Blk) (die i off : Nat) : (s.refuseAt who b die i off).horns = s.horns := field_of_regs s State.horns _ (refuseAt_frame s who b die i off) rfl
@[simp] theorem refuseAt_dirs (who : Requester) (b : Blk) (die i off : Nat) : (s.refuseAt who b die i off).dirs = s.dirs := field_of_regs s State.dirs _ (refuseAt_frame s who b die i off) rfl
@[simp] theorem refuseAt_pubs (who : Requester) (b : Blk) (die i off : Nat) : (s.refuseAt who b die i off).pubs = s.pubs := field_of_regs s State.pubs _ (refuseAt_frame s who b die i off) rfl
@[simp] theorem refuseAt_runs (who : Requester) (b : Blk) (die i off : Nat) : (s.refuseAt who b die i off).runs = s.runs := field_of_regs s State.runs _ (refuseAt_frame s who b die i off) rfl
@[simp] theorem refuseAt_serps (who : Requester) (b : Blk) (die i off : Nat) : (s.refuseAt who b die i off).serps = s.serps := field_of_regs s State.serps _ (refuseAt_frame s who b die i off) rfl
@[simp] theorem refuseAt_panps (who : Requester) (b : Blk) (die i off : Nat) : (s.refuseAt who b die i off).panps = s.panps := field_of_regs s State.panps _ (refuseAt_frame s who b die i off) rfl
@[simp] theorem refuseAt_reqs (who : Requester) (b : Blk) (die i off : Nat) : (s.refuseAt who b die i off).reqs = s.reqs := field_of_regs s State.reqs _ (refuseAt_frame s who b die i off) rfl
@[simp] theorem refuseAt_reqEvents (who : Requester) (b : Blk) (die i off : Nat) : (s.refuseAt who b die i off).reqEvents = s.reqEvents := field_of_regs s State.reqEvents _ (refuseAt_frame s who b die i off) rfl
@[simp] theorem refuseAt_shedClear (who : Requester) (b : Blk) (die i off : Nat) : (s.refuseAt who b die i off).shedClear = s.shedClear := field_of_regs s State.shedClear _ (refuseAt_frame s who b die i off) rfl
@[simp] theorem refuseAt_edgeReplies (who : Requester) (b : Blk) (die i off : Nat) : (s.refuseAt who b die i off).edgeReplies = s.edgeReplies := field_of_regs s State.edgeReplies _ (refuseAt_frame s who b die i off) rfl
@[simp] theorem refuseAt_sess (who : Requester) (b : Blk) (die i off : Nat) : (s.refuseAt who b die i off).sess = s.sess := field_of_regs s State.sess _ (refuseAt_frame s who b die i off) rfl
@[simp] theorem refuseAt_sessOps (who : Requester) (b : Blk) (die i off : Nat) : (s.refuseAt who b die i off).sessOps = s.sessOps := field_of_regs s State.sessOps _ (refuseAt_frame s who b die i off) rfl
@[simp] theorem refuseAt_sessLost (who : Requester) (b : Blk) (die i off : Nat) : (s.refuseAt who b die i off).sessLost = s.sessLost := field_of_regs s State.sessLost _ (refuseAt_frame s who b die i off) rfl
@[simp] theorem refuseAt_pfxs (who : Requester) (b : Blk) (die i off : Nat) : (s.refuseAt who b die i off).pfxs = s.pfxs := field_of_regs s State.pfxs _ (refuseAt_frame s who b die i off) rfl
@[simp] theorem refuseAt_fwds (who : Requester) (b : Blk) (die i off : Nat) : (s.refuseAt who b die i off).fwds = s.fwds := field_of_regs s State.fwds _ (refuseAt_frame s who b die i off) rfl
@[simp] theorem refuseAt_repros (who : Requester) (b : Blk) (die i off : Nat) : (s.refuseAt who b die i off).repros = s.repros := field_of_regs s State.repros _ (refuseAt_frame s who b die i off) rfl
@[simp] theorem refuseAt_bktLast (who : Requester) (b : Blk) (die i off : Nat) : (s.refuseAt who b die i off).bktLast = s.bktLast := field_of_regs s State.bktLast _ (refuseAt_frame s who b die i off) rfl
@[simp] theorem refuseAt_drones (who : Requester) (b : Blk) (die i off : Nat) : (s.refuseAt who b die i off).drones = s.drones := field_of_regs s State.drones _ (refuseAt_frame s who b die i off) rfl
@[simp] theorem refuseAt_flashDone (who : Requester) (b : Blk) (die i off : Nat) : (s.refuseAt who b die i off).flashDone = s.flashDone := field_of_regs s State.flashDone _ (refuseAt_frame s who b die i off) rfl
@[simp] theorem refuseAt_faults (who : Requester) (b : Blk) (die i off : Nat) : (s.refuseAt who b die i off).faults = s.faults := field_of_regs s State.faults _ (refuseAt_frame s who b die i off) rfl
@[simp] theorem refuseAt_recov (who : Requester) (b : Blk) (die i off : Nat) : (s.refuseAt who b die i off).recov = s.recov := field_of_regs s State.recov _ (refuseAt_frame s who b die i off) rfl
@[simp] theorem refuseAt_waitFaults (who : Requester) (b : Blk) (die i off : Nat) : (s.refuseAt who b die i off).waitFaults = s.waitFaults := field_of_regs s State.waitFaults _ (refuseAt_frame s who b die i off) rfl
@[simp] theorem refuseAt_trackers (who : Requester) (b : Blk) (die i off : Nat) : (s.refuseAt who b die i off).trackers = s.trackers := field_of_regs s State.trackers _ (refuseAt_frame s who b die i off) rfl
@[simp] theorem refuseAt_spareRows (who : Requester) (b : Blk) (die i off : Nat) : (s.refuseAt who b die i off).spareRows = s.spareRows := field_of_regs s State.spareRows _ (refuseAt_frame s who b die i off) rfl
@[simp] theorem refuseAt_withdrawnBanks (who : Requester) (b : Blk) (die i off : Nat) : (s.refuseAt who b die i off).withdrawnBanks = s.withdrawnBanks := field_of_regs s State.withdrawnBanks _ (refuseAt_frame s who b die i off) rfl
@[simp] theorem refuseAt_ueSeen (who : Requester) (b : Blk) (die i off : Nat) : (s.refuseAt who b die i off).ueSeen = s.ueSeen := field_of_regs s State.ueSeen _ (refuseAt_frame s who b die i off) rfl
@[simp] theorem refuseAt_dramSpare (who : Requester) (b : Blk) (die i off : Nat) : (s.refuseAt who b die i off).dramSpare = s.dramSpare := field_of_regs s State.dramSpare _ (refuseAt_frame s who b die i off) rfl
@[simp] theorem refuseAt_withheld (who : Requester) (b : Blk) (die i off : Nat) : (s.refuseAt who b die i off).withheld = s.withheld := field_of_regs s State.withheld _ (refuseAt_frame s who b die i off) rfl
@[simp] theorem refuseAt_health (who : Requester) (b : Blk) (die i off : Nat) : (s.refuseAt who b die i off).health = s.health := field_of_regs s State.health _ (refuseAt_frame s who b die i off) rfl
@[simp] theorem refuseAt_healthAge (who : Requester) (b : Blk) (die i off : Nat) : (s.refuseAt who b die i off).healthAge = s.healthAge := field_of_regs s State.healthAge _ (refuseAt_frame s who b die i off) rfl
@[simp] theorem refuseAt_monDelay (who : Requester) (b : Blk) (die i off : Nat) : (s.refuseAt who b die i off).monDelay = s.monDelay := field_of_regs s State.monDelay _ (refuseAt_frame s who b die i off) rfl
@[simp] theorem refuseAt_coresOut (who : Requester) (b : Blk) (die i off : Nat) : (s.refuseAt who b die i off).coresOut = s.coresOut := field_of_regs s State.coresOut _ (refuseAt_frame s who b die i off) rfl
@[simp] theorem refuseAt_retrains (who : Requester) (b : Blk) (die i off : Nat) : (s.refuseAt who b die i off).retrains = s.retrains := field_of_regs s State.retrains _ (refuseAt_frame s who b die i off) rfl
@[simp] theorem refuseAt_linkReplay (who : Requester) (b : Blk) (die i off : Nat) : (s.refuseAt who b die i off).linkReplay = s.linkReplay := field_of_regs s State.linkReplay _ (refuseAt_frame s who b die i off) rfl
@[simp] theorem refuseAt_sec (who : Requester) (b : Blk) (die i off : Nat) : (s.refuseAt who b die i off).sec = s.sec := field_of_regs s State.sec _ (refuseAt_frame s who b die i off) rfl
@[simp] theorem refuseAt_pwr (who : Requester) (b : Blk) (die i off : Nat) : (s.refuseAt who b die i off).pwr = s.pwr := field_of_regs s State.pwr _ (refuseAt_frame s who b die i off) rfl
@[simp] theorem refuseAt_mgmt (who : Requester) (b : Blk) (die i off : Nat) : (s.refuseAt who b die i off).mgmt = s.mgmt := field_of_regs s State.mgmt _ (refuseAt_frame s who b die i off) rfl
@[simp] theorem refuseAt_bist (who : Requester) (b : Blk) (die i off : Nat) : (s.refuseAt who b die i off).bist = s.bist := field_of_regs s State.bist _ (refuseAt_frame s who b die i off) rfl
@[simp] theorem refuseAt_spareOk (who : Requester) (b : Blk) (die i off : Nat) : (s.refuseAt who b die i off).spareOk = s.spareOk := field_of_regs s State.spareOk _ (refuseAt_frame s who b die i off) rfl

/-! ### What the accessors read -/

theorem reg_raise (a n c : Nat) : (s.raise a n).reg c = if inPage a 0x010 = c then putW (s.reg c) n n 1 else s.reg c := by
  unfold State.raise; rw [reg_setFld]; split <;> simp_all

theorem reg_raise_other (a n c : Nat) (h : inPage a 0x010 ≠ c) : (s.raise a n).reg c = s.reg c := by simp [reg_raise, h]

theorem rbit_raise (a n : Nat) (h : n < 32) : (s.raise a n).rbit (inPage a 0x010) n = true := by
  unfold State.raise; rw [rbit_setFld_same _ _ _ h]; rfl

theorem rbit_raise_keep (a n c m : Nat) (hn : n < 32) (h : s.rbit c m = true) : (s.raise a n).rbit c m = true := by
  unfold State.raise
  by_cases e : inPage a 0x010 = c
  · subst e
    by_cases e2 : n = m
    · subst e2; rw [rbit_setFld_same _ _ _ hn]; rfl
    · rw [rbit_setFld_other _ _ _ _ _ e2]; exact h
  · rw [rbit_setFld_reg _ _ _ _ _ _ e]; exact h

@[simp] theorem count_setReg (a : Nat) (w : Word) (c : Nat) : (s.setReg a w).count c = s.count c := rfl
@[simp] theorem count_setFld (a hi lo v c : Nat) : (s.setFld a hi lo v).count c = s.count c := rfl
@[simp] theorem count_raise (a n c : Nat) : (s.raise a n).count c = s.count c := rfl

theorem cntAdd_reg_at (b b' : Blk) (die i off n die' i' o : Nat) (h1 : off < 4096)
    (h : b.at die i 0x028 ≠ b'.at die' i' o) : (s.cntAdd b die i off n).reg (b'.at die' i' o) = s.reg (b'.at die' i' o) := by
  apply reg_cntAdd_other; rw [inPage_at _ _ _ _ _ h1]; exact h

theorem cntAdd_reg_same (b : Blk) (die i off n o : Nat) (h1 : off < 4096) (h : 0x028 ≠ o) :
    (s.cntAdd b die i off n).reg (b.at die i o) = s.reg (b.at die i o) := by
  apply cntAdd_reg_at _ _ _ _ _ _ _ _ _ _ h1; rw [Ne, at_inj]; exact h

end Sys2Proof.Laws
end

