-- ==== Sys2Proof/Machine/Sampler.lean ====
section
/-! DEFINITION. The streams of the random number function (R460) and the token sampler (R461, R462, R621): what the runtime and
the compiler must compute. A reed does it by the instructions of its program (`VRAND` and vector arithmetic), so no command calls
these definitions; they say what such a program's result must be (log entry 220). -/
namespace Sys2Proof.Machine

/-! ### Streams (R460) -/

/-- A stream of a purpose and a subject. -/
def rngStream (purpose subject : Nat) : DWord := BitVec.ofNat 64 (purpose % 2 ^ 7 * 2 ^ 56 + subject % 2 ^ 56)

/-- Purpose 0x01, token sampling: the model of the sampled logits. -/
def sampleStream (model : Nat) : DWord := rngStream 0x01 (model % 2 ^ 16)

/-- Purpose 0x02, drop-out: the fitting step, the layer and the site within the layer. -/
def dropoutStream (step layer site : Nat) : DWord := rngStream 0x02 (step % 2 ^ 24 * 2 ^ 32 + layer % 2 ^ 16 * 2 ^ 16 + site % 2 ^ 16)

/-- Purpose 0x03, stochastic rounding: the tensor. -/
def roundStream (tensor : Nat) : DWord := rngStream 0x03 (tensor % 2 ^ 32)

/-- Purpose 0x04, initialisation: the parameter tensor. -/
def initStream (tensor : Nat) : DWord := rngStream 0x04 (tensor % 2 ^ 32)

/-- A stream is of an assigned purpose or of a user program. -/
def streamOk (x : DWord) : Bool :=
  let p := bits x.toNat 62 56
  !x.getLsbD 63 && (decide (1 ≤ p ∧ p ≤ 4) || decide (0x70 ≤ p))

/-! ### The draw (R461, R462) -/

/-- The uniform value of an output: (r >> 8) × 2^−24, which FP32 holds exactly. -/
def uniform (r : Word) : Word := toFp32 false (.fin false (r.toNat / 256) (-24))

/-- The first token at which the running sum exceeds a threshold, from a sum so far. -/
def firstAbove (threshold : Word) : Word → List (Nat × Word) → Option Nat
  | _, [] => none
  | sum, x :: xs =>
    let sum' := hadd sum x.2
    if (fp32 threshold).lt (fp32 sum') then some x.1 else firstAbove threshold sum' xs

/-- The token that an output chooses of the allowed tokens, each with its probability, in ascending order of id (R462). -/
def chooseToken (probs : List (Nat × Word)) (r : Word) : Option Nat :=
  match firstAbove (hmul (uniform r) (hsum (probs.map (fun x => x.2)))) 0 probs with
  | some t => some t
  | none => probs.getLast?.map (fun x => x.1)

/-! ### Logits to a token (R621) -/

/-- The higher logit; a tie goes to the lower id, which comes first. -/
def higher (a b : Nat × Word) : Nat × Word := if (fp32 a.2).lt (fp32 b.2) then b else a

/-- The token of the highest logit. -/
def greedyToken : List (Nat × Word) → Option Nat
  | [] => none
  | x :: xs => some ((xs.foldl higher x).1)

/-- A logit comes before another among the highest: a higher value, or an equal one of a lower id. -/
def before (a b : Nat × Word) : Bool :=
  (fp32 b.2).lt (fp32 a.2) || ((fp32 a.2).eqv (fp32 b.2) && decide (a.1 < b.1))

/-- The `k` highest of a list, in its order; all for 0. -/
def topK (k : Nat) (xs : List (Nat × Word)) : List (Nat × Word) :=
  if k = 0 then xs else xs.filter (fun x => decide (xs.countP (fun y => before y x) < k))

/-- The partial of one lane of a sum or a maximum over elements that are indexed by token id (R92). -/
def lanePartial (fn : Nat) (xs : List (Nat × Word)) (lane : Nat) : Option Word :=
  match (xs.filter (fun x => decide (x.1 % 32 = lane))).map (fun x => x.2) with
  | [] => none
  | y :: ys => some (ys.foldl (combine fn false false false) y)

/-- The probabilities of tokens from their logits: exponentials of the differences to the maximum, each divided by their sum, with the
orders of R92 and the functions of R126 (R621; the form is DEDUCED, log entry 220). -/
def tokenProbs (xs : List (Nat × Word)) : List (Nat × Word) :=
  let top := reduce 1 7 false false (lanePartial 1 xs)
  let es := xs.map (fun x => (x.1, vfn 0 false (hsub x.2 top)))
  let total := reduce 0 7 false false (lanePartial 0 es)
  es.map (fun x => (x.1, hdiv x.2 total))

/-- The token that is sampled from the allowed tokens' logits, in ascending order of id (R461, R462, R621). -/
def sampleToken (temperature : Word) (k : Nat) (logits : List (Nat × Word)) (r : Word) : Option Nat :=
  if temperature = 0 then greedyToken logits
  else chooseToken (tokenProbs (topK k (logits.map (fun x => (x.1, hdiv x.2 temperature))))) r

/-- The output drawn for the token of a request at an absolute position: the request's seed, and the stream of the model that it
runs (R460, R461). -/
def State.sampleDraw (s : State) (i position : Nat) : Word :=
  rng (BitVec.ofNat 64 (s.req i).seed) (sampleStream (s.req i).runs) position

end Sys2Proof.Machine
end

