-- ==== Sys2Proof/Laws/Sampler.lean ====
section
/-! SUPPORT. What the sampler can do: it takes one of the allowed tokens, and always one where there is one. -/
namespace Sys2Proof.Laws
open Sys2Proof.Machine

theorem firstAbove_mem (u : Word) : ∀ (xs : List (Nat × Word)) (sum : Word) (t : Nat), firstAbove u sum xs = some t → t ∈ xs.map (fun x => x.1)
  | [], _, _, h => by simp [firstAbove] at h
  | x :: xs, sum, t, h => by
    simp only [firstAbove] at h
    split at h
    · simp_all
    · exact List.mem_cons_of_mem _ (firstAbove_mem u xs _ t h)

/-- The token that a draw chooses is one of those given (R462). -/
theorem chooseToken_mem (xs : List (Nat × Word)) (r : Word) (t : Nat) (h : chooseToken xs r = some t) : t ∈ xs.map (fun x => x.1) := by
  simp only [chooseToken] at h
  split at h
  · next heq => cases h; exact firstAbove_mem _ _ _ _ heq
  · obtain ⟨x, hx, rfl⟩ := Option.map_eq_some_iff.mp h
    exact List.mem_map_of_mem (List.mem_of_getLast? hx)

/-- A draw chooses a token wherever one is allowed: rounding leaves the highest (R462). -/
theorem chooseToken_isSome (xs : List (Nat × Word)) (r : Word) (h : xs ≠ []) : (chooseToken xs r).isSome = true := by
  simp only [chooseToken]
  split
  · rfl
  · simp [List.getLast?_isSome, h]

theorem foldl_higher_mem : ∀ (xs : List (Nat × Word)) (x : Nat × Word), xs.foldl higher x ∈ x :: xs
  | [], x => by simp
  | y :: ys, x => by
    have h := foldl_higher_mem ys (higher x y)
    simp only [List.foldl_cons, higher] at h ⊢
    split at h <;> simp_all
    tauto

/-- The token that is sampled is one of the allowed ones (R461, R621). -/
theorem sampleToken_mem (temp : Word) (k : Nat) (xs : List (Nat × Word)) (r : Word) (t : Nat) (h : sampleToken temp k xs r = some t) :
    t ∈ xs.map (fun x => x.1) := by
  simp only [sampleToken] at h
  split at h
  · cases xs with
    | nil => simp [greedyToken] at h
    | cons x xs =>
      simp only [greedyToken, Option.some.injEq] at h
      exact h ▸ List.mem_map_of_mem (foldl_higher_mem xs x)
  · have := chooseToken_mem _ _ _ h
    simp only [tokenProbs, topK, List.map_map, List.mem_map, Function.comp] at this
    obtain ⟨y, hy, rfl⟩ := this
    split at hy
    · obtain ⟨z, hz, rfl⟩ := List.mem_map.mp hy
      exact List.mem_map.mpr ⟨z, hz, rfl⟩
    · obtain ⟨z, hz, rfl⟩ := List.mem_map.mp (List.mem_filter.mp hy).1
      exact List.mem_map.mpr ⟨z, hz, rfl⟩

end Sys2Proof.Laws
end

