-- ==== Sys2Proof/WellFormed.lean ====
section
/-! DEFINITION. Well-formed commands: every die, block instance, function, bank, address and field is one the PBU-412 has (R2, R17
to R19, R120, R189, R645, R837, R863). The machine gives every command a next state; this check says which commands name something. -/
namespace Sys2Proof
open Sys2Proof.Machine

/-- A die slot (R17). -/
def dieOk (d : Nat) : Bool := decide (d < 8)
/-- A chanter. -/
def chanterOk (d : Nat) : Bool := decide (d < 4)
/-- A bellows. -/
def bellowsOk (d : Nat) : Bool := decide (d = 4 ∨ d = 5)
/-- A drone. -/
def droneOk (d : Nat) : Bool := decide (d = 6 ∨ d = 7)
/-- A host function (R645). -/
def fnOk (f : Nat) : Bool := decide (f < 1024)
/-- A requester: a function, a Fife core of a bellows, JTAG, or other logic (R875). -/
def Machine.Requester.ok : Requester → Bool
  | .host f => fnOk f
  | .fife b c => bellowsOk b && decide (c < 8)
  | .jtag => true
  | .other => true
/-- A physical reed (R19). -/
def Machine.ReedRef.ok (x : ReedRef) : Bool := chanterOk x.die && decide (x.k < 8) && decide (x.r < 17)
/-- A banked memory (R189). -/
def Machine.MemRef.ok : MemRef → Bool
  | .reed x => x.ok
  | .bellows d => bellowsOk d
/-- An instruction at a reed (R120). -/
def Machine.RI.ok (y : RI) : Bool := y.reed.ok && y.fits
/-- A host command: a function, an H2F slot, and the fields of its notice (R652, R653). -/
def Machine.HCmd.ok (c : HCmd) : Bool :=
  fnOk c.fn && decide (c.addr < 2 ^ 64) && decide (c.len < 2 ^ 16) && decide (c.tag < 2 ^ 32)

/-- A well-formed command. -/
def Instr.wf (i : Instr) : Bool :=
  match i with
  | .breathEdge _ => true
  | .shedResume die part => bellowsOk die && decide (part < 64)
  | .capRaise => true
  | .useCountDecay => true
  | .markerMiss die => dieOk die
  | .brthPeriodNext who die _ => who.ok && dieOk die
  | .brthGuard who die _ => who.ok && dieOk die
  | .runSet who die _ => who.ok && dieOk die
  | .runClear who die _ => who.ok && dieOk die
  | .brthNumberLo die => dieOk die
  | .brthSkewMax die => dieOk die
  | .planCommit who die _ _ => who.ok && dieOk die
  | .stepRetire die slot _ => dieOk die && decide (slot < 16)
  | .thermalThrottle die _ => dieOk die
  | .thermalTrip die => dieOk die
  | .tongueIssue x _ => x.ok
  | .tileLanded x _ _ _ => x.ok
  | .tongueWriteDone x => x.ok
  | .tongueFlush who x _ _ => who.ok && x.ok
  | .tongueCfgApply x _ => x.ok
  | .nop x => x.ok
  | .add x => x.ok
  | .sub x => x.ok
  | .andR x => x.ok
  | .orR x => x.ok
  | .xorR x => x.ok
  | .shl x => x.ok
  | .shr x => x.ok
  | .sra x => x.ok
  | .mul x => x.ok
  | .slt x => x.ok
  | .sltu x => x.ok
  | .min x => x.ok
  | .max x => x.ok
  | .addi x => x.ok
  | .andi x => x.ok
  | .ori x => x.ok
  | .xori x => x.ok
  | .shli x => x.ok
  | .shri x => x.ok
  | .srai x => x.ok
  | .lui x => x.ok
  | .crr x => x.ok
  | .crw x => x.ok
  | .beq x => x.ok
  | .bne x => x.ok
  | .blt x => x.ok
  | .bge x => x.ok
  | .bltu x => x.ok
  | .bgeu x => x.ok
  | .jal x => x.ok
  | .jr x => x.ok
  | .endProg x => x.ok
  | .trap x => x.ok
  | .brk x => x.ok
  | .ld x => x.ok
  | .st x => x.ok
  | .lw x => x.ok
  | .sw x => x.ok
  | .vld x => x.ok
  | .vst x => x.ok
  | .vlds x => x.ok
  | .vsts x => x.ok
  | .vop x => x.ok
  | .vfma x => x.ok
  | .vcmp x => x.ok
  | .vsel x => x.ok
  | .vfn x => x.ok
  | .vcvt x => x.ok
  | .vbcast x => x.ok
  | .vget x => x.ok
  | .vidx x => x.ok
  | .vrand x => x.ok
  | .vperm x => x.ok
  | .vredl x => x.ok
  | .vred x => x.ok
  | .var x => x.ok
  | .vaw x => x.ok
  | .vmov x => x.ok
  | .mop x => x.ok
  | .mset x => x.ok
  | .mget x => x.ok
  | .tcfg x => x.ok
  | .tload x => x.ok
  | .tsweep x => x.ok
  | .tclr x => x.ok
  | .tgo x => x.ok
  | .twait x => x.ok
  | .trel x => x.ok
  | .tput x => x.ok
  | .tstat x => x.ok
  | .fence x => x.ok
  | .bar x => x.ok
  | .barrierRelease x => x.ok
  | .excValidClear who x _ => who.ok && x.ok
  | .bankPort1Grant m n _ _ => m.ok && decide (n < 64)
  | .eccWriteback m _ => m.ok
  | .scrubPassStart m => m.ok
  | .scrubRowRead m _ => m.ok
  | .eccAddrClear who m _ => who.ok && m.ok
  | .bankHandoverGo who m n _ => who.ok && m.ok && decide (n < 64)
  | .bankDrainDone m n => m.ok && decide (n < 64)
  | .bankClearDone m n => m.ok && decide (n < 64)
  | .sbankMaskWrite who die _ _ => who.ok && bellowsOk die
  | .secureWipeDone die => bellowsOk die
  | .objAlloc c _ => c.ok
  | .objFree c => c.ok
  | .objQuery c => c.ok
  | .modelSwap c _ _ _ => c.ok
  | .swapTileWritten model _ _ _ => decide (model < 65536)
  | .swapTimeout model => decide (model < 65536)
  | .modelUnload c _ => c.ok
  | .modelUnloadDone model => decide (model < 65536)
  | .hornPost die k pos => chanterOk die && decide (k < 8) && decide (pos < 16)
  | .hornAttendPaged die k => chanterOk die && decide (k < 8)
  | .hornAttendDense die k _ => chanterOk die && decide (k < 8)
  | .hornMerge die k _ => chanterOk die && decide (k < 8)
  | .hornAppendOnly die k => chanterOk die && decide (k < 8)
  | .hornBackward die k => chanterOk die && decide (k < 8)
  | .hornPreemptStop die k pos => chanterOk die && decide (k < 8) && decide (pos < 16)
  | .hornRingReset who die k _ => who.ok && chanterOk die && decide (k < 8)
  | .serpGather die => chanterOk die
  | .serpPoolSum die => chanterOk die
  | .serpPoolMean die => chanterOk die
  | .serpPoolMax die => chanterOk die
  | .serpUpdateOverwrite die => chanterOk die
  | .serpUpdateScatterAdd die => chanterOk die
  | .serpFlashRowRead die _ => chanterOk die
  | .migrationCommit die _ => chanterOk die
  | .migrationUpdateRelease die => chanterOk die
  | .serpVerPublish who die _ => who.ok && chanterOk die
  | .serpRetirePop die => chanterOk die
  | .serpCreg who die idx _ => who.ok && chanterOk die && decide (idx < 16)
  | .panpSearch die => chanterOk die
  | .panpExactSearch die => chanterOk die
  | .panpInsert die => chanterOk die
  | .panpDelete die => chanterOk die
  | .panpCompare die => chanterOk die
  | .panpMerge die => chanterOk die
  | .panpRecordTileRead die _ => chanterOk die
  | .panpVerPublish who die _ => who.ok && chanterOk die
  | .panpRetirePop die => chanterOk die
  | .piccTopk die => chanterOk die
  | .piccThreshold die => chanterOk die
  | .piccMerge die => chanterOk die
  | .piccSort die => chanterOk die
  | .mouthTokenise die _ => bellowsOk die
  | .bellDetokenise die _ _ => bellowsOk die
  | .keywInit die => bellowsOk die
  | .keywAdvanceMask die => bellowsOk die
  | .keywMask die => bellowsOk die
  | .mouthVerPublish who die _ => who.ok && bellowsOk die
  | .keywVerPublish who die _ => who.ok && bellowsOk die
  | .mouthRetirePop die => bellowsOk die
  | .keywRetirePop die => bellowsOk die
  | .sngChkGo who die idx _ => who.ok && dieOk die && decide (idx < 8)
  | .sngChkDone die _ => dieOk die
  | .sngKat die _ _ _ => dieOk die
  | .reproCheck c _ _ => c.ok
  | .reproRun2Start fn _ => fnOk fn
  | .reproReport fn _ _ => fnOk fn
  | .reqSubmit c _ => c.ok
  | .reqCancel c => c.ok
  | .reqPause c => c.ok
  | .reqResume c => c.ok
  | .reqUpdate c => c.ok
  | .reqQuery c => c.ok
  | .completionRecord idx => decide (idx < 65536)
  | .reqtEventLo die => bellowsOk die
  | .reqtEntryWrite who die n _ => who.ok && bellowsOk die && decide (n < 32)
  | .turnForward die => bellowsOk die
  | .sessCreate c => c.ok
  | .sessSet c => c.ok
  | .sessDelete c => c.ok
  | .sessQuery c => c.ok
  | .sessMove c => c.ok
  | .sessExport c => c.ok
  | .sessImport c _ _ _ => c.ok
  | .sessPrefix c _ _ _ => c.ok
  | .sessPrefixDelete c => c.ok
  | .sessOpStart die => bellowsOk die
  | .reviveComplete k _ => decide (k < 2 ^ 24)
  | .parkCommit k _ _ => decide (k < 2 ^ 24)
  | .moveComplete k _ chanter _ _ => decide (k < 2 ^ 24) && chanterOk chanter
  | .exportComplete k _ => decide (k < 2 ^ 24)
  | .sessRebuild who die _ => who.ok && bellowsOk die
  | .rebuildDone die => bellowsOk die
  | .sessLostLo die => bellowsOk die
  | .partPreempt who die _ => who.ok && dieOk die
  | .preemptTake die slot r => dieOk die && decide (slot < 16) && decide (r < 17)
  | .contextSaveDone die slot _ _ _ => dieOk die && decide (slot < 16)
  | .bucketGrant die bkt _ _ => dieOk die && decide (bkt < 3)
  | .chainLinkStart die slot => chanterOk die && decide (slot < 16)
  | .packFetch die _ _ => bellowsOk die
  | .packPack die _ _ _ _ => bellowsOk die
  | .packPairs die _ _ _ => bellowsOk die
  | .h2fStage fn _ _ => fnOk fn
  | .doorbell fn off _ => fnOk fn && decide (off < 16)
  | .mbxTake die _ => bellowsOk die
  | .mbxSendNotice who die _ => who.ok && bellowsOk die
  | .mbxSendReply who die _ => who.ok && bellowsOk die
  | .f2hTake fn _ => fnOk fn
  | .cqWrite fn _ => fnOk fn
  | .cqHead fn _ => fnOk fn
  | .f2hStatus fn => fnOk fn
  | .mbxReady who die _ => who.ok && bellowsOk die
  | .mbxAbortPop die => bellowsOk die
  | .firmwareRestart die _ => bellowsOk die
  | .flr fn => fnOk fn
  | .flrComplete fn => fnOk fn
  | .portReset port => decide (port < 2)
  | .linkChange die _ => bellowsOk die
  | .bar4Access fn _ _ _ => fnOk fn
  | .verPublish c => c.ok
  | .flashRead b _ => bellowsOk b
  | .flashWrite b _ => bellowsOk b
  | .flashCreate b _ => bellowsOk b
  | .flashCommit b _ => bellowsOk b
  | .flashDelete b _ => bellowsOk b
  | .nandProgramDone die _ _ => droneOk die
  | .nandReadDone die _ _ _ _ _ => droneOk die
  | .nandEraseDone die _ _ => droneOk die
  | .mapPageRead die _ _ _ => droneOk die
  | .gcStart die _ => droneOk die
  | .wearLevelStart die => droneOk die
  | .relocateCommit die => droneOk die
  | .targetTimeout die ch t => droneOk die && decide (ch < 24) && decide (t < 8)
  | .nandCalibration die ch t _ => droneOk die && decide (ch < 24) && decide (t < 8)
  | .checkpoint die _ => droneOk die
  | .ckptNow who die _ => who.ok && droneOk die
  | .droneFormat who die _ _ => who.ok && droneOk die
  | .droneRecovery die _ => droneOk die
  | .powerFail => true
  | .flushDone die => droneOk die
  | .pwrFailRise => true
  | .pgCoreLoss => true
  | .rowRepair m _ => m.ok
  | .dramRowRepair die stack _ _ _ _ _ => chanterOk die && decide (stack < 3)
  | .reedFence x _ _ => x.ok
  | .consFence who die k _ => who.ok && chanterOk die && decide (k < 8)
  | .dieQuiesce die _ _ _ => dieOk die
  | .recoveryPoint => true
  | .flitReplay link _ => decide (link < 11)
  | .linkRetrain link => decide (link < 11)
  | .reedWatchdog x => x.ok
  | .spareSelfTest die k _ => chanterOk die && decide (k < 8)
  | .embMeasure die _ => dieOk die
  | .measureNow who die _ _ => who.ok && dieOk die
  | .monitorAlarm die m _ => dieOk die && decide (m < 64)
  | .pllLockLoss die _ => dieOk die
  | .cntOvfClear who a _ => who.ok && decide (a < 2 ^ 26)
  | .counterLoRead who a => who.ok && decide (a < 2 ^ 26)
  | .topFaultPop3 => true
  | .secBootDone who die _ => who.ok && dieOk die
  | .secLcReq who die _ => who.ok && dieOk die
  | .secSvnRaise who die _ => who.ok && dieOk die
  | .secRevoke who die _ => who.ok && dieOk die
  | .secDbgChal0 die => dieOk die
  | .secDbgResp63 who die _ => who.ok && dieOk die
  | .unlockVerifyDone _ _ => true
  | .secKeyLoad who die _ => who.ok && dieOk die
  | .tamperEvent src _ => decide (src < 4)
  | .secureMonitorCall die core _ => bellowsOk die && decide (core < 8)
  | .pwrStateReq who die _ => who.ok && dieOk die
  | .powerStateEntered _ _ => true
  | .wakeN => true
  | .pgCoreTimeout => true
  | .powerOn _ => true
  | .resetN => true
  | .pwrResetWarm who die _ => who.ok && dieOk die
  | .pwrResetDevice who die _ => who.ok && dieOk die
  | .stage2Load _ _ _ _ => true
  | .stackTrainingDone chanter _ => chanterOk chanter
  | .dramClearDone chanter => chanterOk chanter
  | .dramRefresh chanter stack => chanterOk chanter && decide (stack < 3)
  | .avsAck chanter => chanterOk chanter
  | .avsTimeout chanter => chanterOk chanter
  | .entdaa addr => decide (addr < 128)
  | .rstdaa => true
  | .setnewda addr => decide (addr < 128)
  | .getpid => true
  | .getbcr => true
  | .getdcr => true
  | .getstatus => true
  | .getmwl => true
  | .getmrl => true
  | .setmwl n => decide (n < 65536)
  | .setmrl n => decide (n < 65536)
  | .getmxds => true
  | .enec _ _ => true
  | .disec _ _ => true
  | .hotJoin _ => true
  | .ident tag n _ => decide (tag < 256) && decide (n < 65536)
  | .telem tag n _ => decide (tag < 256) && decide (n < 65536)
  | .wake tag n _ => decide (tag < 256) && decide (n < 65536)
  | .reset tag n _ => decide (tag < 256) && decide (n < 65536)
  | .bistStart tag n _ => decide (tag < 256) && decide (n < 65536)
  | .bistResult tag n _ => decide (tag < 256) && decide (n < 65536)
  | .leave tag n _ => decide (tag < 256) && decide (n < 65536)
  | .mgmtReplyRead => true
  | .ibi _ => true
  | .bistGo who die _ => who.ok && dieOk die
  | .bistDone die _ => dieOk die
  | .extest _ _ => true
  | .samplePreload => true
  | .idcode => true
  | .clamp _ _ => true
  | .highz _ _ => true
  | .ijtagAccess _ => true
  | .bypass => true
  | .trstN => true
  | .intForce who a _ => who.ok && decide (a < 2 ^ 26)
  | .topRegErrClear who die _ => who.ok && bellowsOk die
  | .registerWrite who a width _ => who.ok && decide (a < 2 ^ 26) && decide (width = 4 ∨ width = 8)
  | .pgCoreGood _ => true
  | .configurationWrite fn _ => fnOk fn
  | .illegalInstruction x => x.ok
  | .fetchPastEnd x => x.ok
  | .mgmtUnknownCommand _ => true
  | .protectionParityError die => chanterOk die
  | .bellowsLogicFault die => bellowsOk die
  | .droneTraining die _ => droneOk die
  | .calibrationDone die ch t => droneOk die && decide (ch < 24) && decide (t < 8)

end Sys2Proof
end

