-- ==== Sys2Proof/Tests/Slice0.lean ====
section
/-! SUPPORT. Tests: a term that each check of well-formedness refuses; words of the reed's instructions written out from R120;
one step of the commands with results taken from the rules; and, for each statement with hypotheses, states and operands that
meet them. -/
namespace Sys2Proof.Tests
set_option maxRecDepth 20000
set_option Elab.async false
open Sys2Proof Sys2Proof.Machine

/-! ### Terms of the tests -/

/-- Reed 0 of consort 0 of chanter 0. -/
abbrev x0 : ReedRef := ⟨0, 0, 0⟩
/-- A Fife core of bellows-A, whose register writes reach every die that is not in reset. -/
abbrev fife : Requester := .fife 4 0
/-- The reset state with reed 0 running a program of four instructions, with these changes to the reed. -/
def running (f : Reed → Reed) : State := State.reset.setReed x0 (f { run := .running, ibuf := [0, 0, 0, 0] })
/-- What reed 0 holds after a command; an idle reed with no state where the command stops. -/
def reedAfter (c : Instr) (s : State) : Reed := match exec c s with | .next t => t.reed x0 | _ => {}
/-- What a term of the state is after a command, where the command answers a next state. -/
def after {α : Type} (c : Instr) (s : State) (f : State → α) : Option α := match exec c s with | .next t => some (f t) | _ => none

/-! ### Well-formed commands: one term that each check refuses -/

theorem test_wf_die : (Instr.brthNumberLo 7).wf = true ∧ (Instr.brthNumberLo 8).wf = false := by decide
theorem test_wf_chanter : (Instr.serpGather 3).wf = true ∧ (Instr.serpGather 4).wf = false := by decide
theorem test_wf_bellows : (Instr.mbxTake 5 false).wf = true ∧ (Instr.mbxTake 3 false).wf = false ∧ (Instr.mbxTake 6 true).wf = false := by decide
theorem test_wf_drone : (Instr.relocateCommit 7).wf = true ∧ (Instr.relocateCommit 5).wf = false := by decide
theorem test_wf_function : (Instr.flr 1023).wf = true ∧ (Instr.flr 1024).wf = false := by decide
theorem test_wf_requester : (Instr.runSet (.host 0) 4 0).wf = true ∧ (Instr.runSet (.host 1024) 4 0).wf = false ∧
    (Instr.runSet (.fife 3 0) 4 0).wf = false ∧ (Instr.runSet (.fife 4 8) 4 0).wf = false := by decide
theorem test_wf_reed : (Instr.reedWatchdog ⟨3, 7, 16⟩).wf = true ∧ (Instr.reedWatchdog ⟨4, 0, 0⟩).wf = false ∧
    (Instr.reedWatchdog ⟨0, 8, 0⟩).wf = false ∧ (Instr.reedWatchdog ⟨0, 0, 17⟩).wf = false := by decide
theorem test_wf_memory : (Instr.eccWriteback (.bellows 4) 0).wf = true ∧ (Instr.eccWriteback (.bellows 6) 0).wf = false ∧
    (Instr.eccWriteback (.reed ⟨0, 0, 17⟩) 0).wf = false := by decide
theorem test_wf_instruction : (Instr.add { reed := x0, d := 31, a := 31, b := 31 }).wf = true ∧
    (Instr.add { reed := x0, d := 32 }).wf = false ∧ (Instr.add { reed := x0, a := 32 }).wf = false ∧
    (Instr.add { reed := x0, b := 32 }).wf = false ∧ (Instr.add { reed := x0, c := 32 }).wf = false ∧
    (Instr.add { reed := x0, m := 8 }).wf = false ∧ (Instr.add { reed := x0, fmt := 8 }).wf = false ∧
    (Instr.add { reed := x0, fn := 64 }).wf = false := by decide
theorem test_wf_host_command : (Instr.objFree { fn := 0 }).wf = true ∧ (Instr.objFree { fn := 1024 }).wf = false ∧
    (Instr.objFree { fn := 0, addr := 2 ^ 64 }).wf = false ∧ (Instr.objFree { fn := 0, len := 2 ^ 16 }).wf = false ∧
    (Instr.objFree { fn := 0, tag := 2 ^ 32 }).wf = false := by decide
theorem test_wf_places : (Instr.hornPost 0 8 0).wf = false ∧ (Instr.hornPost 0 0 16).wf = false ∧ (Instr.serpCreg fife 0 16 0).wf = false ∧
    (Instr.preemptTake 0 16 0).wf = false ∧ (Instr.preemptTake 0 0 17).wf = false ∧ (Instr.bucketGrant 0 3 [] 0).wf = false ∧
    (Instr.shedResume 4 64).wf = false ∧ (Instr.bankDrainDone (.bellows 4) 64).wf = false ∧ (Instr.dramRefresh 0 3).wf = false := by decide
theorem test_wf_numbers : (Instr.completionRecord 65536).wf = false ∧ (Instr.swapTimeout 65536).wf = false ∧
    (Instr.exportComplete (2 ^ 24) true).wf = false ∧ (Instr.reqtEntryWrite fife 4 32 0).wf = false ∧ (Instr.portReset 2).wf = false ∧
    (Instr.targetTimeout 6 24 0).wf = false ∧ (Instr.targetTimeout 6 0 8).wf = false ∧ (Instr.linkRetrain 11).wf = false ∧
    (Instr.monitorAlarm 0 64 []).wf = false ∧ (Instr.tamperEvent 4 true).wf = false ∧ (Instr.secureMonitorCall 4 8 0).wf = false := by decide
theorem test_wf_bus : (Instr.counterLoRead fife (2 ^ 26)).wf = false ∧ (Instr.registerWrite fife 0 2 0).wf = false ∧ (Instr.entdaa 128).wf = false ∧
    (Instr.setmwl 65536).wf = false ∧ (Instr.ident 256 0 []).wf = false ∧ (Instr.ident 0 65536 []).wf = false ∧
    (Instr.doorbell 0 16 []).wf = false := by decide

/-! ### Words of the reed's instructions, written out from R120 and R123 to R141: opcode 63..56, d 55..51, a 50..46, b 45..41,
c 40..36, m 35..33, fmt 32..30, fn 29..24, imm 23..0 -/

theorem test_word_scalar : decodeReedWord x0 0b0000001100011000010001000000000000000000000000000000000000000000 =
    some (.sub { reed := x0, d := 3, a := 1, b := 2 }) := by decide
theorem test_word_branch : decodeReedWord x0 0b0010000100000000010001000000000000000000111111111111111111111110 =
    some (.bne { reed := x0, a := 1, b := 2, imm := -2 }) := by decide
theorem test_word_load : decodeReedWord x0 0b0011000000101000110000000000000000000000000000000000000000001000 =
    some (.ld { reed := x0, d := 5, a := 3, imm := 8 }) := by decide
theorem test_word_vector : decodeReedWord x0 0b0100000000001000100001100000001010000001000000000000000000000000 =
    some (.vop { reed := x0, d := 1, a := 2, b := 3, m := 1, fmt := 2, fn := 1 }) := by decide
theorem test_word_mask : decodeReedWord x0 0b0101000000001000100001100000000000000010000000000000000000000000 =
    some (.mop { reed := x0, d := 1, a := 2, b := 3, fn := 2 }) := by decide
theorem test_word_tensor : decodeReedWord x0 0b0110001000100000010001000011000000000000000000000000000000000000 =
    some (.tsweep { reed := x0, d := 4, a := 1, b := 2, c := 3 }) := by decide
theorem test_word_tongue : decodeReedWord x0 0b0111000000000000010000000000000000000001000000000000000000000000 =
    some (.tgo { reed := x0, a := 1, fn := 1 }) := by decide
theorem test_word_control : decodeReedWord x0 0b0010100000000000000000000000000000000000000000000000000000000000 =
    some (.endProg { reed := x0 }) ∧ decodeReedWord x0 0x0F00000000000000 = none ∧ decodeReedWord x0 0xFF00000000000000 = none := by decide
theorem test_table_word : decodeTableWord 0 0 = none ∧ State.reset.withFetchWord 0 0 = State.reset := by decide

/-! ### States and operands that meet the hypotheses of the statements: the step, the registers, the reeds -/

/-- An instruction of reed 0 with all fields 0. -/
abbrev i0 : RI := { reed := x0 }

theorem witness_StepRunsFront : { State.reset with pending := [.nop i0] }.pending = Instr.nop i0 :: [] ∧ State.reset.pending = [] := by decide
theorem witness_ReedWordRoundTrip : reedParts (.add { i0 with d := 31, fn := 63, imm := -1 }) = some (0x02, { i0 with d := 31, fn := 63, imm := -1 }) ∧
    ({ i0 with d := 31, fn := 63, imm := -1 } : RI).fits = true ∧ (encodeReedWord (.add { i0 with d := 31, fn := 63, imm := -1 })).isSome = true := by decide
theorem witness_ReedWords : reedParts (.bar i0) = some (0x79, i0) ∧ decodeReedWord x0 0x7900000000000000 = some (.bar i0) := by decide
theorem witness_RegisterAndCounterLaws : 0 ≤ 31 ∧ 31 < 32 ∧
    2 ^ 48 - 1 ≤ (State.reset.cntAdd .brth 4 4 0x038 (2 ^ 48 - 2)).count (Blk.brth.at 4 4 0x038) + 1 ∧ ovfBit .brth 0x038 < 32 ∧
    State.reset.count (Blk.brth.at 4 4 0x038) + 1 < 2 ^ 48 - 1 := by decide +kernel
theorem witness_WriteTurnedAway : (Instr.runSet (.host 1) 4 1).target = some (.host 1, Blk.brth.at 4 4 0x008) ∧
    State.reset.writable (.host 1) (Blk.brth.at 4 4 0x008) = false ∧
    (Instr.excValidClear .jtag x0 0).target = some (.jtag, Blk.reed.at 0 0 0x01C) ∧
    ({ State.reset with inReset := [0] }).writable .jtag (Blk.reed.at 0 0 0x01C) = false := by decide +kernel
theorem witness_ScalarInstructions_registers : ready { d := true, a := true, b := true } { i0 with d := 1, a := 2, b := 3 } (running id) = true := by
  decide +kernel
theorem witness_ScalarInstructions_immediate : ready { d := true, a := true, imm := true } { i0 with d := 1, imm := 63 } (running id) = true ∧
    ready { d := true, imm := true } { i0 with imm := -1 } (running id) = true ∧ (63 : BitVec 24).toNat ≤ 63 ∧ ¬ (64 : BitVec 24).toNat ≤ 63 := by
  decide +kernel
theorem witness_ScalarInstructions_branches : ready { a := true, b := true, imm := true } { i0 with imm := 3 } (running id) = true ∧
    ready { d := true, imm := true } { i0 with imm := 4 } (running id) = true ∧ ready { a := true } i0 (running id) = true := by decide +kernel
theorem witness_ControlRegisterInstructions : ready {} i0 (running id) = true ∧ (running id).noBarWait = true ∧
    ready { d := true, imm := true } { i0 with imm := 8 } (running id) = true ∧ ready { d := true, imm := true } { i0 with imm := 9 } (running id) = true ∧
    ready { a := true, imm := true } { i0 with imm := 4 } (running id) = true ∧ ready { a := true, imm := true } { i0 with imm := 5 } (running id) = true := by
  decide +kernel
theorem witness_ReedExceptions : ready { imm := true } { i0 with imm := 0x1FF } (running id) = true ∧ ((running id).reed x0).run = .running ∧
    8 * ((running (fun r => { r with pc := 32 })).reed x0).ibuf.length ≤ ((running (fun r => { r with pc := 32 })).reed x0).pc ∧
    ((running id).reed x0).pc < 8 * ((running id).reed x0).ibuf.length ∧ (State.reset.reed x0).run ≠ .running ∧ (running id).noBarWait = true := by
  decide +kernel
/-- Reed 0 running with s1 = `a`, s2 = `b`, s3 = `c`, s4 = `d`. -/
def regs4 (a b c d : Nat) : State := running (fun r => (((r.sset 1 (BitVec.ofNat 64 a)).sset 2 (BitVec.ofNat 64 b)).sset 3
  (BitVec.ofNat 64 c)).sset 4 (BitVec.ofNat 64 d))
/-- An instruction of reed 0 with a = 1, b = 2, c = 3, d = 4. -/
abbrev i4 : RI := { reed := x0, a := 1, b := 2, c := 3, d := 4 }

theorem witness_ScalarLoadsAndStores_load : ready { d := true, a := true, imm := true } { i4 with b := 0, c := 0 } (regs4 0x3FFFF8 0 0 0) = true ∧
    owned (regs4 0x3FFFF8 0 0 0) x0 0x3FFFF8 8 ∧ clean (regs4 0x3FFFF8 0 0 0) x0 0x3FFFF8 8 ∧ 0x3FFFF8 % 8 = 0 ∧
    owned (regs4 4 0 0 0) x0 4 4 ∧ clean (regs4 4 0 0 0) x0 4 4 := by unfold owned clean; decide +kernel
theorem witness_ScalarLoadsAndStores_store : ready { a := true, b := true, imm := true } { i4 with c := 0, d := 0 } (regs4 8 7 0 0) = true ∧
    owned (regs4 8 7 0 0) x0 8 8 ∧ clean (regs4 8 7 0 0) x0 8 8 ∧ storable (regs4 8 7 0 0) x0 8 8 ∧
    owned (regs4 8 7 0 0) x0 8 4 ∧ clean (regs4 8 7 0 0) x0 8 4 ∧ storable (regs4 8 7 0 0) x0 8 4 := by unfold owned clean storable; decide +kernel
theorem witness_ScalarLoadsAndStores_bad : (∀ n : Nat, n < 8 → State.reset.reedBank x0 n = (0, 1)) ∧ 2 ^ 22 < 2 ^ 22 - 4 + 8 ∧ 4 % 8 ≠ 0 ∧
    queueHit { ({} : Engine) with enable := true } 0x10000 0x10008 8 = true := by decide +kernel
theorem witness_VectorLoadsAndStores : ready { d := true, a := true, imm := true, fmt := true, m := true } { reed := x0, d := 1, a := 1, fmt := 2, m := 1 }
      (regs4 0 0 0 0) = true ∧
    ready { d := true, a := true, c := true, imm := true, fmt := true, m := true } { reed := x0, d := 1, a := 1, c := 3, fmt := 7 } (regs4 0 0 4 0) = true ∧
    ready { a := true, b := true, imm := true, fmt := true, m := true } { reed := x0, b := 1, a := 1, fmt := 2 } (regs4 0 0 0 0) = true ∧
    ready { a := true, b := true, c := true, imm := true, fmt := true, m := true } { reed := x0, b := 1, a := 1, c := 3, fmt := 0 } (regs4 0 0 4 0) = true ∧
    (∀ e : Nat, e < 32 → (0xFFFFFFFF : Word).getLsbD e = true →
      (regs4 0 0 0 0).sramCheck x0 false (elemAt 2 0 4 e).1 (elemAt 2 0 4 e).2.1 4 = .ok ∧
      (regs4 0 0 0 0).storeCheck x0 (elemAt 2 0 4 e).1 (elemAt 2 0 4 e).2.1 4 = .ok) := by decide +kernel
theorem witness_LaneInstructions : ready { d := true, a := true, b := true, m := true } { reed := x0, d := 1, a := 2, b := 3 } (running id) = true ∧
    ready { d := true, a := true, m := true, fn := true } { reed := x0, d := 1, a := 2, fn := 9 } (running id) = true ∧
    ready { d := true, a := true, m := true, fmt := true, fn := true } { reed := x0, d := 1, a := 2, fn := 1, fmt := 0 } (running id) = true ∧
    ready { d := true, a := true, m := true, fmt := true, fn := true } { reed := x0, d := 1, a := 2, fn := 2, fmt := 6 } (running id) = true ∧
    ready { d := true, a := true, m := true } { reed := x0, d := 1, a := 2 } (running id) = true ∧
    ready { d := true, a := true, b := true } { reed := x0, d := 1, a := 2 } (running id) = true ∧
    ready { d := true, a := true, b := true, c := true, m := true } { reed := x0, d := 1, a := 2, b := 3, c := 4 } (running id) = true := by decide +kernel
theorem witness_ArithmeticAndMaskInstructions :
    ready { d := true, a := true, b := true, fmt := true, m := true, fn := true } { reed := x0, d := 7, a := 2, b := 0, fmt := 2, fn := 12 } (running id) = true ∧
    ready { d := true, a := true, b := true, fmt := true, m := true, fn := true } { reed := x0, d := 8, a := 2, b := 0, fmt := 3, fn := 13 } (running id) = true ∧
    ready { d := true, a := true, b := true, c := true, fmt := true, m := true } { reed := x0, d := 7, fmt := 7 } (running id) = true ∧
    ready { d := true, a := true, fmt := true, m := true, fn := true } { reed := x0, d := 7, fmt := 7, fn := 2 } (running id) = true ∧
    ready { d := true, a := true, b := true, fn := true } { reed := x0, d := 7, a := 7, b := 7, fn := 2 } (running id) = true ∧
    ready { d := true, a := true, b := true, fn := true } { reed := x0, d := 7, a := 7, fn := 3 } (running id) = true ∧
    ready { d := true, a := true, b := true, fn := true } { reed := x0, d := 7, a := 7, fn := 4 } (running id) = true ∧
    ready { d := true, a := true } { reed := x0, d := 8, a := 7 } (running id) = true := by decide +kernel
theorem witness_AccumulatorAndArrayInstructions :
    ready { d := true, a := true, b := true, m := true } { reed := x0, d := 1, a := 1, b := 2 } (regs4 31 1020 0 0) = true ∧
    ready { a := true, b := true, c := true, m := true } { reed := x0, c := 1, a := 1, b := 2 } (regs4 31 1021 0 0) = true ∧
    ready { a := true } { reed := x0, a := 1 } (regs4 0 0 0 0) = true ∧
    ready { a := true, b := true } { reed := x0, a := 1, b := 2 } (regs4 1024 0 0 0) = true ∧
    tloadBad (regs4 0 0 0 0) x0 ((regs4 0 0 0 0).reed x0).tcfg.toNat 0 0 = none := by decide +kernel
theorem witness_SweepAndReduction_sweep : ready { d := true, a := true, b := true, c := true } { reed := x0, a := 1, b := 2 } (regs4 8 1016 0 0) = true ∧
    tSw ((regs4 8 1016 0 0).reed x0).tcfg.toNat = false ∧ (((regs4 8 1016 0 0).reed x0).prog).toNat + 8 ≥ 8 ∧
    (match sweepBlock x0 8 1016 0 0 8 0 0 (regs4 8 1016 0 0) ((regs4 8 1016 0 0).reed x0).openBlock with
      | .stall _ _ rows _ => decide (rows = 0) | _ => false) = true ∧
    tSw 0x40 = true ∧ ready { d := true, a := true, b := true, c := true } { reed := x0, a := 1, b := 2, c := 3, d := 4 }
      (running (fun r => { (r.sset 1 1025) with tcfg := 0x40 })) = true := by decide +kernel
/-- Reed 0 at a sweep of stationary weight, its step asked to stop. -/
def asked : State := { running (fun r => { r with tcfg := 0x40, step := 1 }) with
  steps := [{ uid := 1, desc := { mask := 1, stepId := 7 }, breath := 1, stopping := true }] }
theorem witness_SweepAndReduction_block :
    (match sweepBlock x0 16 1008 0 0 8 0 0 asked (asked.reed x0).openBlock with | .ok _ _ => true | _ => false) = true ∧
    tSw (asked.reed x0).tcfg.toNat = true ∧ asked.preAsked (asked.reed x0) = true ∧ 0 + 8 < 16 := by decide +kernel
theorem witness_SweepAndReduction_reduce :
    ready { d := true, a := true, b := true, fmt := true, m := true, fn := true } { reed := x0, d := 1, a := 1, b := 2, fmt := 2, fn := 2 } (regs4 0 31 0 0) = true ∧
    (regs4 0 31 0 0).sramCheck x0 false (elemAt 2 0 (elemAlign 2) 0).1 (31 * 4) 1 = .ok := by decide +kernel
theorem witness_TongueInstructions_engines : ready { a := true, fn := true } { reed := x0, a := 1, fn := 1 } (regs4 0 0 0 0) = true ∧
    ready { d := true, a := true, fn := true } { reed := x0, d := 2, a := 1, fn := 0 } (regs4 0 0 0 0) = true ∧
    ready { a := true } { reed := x0, a := 1 } (running (fun r => { r with a := { r.a with active := true } })) = true ∧
    ready { d := true, fn := true } { reed := x0, d := 2, fn := 1 } (running id) = true ∧
    ((regs4 0 0 0 0).reed x0).a.err = 0 ∧ ((regs4 0 0 0 0).reed x0).a.active = false ∧
    (regs4 0 0 0 0).qbase x0 true + 4096 * ((regs4 0 0 0 0).reed x0).a.slots ≤ 2 ^ 22 ∧
    (∀ b : Nat, b < 8 → (regs4 0 0 0 0).reedBank x0 b = (0, 1)) ∧ (regs4 0 0 0 0).hornOwnsA x0 = false ∧
    0 ≤ (((regs4 0 0 0 0).reed x0).w.tiles.takeWhile (fun t => t.landed)).length ∧ ((regs4 0 0 0 0).reed x0).w.col = 0 ∧
    0 < ((regs4 0 0 0 0).reed x0).w.slots := by decide +kernel
/-- A tile of the W stream. -/
def tile (landed poison : Bool) : Tile := { addr := 0x200000000, phys := 0, slot := 0x200000, desc := 0, row := 0, idx := 0, num := 0, wnum := 0, landed, poison, notify := false }
theorem witness_TongueInstructions_tiles : ([tile true false] : List Tile)[0]? = some (tile true false) ∧ (tile true false).landed = true ∧
    (tile true false).poison = false ∧ (tile false false).landed = false ∧ (tile true true).poison = true := by decide +kernel
theorem witness_TongueInstructions_barrier : ready { fn := true } { reed := x0, fn := 2 } (running id) = true ∧ ready {} i0 (running id) = true ∧
    (running id).inPart ((running id).reed x0) = false ∧ (running id).reeds.all (fun f => !f.2.over) = true ∧
    (((running (fun r => { r with wait := .bar 0 })).reed x0).wait = .bar 0 ∧ (running (fun r => { r with wait := .bar 0 })).barReady x0 0 = true ∧
      (running (fun r => { r with wait := .bar 0 })).inScope x0 0 (reedNo x0) = true ∧
      (running (fun r => { r with wait := .bar 0, step := 1 })).inScope x0 0 (reedNo ⟨0, 1, 0⟩) = false) := by decide +kernel
/-- A tongue descriptor of a kind. -/
def tdesc (kind : Nat) : TDesc := { addr := 0x200000000, inner := 1, outer := 1, innerStride := 0, outerStride := 0, kind, last := true,
                                    notify := false, aux := 0, pages := [] }
/-- Engine A of reed 0 on a list whose current descriptor has a kind. -/
def onList (kind : Nat) : Engine := { enable := true, active := true, cur := some (tdesc kind), permits := 1 }
theorem witness_TongueEvents_issue : (onList 0).cur = some (tdesc 0) ∧ (onList 0).err = 0 ∧ (onList 0).done = false ∧ (tdesc 0).kind ≠ 2 ∧
    (onList 0).tiles.length < (onList 0).slots ∧ (onList 0).tiles.length < (onList 0).look ∧ (tdesc 2).kind = 2 ∧
    (onList 2).issuedW ≤ (onList 2).wnum ∧ 0 < (onList 2).permits ∧ State.reset.flip = [] := by decide
/-- Reed 0 runs, and the DRAM of chanter 0 is online. -/
def online0 : State := (running id).setFld (Blk.top.at 4 4 0x204) 0 0 1
theorem online0_good (ps : List Nat) : online0.anyBad ps = false := by
  have h : ∀ p : Nat, online0.badByte p = false := fun p => by
    have e : online0.flipOf p = 0 := rfl
    simp only [State.badByte, e]; decide +kernel
  simp [State.anyBad, h]
theorem witness_TongueEvents_land : ({ onList 0 with tiles := [tile false false] }).tiles.find? (fun u => decide (u.num = 0) && !u.landed) = some (tile false false) ∧
    (∃ ps : List Nat, online0.xlat (.reed x0) none false 0x200000000 4096 = some ps ∧ online0.anyBad ps = false) := by
  have h : (online0.xlat (.reed x0) none false 0x200000000 4096).isSome = true := by decide +kernel
  exact ⟨by decide, _, Option.some_get h |>.symm, online0_good _⟩
theorem witness_TongueEvents_write : ({ onList 2 with writes := [⟨0, 0x200000000, 0, 0, false⟩] }).writes = [⟨0, 0x200000000, 0, 0, false⟩] ∧
    ({ onList 2 with writes := [⟨0, 0x200000000, 0, 0, false⟩] }).readBefore ⟨0, 0x200000000, 0, 0, false⟩ = false ∧
    ({ onList 2 with tiles := [tile false false] }).readBefore ⟨0, 0x200000000, 0, 0, false⟩ = true ∧
    (onList 2).outstanding = false ∧ ({ onList 2 with cfgPend := some (4, 8) }).cfgPend = some (4, 8) ∧
    State.reset.writable fife (Blk.reed.at 0 0 0x110) = true ∧ fieldW 0x00024002 31 21 = 0 ∧ fieldW 0x00024002 7 2 = 0 ∧
    2 ≤ fieldW 0x00024002 20 16 ∧ fieldW 0x00024002 20 16 ≤ 16 ∧ 1 ≤ fieldW 0x00024002 15 8 ∧ fieldW 0x00024002 15 8 ≤ 64 ∧ fieldW 0x00024002 0 0 = 0 ∧
    State.reset.writable fife (Blk.reed.at 0 0 0x01C) = true ∧ ((running (fun r => { r with run := .stopped })).reed x0).run = .stopped := by decide +kernel

/-! ### The breath, its plans and steps -/

/-- The reset state after boot code has written BOOT_DONE. -/
def booted : State := State.reset.setFld (Blk.sec.at 4 4 0x10C) 31 31 1
theorem witness_BreathRegisters : State.reset.writable fife (Blk.brth.at 4 4 0x104) = true ∧ fieldW 100 11 0 < 101 ∧ fieldW 99 11 0 < 100 ∧
    4000 < fieldW 4001 11 0 ∧ State.reset.fld (Blk.brth.at 4 4 0x108) 9 0 < 100 ∧ State.reset.frozen (Blk.brth.at 4 4 0x104) = false ∧
    100 ≤ ((State.reset.setFld (Blk.brth.at 4 4 0x108) 9 0 200).fld (Blk.brth.at 4 4 0x108) 9 0) ∧
    State.reset.writable fife (Blk.brth.at 4 4 0x108) = true ∧ 2 ≤ fieldW 499 9 0 ∧ fieldW 499 9 0 < State.reset.breath.period ∧
    State.reset.breath.period ≤ fieldW 500 9 0 ∧ fieldW 1 9 0 < 2 ∧
    booted.writable fife (Blk.brth.at 4 4 0x008) = true ∧ booted.frozen (Blk.brth.at 4 4 0x008) = false ∧ booted.bootDone = true ∧
    State.reset.writable fife (Blk.brth.at 4 4 0x008) = true ∧ State.reset.bootDone = false ∧ State.reset.rbit (Blk.brth.at 4 4 0x008) 0 = false := by
  decide +kernel
/-- A write of BRTH_PLAN_COMMIT with a count of descriptors and a target. -/
def commit (n lo : Nat) : Word := BitVec.ofNat 32 (65536 * n + lo)
theorem witness_PlanCommitResults : State.reset.writable fife (Blk.brth.at 4 4 0x124) = true ∧ State.reset.sec.pendingReset = false ∧
    fieldW (commit 0 1) 23 16 ≤ 96 ∧ fieldW (commit 0 1) 15 0 = (State.reset.breath.number + 1) % 2 ^ 16 ∧
    (State.reset.writeAt fife .brth 4 4 0x124 (commit 0 1)).firstBad 1 0 State.reset.goneNow = none ∧
    fieldW (commit 0 0) 15 0 = State.reset.breath.number % 2 ^ 16 ∧ (State.reset.writeAt fife .brth 4 4 0x124 (commit 0 0)).firstBad 0 0 State.reset.goneNow = none ∧
    fieldW (commit 96 2) 23 16 ≤ 96 ∧ fieldW (commit 96 2) 15 0 ≠ 1 ∧ fieldW (commit 96 2) 15 0 ≠ 0 ∧ 96 < fieldW (commit 97 1) 23 16 ∧
    ((State.reset.writeAt fife .brth 4 4 0x124 (commit 1 1)).firstBad 1 1 State.reset.goneNow).isSome = true ∧
    State.reset.plannerCommits 1 0 {} = true ∧ (State.reset.setReq 0 { gen := 1, state := 3 }).plannerCommits 1 0 { ready := [0] } = false := by decide +kernel
/-- bellows-A with `run` set. -/
def runs : State := State.reset.setFld (Blk.brth.at 4 4 0x008) 0 0 1
/-- A step of slot 3 of chanter 0. -/
def step0 : Step := { uid := 1, desc := { mask := 8, stepId := 7 }, breath := 1 }
theorem witness_EdgeActions : runs.rbit (Blk.brth.at 4 4 0x008) 0 = true ∧ step0 ∈ ({ runs with steps := [step0] }).steps ∧ step0.active = true ∧
    ({ step0 with held := true }).active = false := by decide +kernel
theorem witness_StepRetires_ended : ({ State.reset with steps := [step0] }).stepIn 0 3 = some step0 ∧ ({ State.reset with steps := [step0] }).stepOf 1 = some step0 ∧
    step0.desc.group = 0 ∧ ({ State.reset with steps := [step0] }).stepDone step0 = true ∧ step0.lastLink = true ∧ step0.chain = [] ∧
    step0.breath < 2 ^ 64 ∧ step0.desc.stepId < 2 ^ 32 ∧ step0.desc.group < 2 ^ 16 ∧ step0.desc.die < 8 ∧ State.reset.rbit (Blk.brth.at 4 4 0x008) 0 = false := by
  decide +kernel
/-- A chain step with two links, on its first. -/
def chain0 : Step := { step0 with chain := [⟨8, true, false, 0⟩, ⟨8, true, false, 0⟩] }
/-- A step whose reed still runs. -/
def busyStep : State := { (running (fun r => { r with step := 1 })) with steps := [{ step0 with desc := { step0.desc with mask := 1 } }] }
theorem witness_StepRetires_chain : ({ State.reset with steps := [chain0] }).stepIn 0 3 = some chain0 ∧ ({ State.reset with steps := [chain0] }).groupOf chain0 = [chain0] ∧
    chain0.chain ≠ [] ∧ chain0.lastLink = false ∧ chain0.stopping = false ∧ ({ State.reset with steps := [chain0] }).stepDone chain0 = true ∧ chain0.fault = false ∧
    (∃ e : Step, busyStep.stepIn 0 0 = some e ∧ busyStep.stepDone e = false ∧ busyStep.groupOf e = [e]) := by
  refine ⟨by decide +kernel, by decide +kernel, by decide, by decide, by decide, by decide +kernel, by decide, ?_⟩
  exact ⟨{ step0 with desc := { step0.desc with mask := 1 } }, by decide +kernel, by decide +kernel, by decide +kernel⟩
theorem witness_StepRetires_marks : 7 < 8 ∧ 7 ≠ 4 ∧ 7 ∉ State.reset.breath.missedNow ∧
    4096 ≠ 0 ∧ 4096 % 4096 = 0 ∧ ({ State.reset with breath := { State.reset.breath with number := 4096 } }).breath.decayed ≠ 4096 ∧ 4095 % 4096 ≠ 0 := by decide +kernel

/-! ### Banks, memory errors, host commands, objects and models -/

/-- A computation that succeeds. -/
def good {ε α : Type} (x : Except ε α) : Bool := match x with | .ok _ => true | .error _ => false
theorem witness_BankHandover_go : State.reset.writable fife ((MemRef.bellows 4).own 63) = true ∧ 63 < (MemRef.bellows 4).banks ∧
    (MemRef.bellows 4).ownerOk (fieldW 0x4001 15 8) = true ∧ (MemRef.bellows 4).ownerOk (fieldW 0x8001 15 8) = false ∧ (0x4001 : Word).getLsbD 0 = true ∧
    (State.reset.writeFields fife .mgmt ((MemRef.bellows 4).own 63) ((MemRef.bellows 4).own 63) 0x4001).goRefused (.bellows 4) 63 0x40 = false ∧
    ({ State.reset with withdrawnBanks := [(MemRef.bellows 4).own 63] }).goRefused (.bellows 4) 63 0x40 = true := by decide +kernel
/-- Bank 63 of bellows-A in a handover to partition 63, in a state. -/
def handing (st : Nat) (c : Bool) : State :=
  (State.reset.setHandover (.bellows 4) 63 (some (.toOwner 0x7F c))).setFld ((MemRef.bellows 4).own 63) 25 24 st
theorem witness_BankHandover_ends : 0x7F < 256 ∧ (handing 1 true).handoverOf (.bellows 4) 63 = some (.toOwner 0x7F true) ∧
    (handing 1 true).bankState (.bellows 4) 63 = 1 ∧ (handing 2 true).handoverOf (.bellows 4) 63 = some (.toOwner 0x7F true) ∧
    (handing 2 true).bankState (.bellows 4) 63 = 2 := by decide +kernel
/-- Bank 63 of bellows-A in the SECURE state with `busy` set. -/
def wiping : State := ((State.reset.setFld ((MemRef.bellows 4).own 63) 31 31 1).setFld ((MemRef.bellows 4).own 63) 25 24 3)
theorem witness_SecureBanks : State.reset.writable fife (Blk.sec.at 5 5 0x204) = true ∧ State.reset.bootDone = false ∧
    4 < popcount 64 (State.reset.secureMap 5 % 2 ^ 32 + 2 ^ 32 * 0x1F) ∧ popcount 64 (State.reset.secureMap 5 % 2 ^ 32 + 2 ^ 32 * 0x0F) ≤ 4 ∧
    wiping.bankState (.bellows 4) 63 = 3 ∧ wiping.rbit ((MemRef.bellows 4).own 63) 31 = true ∧ State.reset.sec.unlocking = none := by decide +kernel
/-- A correctable word and an uncorrectable one. -/
def flipped (mask : Nat) : State := { State.reset with flip := [(bellowsSram 4 0 / 8, mask)] }
theorem witness_MemoryErrorsAndPorts_words : Memory.wf (flipped 1).mem = true ∧ (flipped 1).flipOf ((MemRef.bellows 4).phys 0) ≠ 0 ∧
    (flipped (2 ^ 71)).flipOf ((MemRef.bellows 4).phys 0) < 2 ^ 72 ∧ (flipped 1).badByte ((MemRef.bellows 4).phys 0) = false ∧
    (flipped 3).badByte ((MemRef.bellows 4).phys 0) = true ∧ State.reset.flipOf ((MemRef.bellows 4).phys 0) = 0 := by decide +kernel
theorem witness_MemoryErrorsAndPorts_ports : 2 < 3 ∧ ([2] : List Nat).contains ((0 + 2) % 3) = true ∧ ([2] : List Nat).contains ((0 + 1) % 3) = false ∧
    ([2] : List Nat).contains ((0 + 0) % 3) = false ∧
    (State.reset.setFld (MemRef.bellows 4).scrubCtrl 16 16 1).rbit (MemRef.bellows 4).scrubCtrl 16 = true ∧
    0 < (State.reset.setScrub (.bellows 4) 1).scrubRows (.bellows 4) ∧
    (State.reset.setScrub (.bellows 4) 1).scrubRows (.bellows 4) ≤ (MemRef.bellows 4).banks * (MemRef.bellows 4).rows ∧
    (State.reset.setScrub (.bellows 4) 1).bankState (.bellows 4) 63 = 0 ∧ State.reset.writable fife (MemRef.bellows 4).eccHi = true := by decide +kernel
/-- Physical function 0 may be written, and is a bus master. -/
def host0 : State := State.reset.setFn 0 { busMaster := true }
/-- A host command of function 0 with a payload. -/
def hcmd (bs : List Byte) : HCmd := { fn := 0, len := bs.length, payload := bs }
/-- `n` bytes of zero. -/
def zeros (n : Nat) : List Byte := List.replicate n 0
theorem witness_HostCommandChecks : (Instr.objFree (hcmd (zeros 8))).hostCmd = some (hcmd (zeros 8), 8, true) ∧
    (State.reset.setFn 0 { h2f := [⟨0, { tag := 1 }, true, false⟩, ⟨1, { tag := 1 }, true, false⟩] }).dupTag { hcmd (zeros 8) with slot := some 1 } = true ∧
    host0.dupTag (hcmd (zeros 8)) = false ∧ ({ hcmd (zeros 8) with tag := 0 }).tag = 0 ∧
    ¬ ((hcmd (zeros 8)).tag = 0 ∨ (hcmd (zeros 8)).flagsHi ≠ 0 ∨ (hcmd (zeros 8)).len ≠ 8 ∨ (hcmd (zeros 8)).addr % 8 ≠ 0) ∧
    (State.reset.fn 0).busMaster = false ∧
    ¬ ((hcmd (zeros 8)).fault = true ∨ (host0.fn (hcmd (zeros 8)).fn).busMaster = false ∨ (hcmd (zeros 8)).payload.length ≠ 8) ∧
    ((host0.setFn 1 { busMaster := true }).manage 1 = false) := by decide +kernel
/-- An object of the host's DRAM. -/
def host0obj : State := host0.setObj 5 (some { size := 4096, flags := 0, addr := some 0 })
theorem witness_ObjectAndModelCommands_objects : host0.hostCheck (hcmd (zeros 24)) 24 true = none ∧ flagsOk 0xFFFFFFFF = false ∧
    host0obj.hostCheck (hcmd (leBytes 8 5)) 8 true = none ∧ (host0obj.obj ((hcmd (leBytes 8 5)).fld 0 8)).isSome = true ∧
    host0obj.isBound ((hcmd (leBytes 8 5)).fld 0 8) = false ∧ host0obj.hostCheck (hcmd (leBytes 16 5)) 16 true = none ∧
    host0obj.obj ((hcmd (leBytes 16 5)).fld 0 8) = some { size := 4096, flags := 0, addr := some 0 } := by decide +kernel
theorem witness_ObjectAndModelCommands_alloc : flagsOk 0x102 = true ∧
    (((host0.setFld (Blk.top.at 4 4 0x204) 0 0 1).cntAdd .host 4 4 0x030 24).alloc 0x102 4096 0 0 { id := 1, addr := some 0 }).1 = 0 := by decide +kernel
/-- A swap of model 3 to chanter 0. -/
def swap0 : Swap := { model := 3, fn := 0, part := 0, variant := 0, mask := 1, base := 0, tiles := 1, deadline := 0 }
theorem witness_ObjectAndModelCommands_models : host0.hostCheck (hcmd (zeros 16)) 16 true = none ∧ host0.hostCheck (hcmd (zeros 8)) 8 true = none ∧
    ({ State.reset with swaps := [swap0] }).swapOf 3 = some swap0 ∧ 0 < swap0.tiles ∧ swap0.mask.testBit 0 = true ∧ State.reset.modelNamed 3 = false := by
  decide +kernel

/-! ### The Horn and the units -/

/-- A reset state with words of little-endian values in reed 0's SRAM. -/
def sram (ws : List (Nat × Nat × Nat)) : State := ws.foldl (fun s w => { s with mem := s.mem.setLe (reedSram x0 w.1) w.2.1 w.2.2 }) State.reset
/-- The Horn of consort 0 of chanter 0 enabled, with one descriptor of 64 bytes seen in the ring of position 0. -/
def horn0 (d : Nat) : State :=
  (((sram [(State.reset.ringBase 0 0 + 0x400, 4, 1), (State.reset.ringBase 0 0, 64, d)]).setFld (Blk.horn.at 0 0 0x008) 0 0 1).setFld (Blk.top.at 4 4 0x204) 0 0 1).setHorn 0 0 { seen := [(0, 1)] }
/-- A Horn descriptor of one head of 32 elements, one query row, grain 16 and `n` new tokens, of an op with output format `f` and
cache format `kv`; its areas lie 4,096 bytes apart from 0x10000. -/
def hdesc (op f kv n ctx : Nat) : Nat :=
  op + 2 ^ 16 * kv + 2 ^ 24 * f + 2 ^ 32 + 2 ^ 40 + 2 ^ 48 * 32 + 2 ^ 64 + 2 ^ 80 * 16 + 2 ^ 128 * ctx + 2 ^ 320 * 0x10000 + 2 ^ 352 * 0x11000 +
    2 ^ 384 * 0x12000 + 2 ^ 416 * 0x13000 + 2 ^ 448 * 0x14000 + 2 ^ 480 * n
/-- What the Horn reads as its descriptor. -/
def horn0desc (d : Nat) : HDesc :=
  match (horn0 d).hornRead 0 0 x0 ((horn0 d).ringBase 0 0) 64 with | .ok (bs, _) => hdescOf (leOf bs) | .error _ => {}
/-- The descriptor is the next one of position 0, has an op, and passes its checks. -/
def hornReady (d op : Nat) : Bool :=
  decide (((horn0 d).horn 0 0).job = none) && (horn0 d).rbit (Blk.horn.at 0 0 0x008) 0 && decide ((horn0 d).hornNext 0 0 = some 0) &&
  decide ((horn0 d).reedAt 0 0 0 = some x0) && decide ((horn0 d).ringWord 0 0 x0 0x404 % 16 = 0) && decide ((horn0desc d).op = op) &&
  decide (((horn0 d).hornBusy 0 0 true 0).hornCheck x0 (horn0desc d) = none)
theorem witness_HornCompletes_checks : hornReady (hdesc 0 7 1 0 0) 0 = true ∧ hornReady (hdesc 1 7 0 0 0) 1 = true ∧
    hornReady (hdesc 2 7 1 0 0) 2 = true ∧ hornReady (hdesc 3 0 1 0 0) 3 = true ∧ hornReady (hdesc 4 7 0 0 0) 4 = true := by decide +kernel
/-- The state in which the Horn carries out a descriptor. -/
def hornRuns (d : Nat) : State := (horn0 d).hornBusy 0 0 true 0
theorem witness_HornCompletes_dense : good ((hornRuns (hdesc 1 7 0 200 200)).denseBlock 0 0 x0 (horn0desc (hdesc 1 7 0 200 200)) 0) = true ∧
    0 + 1 < (horn0desc (hdesc 1 7 0 200 200)).total := by decide +kernel
theorem witness_HornCompletes_merge : good ((hornRuns (hdesc 2 7 1 2 0)).mergeBlock 0 0 x0 (horn0desc (hdesc 2 7 1 2 0)) 0) = true ∧
    0 + 1 < (horn0desc (hdesc 2 7 1 2 0)).total := by decide +kernel
theorem witness_HornCompletes_append : good ((hornRuns (hdesc 3 0 1 0 0)).hornAppend 0 0 x0 (horn0desc (hdesc 3 0 1 0 0))) = true := by decide +kernel
theorem witness_HornCompletes_backward : good ((hornRuns (hdesc 4 7 0 0 0)).hornBackward 0 0 x0 (horn0desc (hdesc 4 7 0 0 0))) = true := by
  decide +kernel
/-- A paged descriptor with every page folded. -/
def paged0 : HornJob := { pos := 0, slot := 0, d := horn0desc (hdesc 0 7 1 0 0) }
theorem witness_HornCompletes_paged : paged0.d.op = 0 ∧ paged0.stopping = false ∧ paged0.d.total ≤ paged0.page ∧
    ((hornRuns (hdesc 0 7 1 0 0)).setHorn 0 0 { job := some paged0, rows := [{}] }).reedAt 0 0 0 = some x0 ∧
    good ((hornRuns (hdesc 0 7 1 0 0)).hornQueries 0 0 x0 paged0.d) = true ∧
    good ((hornRuns (hdesc 0 7 1 0 0)).hornOutput 0 0 x0 paged0.d [{}]) = true := by decide +kernel
theorem witness_HornCompletes_ring : 15 < 16 ∧ State.reset.reedAt 0 0 15 = some ⟨0, 0, 15⟩ ∧ (State.reset.horn 0 0).job = none ∧
    15 ∉ (State.reset.horn 0 0).stopped ∧ State.reset.writable fife (Blk.horn.at 0 0 0x10C) = true ∧
    (State.reset.writeAt fife .horn 0 0 0x10C (BitVec.ofNat 32 (2 ^ 15))).reedAt 0 0 15 = some ⟨0, 0, 15⟩ ∧
    ((State.reset.setHorn 0 0 { job := some { pos := 15, slot := 0, d := {} } }).horn 0 0).job = some { pos := 15, slot := 0, d := {} } := by decide +kernel

/-- Chanter 0 online with its DRAM in window 0 of partition 0, and words of little-endian values in its DRAM. -/
def unit0 (ws : List (Nat × Nat × Nat)) : State :=
  let a := Blk.part.at 0 0 0x200
  let s := ((State.reset.setFld (Blk.top.at 4 4 0x204) 0 0 1).setFld (bank (a + 8) 0) 27 0 0x2000).setFld (bank (a + 12) 0) 1 0 3
  ws.foldl (fun s w => { s with mem := s.mem.setLe (dramPhys 0 w.1) w.2.1 w.2.2 }) s
/-- A list at 0x10000 of chanter 0's DRAM, run for step 1 of partition 0. -/
def run0 : URun := { uid := 1, part := 0, list := 0x10000 }
/-- A version of id 0 that step 1 has bound: an open table of partition 0 with 128 columns. -/
def version0 (desc : Nat) : VSlot := { id := 0, st := .current, version := 1, desc := desc, target := 0, bound := [(1, 0)] }
/-- A table descriptor: flags at byte 7, columns at 8, rows at 16. -/
def table0 (flags : Nat) : Nat := 2 ^ 56 * flags + 2 ^ 64 * 128 + 2 ^ 128 * 8
/-- A Serpent descriptor of an op on one bag, with its offsets at 0x11000, its indices at 0x12000, its output at 0x13000 and its status
at 0x14000. -/
def sdesc (op flags : Nat) : Nat :=
  op + 256 * flags + 2 ^ 32 + 2 ^ 64 * 0x12000 + 2 ^ 128 * 0x11000 + 2 ^ 256 * 0x13000 + 2 ^ 320 * 0x14000
/-- A Serpent about to serve a descriptor, with one index of row 0. -/
def serp0 (op flags tflags : Nat) : State :=
  let s := unit0 [(0x10000, 64, sdesc op flags), (0x11004, 4, 1)]
  (s.setRun 0 8 (some run0)).setDir 0 0 { slots := [version0 (table0 tflags)] }
/-- The descriptor is the next of the list, of an op, passes its checks, and its version is bound. -/
def serpReady (op flags tflags : Nat) : Bool :=
  let s := serp0 op flags tflags
  decide (s.runOf 0 8 = some run0) && decide (s.boundVer 0 0 0 1 = some (version0 (table0 tflags))) &&
  (match s.nextDesc 0 3 4 run0 with
   | .error _ => false
   | .ok v => decide (dfld v 0 1 = op) && (match s.serpDesc 0 0 v with | .error _ => false | .ok d => decide (d.op = op)))
theorem witness_SerpentDescriptors_next : serpReady 0 0 0 = true ∧ serpReady 1 0 0 = true ∧ serpReady 2 0 0 = true ∧ serpReady 3 1 0 = true ∧
    serpReady 4 0 1 = true ∧ serpReady 5 0 1 = true ∧ ((serp0 0 0 0).serp 0).job = none ∧ (version0 (table0 1)).isOpen = true ∧
    (version0 (table0 0)).isOpen = false ∧ (version0 (table0 0)).tablePart = 0 ∧ (version0 (table0 0 + 2 ^ 80)).tablePart ≠ 0 ∧
    (serp0 0 0 0).crossStep 0 0 1 1 false = false ∧ (serp0 4 0 1).crossStep 0 0 1 1 true = false := by decide +kernel
/-- A walk that resolves every index. -/
def walks (op : Nat) : Bool :=
  let s := serp0 op (if op = 3 then 1 else 0) (if 4 ≤ op then 1 else 0)
  let w := version0 (table0 (if 4 ≤ op then 1 else 0))
  let s1 := (if 4 ≤ op then s.stepUpdates 1 else s).recordAccess 0 0 1 1 (decide (4 ≤ op))
  match s.nextDesc 0 3 4 run0 with
  | .error _ => false
  | .ok v => match s.serpDesc 0 0 v with
    | .error _ => false
    | .ok d => match s1.serpWalk 0 0 d w (s.hosted 0) (d.idx.length + 1) {} with
      | .done t j => if 4 ≤ op then good ((t.free 64).2.uout 8 0 0 3 4 8 0x14000 (leBytes 8 (t.free 64).1)) else good (t.serpOutput 0 0 d w (s.hosted 0) j.rows [])
      | _ => false
theorem witness_SerpentDescriptors_walk : walks 0 = true ∧ walks 1 = true ∧ walks 2 = true ∧ walks 3 = true ∧ walks 4 = true ∧ walks 5 = true := by
  decide +kernel
theorem witness_SerpentDescriptors_rows : ({ need := some (3, 0) } : SJob).need = some (3, 0) ∧ ({ held := true } : SJob).held = true ∧
    good ((serp0 0 0 0).quarterHead 0 0 (version0 (table0 0)) 3) = true ∧
    ([⟨0, 1, 0, 0, .cache 0 0, [], 0, none, []⟩] : List Tag)[0]? = some ⟨0, 1, 0, 0, .cache 0 0, [], 0, none, []⟩ := by decide +kernel
/-- Region 7 of 2 units. -/
def region7 : State := State.reset.setReg (Blk.serp.at 0 0 (0x140 + 4 * 15)) 2
theorem witness_SerpentDescriptors_regions : 14 < 16 ∧ region7.writable fife (Blk.serp.at 0 0 (0x140 + 4 * 14)) = true ∧
    cregBad (fun j => (region7.writeAt fife .serp 0 0 (0x140 + 4 * 14) 0x800001FE).reg (Blk.serp.at 0 0 (0x140 + 4 * j))) = false ∧
    cregBad (fun j => (region7.writeAt fife .serp 0 0 (0x140 + 4 * 14) 0x800001FF).reg (Blk.serp.at 0 0 (0x140 + 4 * j))) = true ∧
    region7.frozen (Blk.serp.at 0 0 (0x140 + 4 * 14)) = false ∧ 14 / 2 ∉ (region7.serp 0).dirty := by decide +kernel
theorem witness_Versions_publish : 0 < (1024 + 2 ^ 16 - State.reset.breath.number % 2 ^ 16) % 2 ^ 16 ∧
    (1024 + 2 ^ 16 - State.reset.breath.number % 2 ^ 16) % 2 ^ 16 ≤ 1024 ∧ (0 + 2 ^ 16 - State.reset.breath.number % 2 ^ 16) % 2 ^ 16 = 0 ∧
    1024 < (1025 + 2 ^ 16 - State.reset.breath.number % 2 ^ 16) % 2 ^ 16 ∧ 2 ^ 15 ≤ (0x8000 + 2 ^ 16 - State.reset.breath.number % 2 ^ 16) % 2 ^ 16 ∧
    (State.reset.dir 0 0).slots.countP (fun v => decide (v.id = 0)) < 4 ∧
    4 ≤ ({ slots := List.replicate 4 (version0 0) } : Dir).slots.countP (fun v => decide (v.id = 0)) ∧
    16 ≤ ({ slots := List.replicate 16 { version0 0 with id := 5, st := .pending } } : Dir).slots.countP (fun v => decide (v.st = .pending)) := by decide +kernel
theorem witness_Versions_registers : State.reset.writable fife (Blk.serp.at 3 3 0x108) = true ∧ State.reset.writable fife (Blk.panp.at 3 3 0x108) = true ∧
    State.reset.writable fife (Blk.mouth.at 5 5 0x108) = true ∧ State.reset.writable fife (Blk.keyw.at 5 5 0x108) = true ∧
    (State.reset.dir 3 5).retire = [] ∧ ((State.reset.setDir 3 5 { retire := [7] }).dir 3 5).retire = [7] := by decide +kernel
/-- An index version of id 0: 32 dimensions of FP16, 8 slots, its slot table at 0, its node records at 0x2000, its lists at 0x3000. -/
def index0 : VSlot := version0 (2 ^ 64 * 32 + 2 ^ 104 * 10 + 2 ^ 128 * 8 + 2 ^ 320 * 0x2000 + 2 ^ 512 * 0x3000 + 2 ^ 576 * 0x3100 + 2 ^ 640 * 0x3200 + 2 ^ 704 * 0x3300 +
  2 ^ 768 * 0x20000 + 2 ^ 832 * 0x30000 + 2 ^ 896 * 0x40000 + 2 ^ 960 * 0x50000)
/-- A Panpipe descriptor: op, counts n, p, k, k_pre, and areas. -/
def pdesc (op n p k kp : Nat) (hi : Nat) : Nat :=
  op + 2 ^ 32 * n + 2 ^ 48 * p + 2 ^ 64 * k + 2 ^ 80 * kp + 2 ^ 128 * 0x11000 + 2 ^ 192 * 0x12000 + 2 ^ 256 * 0x14000 + 2 ^ 320 * 0x18000 + 2 ^ 416 * hi
/-- A Panpipe about to serve a descriptor. -/
def panp0 (d : Nat) (ws : List (Nat × Nat × Nat)) : State :=
  ((unit0 ((0x10000, 64, d) :: ws)).setRun 0 9 (some run0)).setDir 1 0 { slots := [index0] }
/-- The descriptor is the next of the list, of an op, keeps R369, and its version is bound and of the step's partition. -/
def panpReady (op d : Nat) (ws : List (Nat × Nat × Nat)) : Bool :=
  let s := panp0 d ws
  decide (s.runOf 0 9 = some run0) && decide ((s.panp 0).need = none) && decide (s.boundVer 1 0 0 1 = some index0) && decide (dfld index0.desc 12 1 = 0) &&
  (match s.nextDesc 0 3 4 run0 with | .error _ => false | .ok v => decide (dfld v 0 1 = op) && panpFieldsOk v)
/-- How a descriptor ends. -/
def ending {α : Type} (x : PRes α) : Nat := match x with | .ok _ _ => 0 | .fail _ _ => 1 | .need _ _ _ _ => 2
/-- What a descriptor of a Panpipe does. -/
def panpRes (op d : Nat) (ws : List (Nat × Nat × Nat)) : PRes State :=
  let s := panp0 d ws
  if op ≤ 1 then s.runSearch 0 0 index0 1 d else if op ≤ 3 then s.runSide 0 0 index0 1 d else if op = 4 then s.runCompare 0 0 d else s.runMerge 0 0 index0 1 d
theorem witness_SearchUnits_next : panpReady 0 (pdesc 0 1 1 1 1 0) [] = true ∧ panpReady 1 (pdesc 1 1 0 1 1 0) [] = true ∧
    panpReady 2 (pdesc 2 1 0 0 0 0) [] = true ∧ panpReady 3 (pdesc 3 1 0 0 0 0) [] = true ∧ panpReady 4 (pdesc 4 1 0 1 0 0) [] = true ∧
    panpReady 5 (pdesc 5 1 0 0 0 0) [] = true := by decide +kernel
theorem witness_SearchUnits_ok : ending (panpRes 0 (pdesc 0 1 1 1 1 0) []) = 0 ∧ ending (panpRes 1 (pdesc 1 1 0 1 1 0) []) = 0 ∧
    ending (panpRes 2 (pdesc 2 1 0 0 0 0) [(0, 4, 2 ^ 30)]) = 0 ∧ ending (panpRes 3 (pdesc 3 1 0 0 0 0) [(0, 4, 2 ^ 30)]) = 0 ∧
    ending (panpRes 4 (pdesc 4 1 0 1 0 0) []) = 0 ∧ ending (panpRes 5 (pdesc 5 1 0 0 0 0) []) = 0 := by decide +kernel
theorem witness_SearchUnits_waits : panpReady 1 (pdesc 1 1 0 1 1 1) [(0, 4, 2 ^ 30), (0x3000, 8, 0x5000), (0x5000, 4, 1), (0x5008, 1, 1)] = true ∧
    ending (panpRes 1 (pdesc 1 1 0 1 1 1) [(0, 4, 2 ^ 30), (0x3000, 8, 0x5000), (0x5000, 4, 1), (0x5008, 1, 1)]) = 2 ∧
    ending (panpRes 2 (pdesc 2 1 0 0 0 0) []) = 1 := by decide +kernel
/-- A Piccolo descriptor of an op over one element, format `f`, k of 1. -/
def piccDesc (op f k : Nat) : Nat := op + 2 ^ 16 * f + 2 ^ 32 + 2 ^ 64 * k + 2 ^ 128 * 0x11000 + 2 ^ 256 * 0x13000
/-- A Piccolo, enabled, about to serve a descriptor. -/
def picc0 (d : Nat) : State := ((unit0 [(0x10000, 64, d)]).setRun 0 10 (some run0)).setFld (Blk.picc.at 0 0 0x008) 0 0 1
/-- The descriptor is the next of the list and its result is formed. -/
def piccReady (op d : Nat) : Bool :=
  let s := picc0 d
  decide (s.runOf 0 10 = some run0) && s.rbit (Blk.picc.at 0 0 0x008) 0 &&
  (match s.nextDesc 0 2 3 run0 with | .error _ => false | .ok v => decide (dfld v 0 1 = op) && good (s.piccRun 0 0 ⟨v⟩))
theorem witness_SearchUnits_piccolo : piccReady 0 (piccDesc 0 2 1) = true ∧ piccReady 1 (piccDesc 1 7 1) = true ∧ piccReady 2 (piccDesc 2 0 1) = true ∧
    piccReady 3 (piccDesc 3 5 0) = true ∧ piccReady 0 (piccDesc 0 3 1) = false ∧
    (State.reset.setFld (Blk.picc.at 0 0 0x008) 0 0 0).rbit (Blk.picc.at 0 0 0x008) 0 = false := by decide +kernel
/-- Request 0 of bellows-A, RUNNING with generation 1, and words of little-endian values in the SRAM of bellows-A. -/
def text0 (slot : Nat) (ws : List (Nat × Nat × Nat)) : State :=
  { State.reset with
    regs := [(0x2010100, 1)], reqs := [(0, { gen := 1, state := 3 })], runs := [(64 + slot, some { uid := 1, part := 0, list := bellowsSram 4 0x10000 })]
    dirs := [(20, { slots := [version0 (2 ^ 40 + 2 ^ 64 * 8)] }), (28, { slots := [version0 (2 ^ 64)] })]
    mem := ws.foldl (fun m w => m.setLe (bellowsSram 4 w.1) w.2.1 w.2.2) [] }
/-- The run of a bellows unit. -/
def run4 : URun := { uid := 1, part := 0, list := bellowsSram 4 0x10000 }
/-- A Mouthpiece descriptor: 16 bytes of records at 0x11000, tokens at 0x12000 with room for 8, the context at 0x13000 and the status at
0x15000; `first` is set. -/
def mdesc : Nat := 0x10000 + 2 ^ 32 * 1 + 2 ^ 64 * bellowsSram 4 0x11000 + 2 ^ 128 * 16 + 2 ^ 160 * 0x12000 + 2 ^ 192 * 8 + 2 ^ 224 * 0x13000 +
  2 ^ 256 * bellowsSram 4 0x15000
/-- A Keywork descriptor of an op: the mask at 0x16000, the context at 0x13000. -/
def kdesc (op : Nat) : Nat := op + 2 ^ 32 * 0x10000 + (if op = 0 then 0 else 2 ^ 128 * bellowsSram 4 0x16000) + 2 ^ 192 * 0x13000
/-- A Bell descriptor of no token, its context at 0x13000. -/
def bdesc : Nat := 0x10000 + 2 ^ 64 * 0x13000
/-- A Mouthpiece before one IDS record with the id 0. -/
def mouth0 : State := text0 0 [(0x10000, 64, mdesc), (0x11000, 8, 2 + 2 ^ 34)]
/-- A whole range that is admitted byte by byte is admitted. -/
theorem physRange_some (s : State) (who : Agent) (part : Option Nat) : ∀ (n a : Nat),
    (∀ i : Nat, i < n → (s.physAt who part (a + i)).isSome = true) → (s.physRange who part a n).isSome = true
  | 0, _, _ => rfl
  | n + 1, a, h => by
    have h0 := h 0 (by omega)
    have h1 := physRange_some s who part n (a + 1) (fun i hi => by rw [Nat.add_right_comm]; exact h (i + 1) (by omega))
    simp only [Nat.add_zero] at h0
    obtain ⟨p, hp⟩ := Option.isSome_iff_exists.mp h0
    obtain ⟨ps, hps⟩ := Option.isSome_iff_exists.mp h1
    simp [State.physRange, hp, hps]

/-- The SRAM of bellows-A is open to its units, and no word is in error. -/
def openSram (s : State) : Prop := (s.flip = [] ∧ s.handover = []) ∧ ∀ b : Nat, b < 64 → s.bankAdmits (.bunit 4) (some 0) (.bellows 4) b = true

theorem sram_bits (k : Nat) (h : 2 ^ 34 ≤ k ∧ k < 2 ^ 34 + 2 ^ 27) : bits k 34 32 = 4 ∧ bits k 43 35 = 0 ∧ bits k 29 27 = 0 ∧ bits k 26 21 < 64 ∧
    bit k 30 = false ∧ bit k 31 = false := by
  refine ⟨?_, ?_, ?_, ?_, ?_, ?_⟩
  all_goals
    (try simp only [bits, Nat.shiftRight_eq_div_pow])
    (try simp only [bit, Nat.testBit_eq_decide_div_mod_eq, decide_eq_false_iff_not])
    omega
theorem sram_where (s : State) (a : Nat) (h0 : a / sramBase = 1) (h1 : bits (sramOff a) 43 35 = 0) (h2 : bit (sramOff a) 30 = false)
    (h3 : bits (sramOff a) 34 32 = 4) (h4 : bit (sramOff a) 31 = false) (h5 : bits (sramOff a) 29 27 = 0) :
    s.sramWhere (.bunit 4) a = some (.bellows 4, bits (sramOff a) 26 21, bits (sramOff a) 26 0) := by
  unfold State.sramWhere
  simp only [h0, h1, h2, h3, h4, h5, ne_eq, not_true_eq_false, Bool.false_eq_true, or_self, if_false, if_true,
    show ¬ (4 : Nat) < 4 by omega, show (4 : Nat) < 6 by omega]
theorem sramAt_where (s : State) (who : Agent) (part : Option Nat) (a n off : Nat) (m : MemRef) (hA : s.bankAdmits who part m n = true)
    (hw : s.sramWhere who a = some (m, n, off)) : (s.sramAt who part a).isSome = true := by
  unfold State.sramAt
  rw [hw]
  simp only [hA, if_true, Option.isSome_some]
theorem sram_off (a : Nat) (ha : bellowsSram 4 0 ≤ a) (hb : a < bellowsSram 4 0 + 2 ^ 27) :
    a / sramBase = 1 ∧ 2 ^ 34 ≤ sramOff a ∧ sramOff a < 2 ^ 34 + 2 ^ 27 := by
  have e : bellowsSram 4 0 = 2 ^ 44 + 2 ^ 34 := rfl
  have e1 : sramBase = 2 ^ 44 := rfl
  unfold sramOff
  rw [e1]
  omega
theorem sram_low (a : Nat) (ha : bellowsSram 4 0 ≤ a) : sramBase ≤ a := Nat.le_trans (by decide) ha
theorem sram_high (a : Nat) (hb : a < bellowsSram 4 0 + 2 ^ 27) : a < sramBase + 0x600000000 := Nat.lt_of_lt_of_le hb (by decide)
theorem physAt_sram (s : State) (h : openSram s) (a : Nat) (ha : bellowsSram 4 0 ≤ a) (hb : a < bellowsSram 4 0 + 2 ^ 27) :
    (s.physAt (.bunit 4) (some 0) a).isSome = true := by
  obtain ⟨h0, hk⟩ := sram_off a ha hb
  obtain ⟨h3, h1, h5, h6, h2, h4⟩ := sram_bits _ hk
  unfold State.physAt
  rw [if_pos (sram_low a ha), if_pos (sram_high a hb)]
  exact sramAt_where s _ _ a _ _ _ (h.2 _ h6) (sram_where s a h0 h1 h2 h3 h4 h5)

theorem noBad (s : State) (h : openSram s) (p : Nat) : s.badByte p = false := by
  simp [State.badByte, State.flipOf, h.1.1, SMap.get, SMap.find?]

theorem xlat_sram (s : State) (h : openSram s) (w : Bool) (a n : Nat) (ha : bellowsSram 4 0 ≤ a) (hb : a + n ≤ bellowsSram 4 0 + 2 ^ 27) :
    ∃ ps : List Nat, s.xlat (.bunit 4) (some 0) w a n = some ps := by
  have h1 := physRange_some s (.bunit 4) (some 0) n a (fun i hi => physAt_sram s h (a + i) (by omega) (by omega))
  have l1 : sramBase ≤ a := by have e : bellowsSram 4 0 = sramBase + 2 ^ 34 := rfl; omega
  obtain ⟨ps, hps⟩ := Option.isSome_iff_exists.mp h1
  exact ⟨ps, by simp [State.xlat, State.windowOk, l1, hps]⟩

theorem uread_sram (s : State) (h : openSram s) (cr cu align a n : Nat) (hal : a % align = 0) (ha : bellowsSram 4 0 ≤ a)
    (hb : a + n ≤ bellowsSram 4 0 + 2 ^ 27) : ∃ bs : List Byte, s.uread 4 0 cr cu align a n = .ok bs := by
  obtain ⟨ps, hps⟩ := xlat_sram s h false a n ha hb
  have hn : s.anyBad ps = false := by simp [State.anyBad, noBad s h]
  exact ⟨s.readPhys ps, by simp [State.uread, State.readDev, State.awaited, h.1.2, unitAgent, hal, hps, hn]⟩

theorem uwrite_sram (s : State) (h : openSram s) (cr cu align a : Nat) (bs : List Byte) (hal : a % align = 0) (ha : bellowsSram 4 0 ≤ a)
    (hb : a + bs.length ≤ bellowsSram 4 0 + 2 ^ 27) : ∃ ps : List Nat, s.uwrite 4 0 cr cu align a bs = .ok (s.writePhys ps bs) := by
  obtain ⟨ps, hps⟩ := xlat_sram s h true a bs.length ha hb
  have hn : s.partialBad ps = false := by simp [State.partialBad, noBad s h]
  exact ⟨ps, by simp [State.uwrite, State.awaited, State.notePartial, h.1.1, h.1.2, unitAgent, hal, hps, hn]⟩

theorem settle_open (s : State) (h : openSram s) (p : Nat) : openSram (s.settle p) := by
  refine ⟨⟨?_, h.1.2⟩, fun b hb => ?_⟩
  · show SMap.set (fun _ => 0) s.flip (p / 8) 0 = []
    rw [h.1.1]; rfl
  · exact h.2 b hb
theorem writePhys_open : ∀ (ps : List Nat) (bs : List Byte) (s : State), openSram s → openSram (s.writePhys ps bs)
  | [], _, s, h => by unfold State.writePhys; exact h
  | _ :: _, [], s, h => by unfold State.writePhys; exact h
  | p :: ps, b :: bs, s, h => by
    unfold State.writePhys
    exact writePhys_open ps bs _ ⟨(settle_open s h p).1, fun c hc => (settle_open s h p).2 c hc⟩
theorem mouth0_open : openSram mouth0 := ⟨⟨rfl, rfl⟩, by decide +kernel⟩
/-- The bytes that the descriptor of `mouth0` reads. -/
def reads0 : List (Nat × Nat) := [(bellowsSram 4 0x11000, 16), (bellowsAddr 4 0x13000, 4352)]
/-- What the descriptor of `mouth0` emits. -/
def tok0 : Tok :=
  mouth0.runRecs ⟨4, 0, (version0 (2 ^ 40 + 2 ^ 64 * 8)).desc⟩ 1 (mouth0.rawIds 0) (leBytes 16 (2 + 2 ^ 34)).length (leBytes 16 (2 + 2 ^ 34))
    { cap := (⟨mdesc⟩ : MDesc).f 24 4, reads := reads0 }
theorem tok0_good : tok0.err = 0 ∧ tok0.n0 = 0 ∧ tok0.toks.length ≤ 8 ∧ ((mouth0.noteIns 4 0 tok0.reads).mouthCount 4 tok0).flip = [] ∧
    ((mouth0.noteIns 4 0 tok0.reads).mouthCount 4 tok0).handover = [] ∧
    ∀ b : Nat, b < 64 → ((mouth0.noteIns 4 0 tok0.reads).mouthCount 4 tok0).bankAdmits (.bunit 4) (some 0) (.bellows 4) b = true := by decide +kernel
theorem on_ok {α : Type} (t : Tok) (m : TextM α) (k : Tok → α → Tok) (a : α) (l : List (Nat × Nat)) (h : m t.reads = (Except.ok a, l)) :
    t.on m k = k { t with reads := l } a := by unfold Tok.on; rw [h]
theorem tread_ok (s : State) (die part cr cu align a n : Nat) (bs : List Byte) (l : List (Nat × Nat))
    (h : s.uread die part cr cu align a n = .ok bs) : s.tread die part cr cu align a n l = (Except.ok bs, (a, n) :: l) := by
  unfold State.tread; rw [h]
theorem tokenise_first (s : State) (die part uid i : Nat) (d : MDesc) (vs : VSlot) (mode : Nat) (ctx bs : List Byte)
    (h1 : d.ok = true) (h2 : s.boundVer 2 die (d.f 6 1) uid = some vs) (h3 : d.mode ⟨die, part, vs.desc⟩ = some mode)
    (h4 : d.f 8 8 % 8 = 0) (h4' : d.flag 3 = false) (h5 : d.flag 0 = true) (h6 : d.flag 1 = false)
    (h7 : s.uread die part 8 8 8 (d.f 8 8) (d.f 16 4) = .ok bs)
    (h8 : s.uread die part 8 8 64 (bellowsAddr die (d.f 28 4)) 4352 = .ok ctx) :
    s.tokenise die part uid i d none = s.runRecs ⟨die, part, vs.desc⟩ mode (s.rawIds i) bs.length bs
      { cap := d.f 24 4, reads := [(d.f 8 8, d.f 16 4), (bellowsAddr die (d.f 28 4), 4352)] } := by
  have hs : s.stream die part d = { cap := d.f 24 4 } := by unfold State.stream; rw [h5]
  unfold State.tokenise
  rw [if_neg (by simp [h1]), hs]
  simp only [h2]
  rw [h3]
  simp only []
  rw [on_ok _ _ _ ctx _ (tread_ok _ _ _ _ _ _ _ _ _ _ h8), if_neg (by simp [h5])]
  have hr : s.recBytes die part d none = s.tread die part 8 8 8 (d.f 8 8) (d.f 16 4) := by
    unfold State.recBytes; rw [if_neg (by simp [h4]), h4']; rfl
  rw [hr, on_ok _ _ _ bs _ (tread_ok _ _ _ _ _ _ _ _ _ _ h7), h6]
  rfl
theorem ok_bind {α β : Type} (x : α) (f : α → Except Nat β) : (Except.ok x >>= f) = f x := rfl
theorem tokWrite_ok (s s1 s2 s3 : State) (die part : Nat) (d : MDesc) (t : Tok)
    (h1 : s.uwrite die part 8 8 4 (bellowsAddr die (d.f 20 4 + 4 * t.n0)) (t.toks.flatMap (fun k => leBytes 4 k)) = .ok s1)
    (h2 : s1.uwrite die part 8 8 64 (bellowsAddr die (d.f 28 4)) (t.ctx (d.f 5 1 + 16 * d.f 6 1)) = .ok s2)
    (h3 : s2.uwrite die part 8 8 8 (d.f 32 8) (t.status (d.flag 1)) = .ok s3) : s.tokWrite die part d t = .ok s3 := by
  unfold State.tokWrite
  rw [h1, ok_bind, h2, ok_bind, h3]
theorem tok_of_mouth0 : mouth0.tokenise 4 0 1 0 ⟨mdesc⟩ none = tok0 := by
  obtain ⟨bs, hbs⟩ := uread_sram mouth0 mouth0_open 8 8 64 (bellowsAddr 4 ((⟨mdesc⟩ : MDesc).f 28 4)) 4352 (by decide +kernel) (by decide +kernel)
    (by decide +kernel)
  have h1 : (⟨mdesc⟩ : MDesc).ok = true := by decide +kernel
  have h2 : mouth0.boundVer 2 4 ((⟨mdesc⟩ : MDesc).f 6 1) 1 = some (version0 (2 ^ 40 + 2 ^ 64 * 8)) := by decide +kernel
  have h3 : (⟨mdesc⟩ : MDesc).mode ⟨4, 0, (version0 (2 ^ 40 + 2 ^ 64 * 8)).desc⟩ = some 1 := by decide +kernel
  have h4 : mouth0.uread 4 0 8 8 8 ((⟨mdesc⟩ : MDesc).f 8 8) ((⟨mdesc⟩ : MDesc).f 16 4) = .ok (leBytes 16 (2 + 2 ^ 34)) := by
    have e : (match mouth0.uread 4 0 8 8 8 ((⟨mdesc⟩ : MDesc).f 8 8) ((⟨mdesc⟩ : MDesc).f 16 4) with
      | .ok b => decide (b = leBytes 16 (2 + 2 ^ 34)) | .error _ => false) = true := by decide +kernel
    revert e
    cases mouth0.uread 4 0 8 8 8 ((⟨mdesc⟩ : MDesc).f 8 8) ((⟨mdesc⟩ : MDesc).f 16 4) with
    | ok b => intro e; rw [of_decide_eq_true e]
    | error c => intro e; cases e
  have h5 : (⟨mdesc⟩ : MDesc).flag 0 = true := by decide +kernel
  have h6 : (⟨mdesc⟩ : MDesc).flag 1 = false := by decide +kernel
  have h9 : (⟨mdesc⟩ : MDesc).f 8 8 = bellowsSram 4 0x11000 ∧ (⟨mdesc⟩ : MDesc).f 16 4 = 16 ∧ (⟨mdesc⟩ : MDesc).f 28 4 = 0x13000 := by decide +kernel
  rw [tokenise_first mouth0 4 0 1 0 ⟨mdesc⟩ _ 1 bs _ h1 h2 h3 (by decide +kernel) (by decide +kernel) h5 h6 h4 hbs, h9.1, h9.2.1, h9.2.2]
  rfl

theorem padTo_length (n : Nat) (bs : List Byte) : (padTo n bs).length = n := by simp [padTo]; omega
theorem leBytes_length (n v : Nat) : (leBytes n v).length = n := by
  induction n generalizing v with
  | zero => rfl
  | succ n ih => simp [leBytes, ih]
theorem toks_length (l : List Nat) : (l.flatMap (fun k => leBytes 4 k)).length = 4 * l.length := by
  induction l with
  | nil => rfl
  | cons a l ih => simp [leBytes_length, ih]; omega
theorem witness_TextAndPacker_tokenise : ∃ u : State, (mouth0.tokenise 4 0 1 0 ⟨mdesc⟩ none).err = 0 ∧
    ((mouth0.noteIns 4 0 (mouth0.tokenise 4 0 1 0 ⟨mdesc⟩ none).reads).mouthCount 4 (mouth0.tokenise 4 0 1 0 ⟨mdesc⟩ none)).tokWrite 4 0 ⟨mdesc⟩
      (mouth0.tokenise 4 0 1 0 ⟨mdesc⟩ none) = .ok u := by
  rw [tok_of_mouth0]
  have hg := tok0_good
  generalize tok0 = t at hg ⊢
  obtain ⟨he, hn, hl, f1, f2, f3⟩ := hg
  have o1 : openSram ((mouth0.noteIns 4 0 t.reads).mouthCount 4 t) := ⟨⟨f1, f2⟩, f3⟩
  have a1 : (⟨mdesc⟩ : MDesc).f 20 4 = 0x12000 := by decide +kernel
  have a2 : (⟨mdesc⟩ : MDesc).f 28 4 = 0x13000 := by decide +kernel
  have a3 : (⟨mdesc⟩ : MDesc).f 32 8 = bellowsSram 4 0x15000 := by decide +kernel
  obtain ⟨p1, h1⟩ := uwrite_sram _ o1 8 8 4 (bellowsAddr 4 ((⟨mdesc⟩ : MDesc).f 20 4 + 4 * t.n0)) (t.toks.flatMap (fun k => leBytes 4 k))
    (by rw [a1, hn]; decide) (by rw [a1, hn]; decide) (by rw [a1, hn, toks_length]; simp only [bellowsAddr, bellowsSram, sramBase]; omega)
  have o2 := writePhys_open p1 (t.toks.flatMap (fun k => leBytes 4 k)) _ o1
  have c : (t.ctx ((⟨mdesc⟩ : MDesc).f 5 1 + 16 * (⟨mdesc⟩ : MDesc).f 6 1)).length = 4352 := by
    simp [Tok.ctx, padTo_length, leBytes_length]
  obtain ⟨p2, h2⟩ := uwrite_sram _ o2 8 8 64 (bellowsAddr 4 ((⟨mdesc⟩ : MDesc).f 28 4)) _ (by rw [a2]; decide) (by rw [a2]; decide) (by rw [a2, c]; decide)
  have o3 := writePhys_open p2 (t.ctx ((⟨mdesc⟩ : MDesc).f 5 1 + 16 * (⟨mdesc⟩ : MDesc).f 6 1)) _ o2
  have d : (t.status ((⟨mdesc⟩ : MDesc).flag 1)).length = 16 := by simp [Tok.status, leBytes_length]
  obtain ⟨p3, h3⟩ := uwrite_sram _ o3 8 8 8 ((⟨mdesc⟩ : MDesc).f 32 8) _ (by rw [a3]; decide) (by rw [a3]; decide) (by rw [a3, d]; decide)
  exact ⟨_, he, tokWrite_ok _ _ _ _ 4 0 ⟨mdesc⟩ t h1 h2 h3⟩
theorem witness_TextAndPacker_mouth : mouth0.runOf 4 0 = some run4 ∧ mouth0.rbit (Blk.mouth.at 4 4 0x008) 0 = true ∧
    good (mouth0.ureadLe 4 0 8 8 64 (run4.list + 64 * run4.idx) 64) = true ∧ mouth0.textReq 4 0x10000 = some 0 ∧ mouth0.textReq 4 0 = none ∧
    (mouth0.setFld (Blk.mouth.at 4 4 0x008) 0 0 0).rbit (Blk.mouth.at 4 4 0x008) 0 = false := by decide +kernel
theorem witness_TextAndPacker_bell : (text0 1 [(0x10000, 32, bdesc), (0x1302C, 4, 4096)]).runOf 4 1 = some run4 ∧
    good ((text0 1 [(0x10000, 32, bdesc), (0x1302C, 4, 4096)]).ureadLe 4 0 8 8 32 (run4.list + 32 * run4.idx) 32) = true ∧
    good (((text0 1 [(0x10000, 32, bdesc), (0x1302C, 4, 4096)]).noted 4 0 (fun t => t.bellRun 4 0 1 0 0 false ⟨bdesc⟩)).1) = true := by decide +kernel
theorem witness_TextAndPacker_keywork : (text0 2 [(0x10000, 32, kdesc 0)]).runOf 4 2 = some run4 ∧ dfld (kdesc 1) 0 1 = 1 ∧ dfld (kdesc 2) 0 1 = 2 ∧
    good ((text0 2 [(0x10000, 32, kdesc 0)]).ureadLe 4 0 8 8 32 (run4.list + 32 * run4.idx) 32) = true ∧
    (match ((text0 2 [(0x10000, 32, kdesc 0)]).noted 4 0 (fun t => t.kRun 4 0 1 ⟨kdesc 0⟩)).1 with | .ok r => !r.2 | .error _ => false) = true := by decide +kernel
/-- A packer descriptor of an op, its input list at 0x11000 of the SRAM of bellows-A, its output at 0x17000 and its status at 0x18000. -/
def packDesc (op : Nat) : Nat :=
  op + 2 ^ 32 * 0x10000 + 2 ^ 64 * bellowsSram 4 0x11000 + 2 ^ 160 * 64 + 2 ^ 320 * 0x17000 + 2 ^ 384 * bellowsSram 4 0x18000
/-- The packer about to serve a descriptor, with no template run and no entry. -/
def pack0 (op : Nat) : State := text0 3 [(0x10000, 64, packDesc op), (0x20010, 4, 1)]
/-- A registered store of no record, of version 1 of vocabulary 0. -/
def store0 : List Byte := zeros 24 ++ leBytes 4 1 ++ zeros 36
theorem witness_TextAndPacker_packer : (pack0 0).runOf 4 3 = some run4 ∧
    (∀ op ∈ [0, 1, 2], (match (pack0 op).nextDesc 4 0x23 0x23 run4 with | .ok v => decide (v = packDesc op) | .error _ => false) = true ∧
      packOk (packDesc op) = true ∧ ((pack0 op).textReq 4 (dfld (packDesc op) 4 4)).isSome = true ∧ dfld (packDesc op) 0 1 = op) ∧
    good (((pack0 0).noted 4 0 (fun t => t.packFetch 4 0 (packDesc 0) ⟨store0⟩ [])).1) = true := by decide +kernel
theorem witness_TextAndPacker_pack : good (((pack0 1).noted 4 0 (fun t => t.packPrompt 4 0 1 (packDesc 1) ⟨store0⟩ 0x20000 [] 64)).1) = true ∧
    good (((pack0 2).noted 4 0 (fun t => t.packPairs 4 0 1 (packDesc 2) ⟨store0⟩ 0x20000 [])).1) = true := by decide +kernel

/-! ### Requests and sessions -/

theorem witness_NowhereCommands : (Instr.serpGather 4).nowhere = true ∧ (Instr.serpGather 3).nowhere = false := by decide
theorem witness_GeneratorChecks : State.reset.writable fife (Blk.sng.at 0 7 0x118) = true ∧ State.reset.writable fife (Blk.sng.at 5 5 0x118) = true ∧
    (State.reset.setFld (Blk.sng.at 0 7 0x00C) 31 31 1).rbit (Blk.sng.at 0 7 0x00C) 31 = true ∧
    State.reset.rbit (Blk.sng.at 0 7 0x00C) 31 = false := by decide +kernel
/-- A work description of 256 bytes with the least values of R620 and R621. -/
def work0 : List Byte := leBytes 4 0x50495045 ++ leBytes 4 1 ++ leBytes 8 0 ++ leBytes 4 8 ++ leBytes 4 0 ++ leBytes 2 0xFFFF ++ leBytes 2 0 ++
  leBytes 2 1 ++ leBytes 2 0 ++ leBytes 2 1 ++ leBytes 2 1 ++ leBytes 2 0 ++ leBytes 2 0 ++ leBytes 2 16 ++ leBytes 2 1 ++ leBytes 4 1 ++ leBytes 2 1 ++
  leBytes 2 0 ++ leBytes 2 0 ++ leBytes 2 0xFFFF ++ zeros 200
/-- A request descriptor of one token and no session, or of a turn of a session. -/
def reqd (kind sid : Nat) : List Byte := leBytes 2 3 ++ leBytes 2 0xFFFF ++ leBytes 1 0 ++ leBytes 1 kind ++ zeros 10 ++ leBytes 4 1 ++ zeros 12 ++
  leBytes 8 sid ++ zeros 24
/-- Model 3 is READY on chanter 0, which is online. -/
def ready0 : State := (host0.setFld (Blk.top.at 4 4 0x204) 0 0 1).setModelSt 3 0 2
theorem witness_RequestSubmission : ready0.hostCheck (hcmd (reqd 0 0)) 64 false = none ∧ (work0).length = 256 ∧ reqDescOk (reqd 0 0) = true ∧
    reqDescOk (reqd 1 (2 ^ 24)) = true ∧ workOk work0 1 = true ∧ (ready0.cntAdd .host 4 4 0x030 64).admits 4 0 = true ∧
    (ready0.cntAdd .host 4 4 0x030 64).modelBad 3 0xFFFF = false ∧ (ready0.cntAdd .host 4 4 0x030 64).turnRefused (2 ^ 24) 0 = some 3 ∧
    (host0.cntAdd .host 4 4 0x030 64).modelBad 3 0xFFFF = true ∧ (ready0.req 32767).state = 0 := by decide +kernel
theorem witness_RequestSubmission_full : (((State.reset.setFld (bank (Blk.part.at 4 4 0x124) 0) 31 0 0).cntAdd .host 4 4 0x030 64).admits 4 0) = false := by
  decide +kernel
/-- Entry 0 holds a request of function 0 in a state. -/
def req0 (st : Nat) : State := host0.setReq 0 { gen := 1, state := st, arrival := 5, byHost := true }
/-- The id of entry 0. -/
def id0 : Nat := 2 ^ 16
theorem witness_RequestCommands : (req0 3).hostCheck (hcmd (leBytes 8 id0)) 8 false = none ∧ (hcmd (leBytes 8 id0)).fld 4 4 = 0 ∧
    (hcmd (leBytes 8 (id0 + 2 ^ 32))).fld 4 4 ≠ 0 ∧ (req0 3).reqNamed 0 = none ∧ (req0 3).reqNamed id0 = some 0 ∧ ((req0 3).req 0).fn = 0 ∧
    ((req0 3).req 0).terminal = false ∧ ((req0 9).req 0).terminal = true ∧ (req0 3).hostCheck (hcmd (leBytes 24 id0)) 24 false = none ∧
    (req0 3).hostCheck (hcmd (leBytes 16 id0)) 16 false = none ∧ ((req0 5).req 0).state = 5 := by decide +kernel
theorem witness_RequestRecords : ((req0 9).req 0).terminal = true ∧ ((req0 9).req 0).recDone = false ∧ (req0 9).isFatal = false ∧
    (req0 9).fnEnabled 0 = true ∧ (req0 9).canWriteHost 0 = true ∧ ((req0 9).req 65535).terminal = false ∧
    State.reset.writable fife (Blk.reqt.at 5 5 0x1FC) = true ∧ State.reset.writable (.host 0) (Blk.reqt.at 4 4 0x180) = true ∧
    SMap.get (fun _ => []) ({ State.reset with reqEvents := [(4, [⟨id0, 1, 9⟩])] } : State).reqEvents 4 = [⟨id0, 1, 9⟩] := by decide +kernel
theorem witness_RequestRecords_shed : SMap.get (fun _ => 0) State.reset.shedClear (64 * 5 + 63) < State.reset.fld (Blk.reqt.at 5 5 0x108) 23 16 ∧
    State.reset.fld (Blk.reqt.at 5 5 0x108) 23 16 ≤ SMap.get (fun _ => 0) ({ State.reset with shedClear := [(64 * 5 + 63, 255)] } : State).shedClear (64 * 5 + 63) := by
  decide +kernel
/-- A comparison whose run 1 is entry 0. -/
def repro0 : Repro := { cmd := hcmd (zeros 32), desc := reqd 0 0, work := { bytes := some work0 }, run1 := id0 }
theorem witness_ReproAndVersionCommands_runs : ready0.hostCheck (hcmd (zeros 32)) 32 true = none ∧ reproOk (hcmd (zeros 32)) = true ∧
    reproOk (hcmd (leBytes 32 (2 ^ 64 * 32))) = false ∧ reproRefuses (reqd 1 1) = true ∧ reproRefuses (reqd 0 0) = false ∧
    (ready0.reproSubmit repro0).1.isSome = true ∧ ({ State.reset with repros := [repro0] } : State).reproOf 0 repro0.cmd.tag = some repro0 ∧
    (req0 9).runEnded id0 = true ∧ (req0 3).runEnded id0 = false := by decide +kernel
theorem witness_ReproAndVersionCommands_run2 : (match (ready0.setReq 0 { gen := 1, state := 9 }).reproSubmit repro0 with
    | (some id, t) => decide (t.reqNamed id = some 1) | (none, _) => false) = true := by decide +kernel
theorem witness_ReproAndVersionCommands_report : repro0.refused = false ∧ repro0.failed = false ∧ ({ repro0 with refused := true } : Repro).refused = true ∧
    ({ repro0 with failed := true } : Repro).failed = true ∧ ({ toks := [(1, 0), (2, 0)] } : RunLog).upTo none ≠ ({ toks := [(1, 0), (3, 0)] } : RunLog).upTo none ∧
    ({ toks := [(1, 0), (2, 0)] } : RunLog).upTo (some 1) = ({ toks := [(1, 0), (3, 0)] } : RunLog).upTo (some 1) ∧
    reproLimit { toks := [(1, 0)], cut := some 1 } { toks := [(1, 0)] } = some 1 ∧ reproLimit {} {} = none ∧
    (({ toks := [(1, 0), (2, 0)] } : RunLog).upTo none).1.take 1 = (({ toks := [(1, 0), (3, 0)] } : RunLog).upTo none).1.take 1 ∧
    (({ toks := [(1, 0), (2, 0)] } : RunLog).upTo none).1[1]? ≠ (({ toks := [(1, 0), (3, 0)] } : RunLog).upTo none).1[1]? := by decide +kernel
/-- A run that has produced one token and bound a version of vocabulary 5 before it. -/
def log0 (v : Nat) : RunLog := { toks := [(1, 0)], binds := [(1, 2, 5, v, 0)] }
theorem test_reproReport_bound : (reproBytes { repro0 with log1 := log0 3, log2 := log0 4 } {}).take 2 = [2, 4] := by decide +kernel
theorem witness_ReproAndVersionCommands_versions : host0.hostCheck (hcmd (leBytes 16 (2 ^ 32 * 1024))) 16 true = none ∧
    (hcmd (leBytes 16 (2 ^ 32 * 1024))).fld 4 4 = 1024 ∧ (host0.publishEach 0 0 1024 0 (host0.verDies 0)).1 = 0 ∧
    (host0.publishEach 0 0 1024 0 (ready0.verDies 0)).1 ≠ 0 := by decide +kernel
/-- A session of function 0 in a state, in slot 0 of bellows-A. -/
def ses0 (x : Sess) : State := host0.setSes 0 { x with gen := 1 }
/-- The id of slot 0. -/
def sid0 : Nat := 2 ^ 24
/-- Slot 2 ^ 23 is the first of bellows-B. -/
theorem witness_SessionCommands_create : host0.hostCheck (hcmd (leBytes 8 5)) 8 false = none ∧ modeOk 5 = true ∧ modeOk 3 = false ∧
    (host0.cntAdd .host 4 4 0x030 8).dirFull 4 = false ∧ (host0.setFld (Blk.sess.at 4 4 0x100) 23 0 (2 ^ 23)).dirFull 4 = true := by decide +kernel
/-- An image object of one header tile. -/
def image0 : Obj := { size := 4096, flags := 0, addr := some 0 }
theorem witness_SessionCommands_entry : (ses0 { state := 3, cold := 7 }).hostCheck (hcmd (leBytes 24 sid0)) 24 false = none ∧
    (ses0 {}).hostCheck (hcmd (leBytes 16 sid0)) 16 false = none ∧ (ses0 {}).hostCheck (hcmd (leBytes 8 sid0)) 8 false = none ∧
    sesDie ((hcmd (leBytes 16 sid0)).fld 0 8 % 2 ^ 24) = 4 ∧ sesDie ((hcmd (leBytes 16 (sid0 + 2 ^ 23))).fld 0 8 % 2 ^ 24) = 5 ∧
    (ses0 { state := 3, cold := 7 }).sesNamed sid0 = some 0 ∧ (ses0 { state := 3 }).sesNamed (2 * sid0) = none ∧
    ((ses0 { state := 3, part := 63 }).ses 0).part ≠ 0 ∧ ((ses0 { state := 3, queue := [0] }).ses 0).busy = true ∧
    ((ses0 { state := 3, cold := 7 }).ses 0).busy = false := by decide +kernel
/-- Drone-A is MOUNTED and key slot 0 holds a key. -/
def keyed (s : State) : State := (s.setFld (Blk.drone.at 6 6 0x00C) 19 16 3).setKeySlot 0 (some { key := 5 })
theorem witness_SessionCommands_export : ((ses0 { state := 3, cold := 7 }).cntAdd .host 4 4 0x030 24).canWrap 0 = false ∧
    ((keyed (ses0 { state := 3, cold := 7 })).cntAdd .host 4 4 0x030 24).canWrap 0 = true ∧
    (((keyed (ses0 { state := 3, cold := 7 })).setObj 7 (some image0)).fullImage { state := 3, cold := 7 }).isSome = true := by decide +kernel
/-- The header of a wrapped image of model 3 and no token, from key slot 0. -/
def header0 : List Byte := leBytes 4 0x53455353 ++ leBytes 2 1 ++ leBytes 1 0 ++ leBytes 1 1 ++ leBytes 8 0 ++ leBytes 4 0 ++ leBytes 4 0 ++ leBytes 2 3 ++
  leBytes 1 0 ++ leBytes 1 13 ++ leBytes 1 1 ++ leBytes 1 1 ++ leBytes 2 32 ++ leBytes 1 1 ++ leBytes 1 1 ++ zeros 2 ++ leBytes 4 0xFFFFFFFF ++ leBytes 12 0 ++
  leBytes 4 (⟨0, 13, 1, 1, 32, 1⟩ : KvShape).pageBytes ++ leBytes 8 0 ++ leBytes 8 4096 ++ leBytes 4 0x1000 ++ leBytes 4 4096 ++ leBytes 4 4096 ++ zeros 44 ++
  leBytes 4 0 ++ leBytes 4 1024 ++ zeros 3960
/-- SESS_IMPORT of `header0`. -/
def import0 : HCmd := hcmd (leBytes 8 0 ++ leBytes 8 4096 ++ zeros 8)
theorem witness_ImportsAndPrefixes_import : (keyed ready0).hostCheck import0 24 false = none ∧ import0.fld 16 1 = 0 ∧ import0.fld 8 8 = header0.length ∧
    imageOk header0 = true ∧ bit (hdr header0 7 1) 0 = true ∧ hdr header0 64 8 = import0.fld 8 8 ∧ hdr header0 132 4 = 1024 ∧ hdr header0 128 4 = 0 ∧
    imageOk (zeros 4096) = false ∧ ((keyed ready0).cntAdd .host 4 4 0x030 24).keySlot 0 ≠ none ∧ ready0.keySlot 0 = none ∧
    (keyed ready0).modelAnyReady (hdr header0 24 2) = true ∧ host0.modelAnyReady 3 = false ∧
    hdr header0 33 1 ≤ (List.range 4).countP (fun ch => ready0.online ch) ∧ (keyed ready0).partSecure 0 = false := by decide +kernel
/-- Whether the tags of an image hold is the uninterpreted cipher's answer: either the clause of an image that fails or that of one
that opens is met. -/
theorem witness_ImportsAndPrefixes_tags : (keyed ready0).openImage header0 = none ∨ ∃ b : List Byte, (keyed ready0).openImage header0 = some b := by
  cases (keyed ready0).openImage header0 with
  | none => exact .inl rfl
  | some b => exact .inr ⟨b, rfl⟩
/-- Prefix 0 of 128 tokens. -/
def pfx0 : Pfx := { model := 3, ids := List.replicate 128 0, obj := 7, part := 0 }
theorem witness_ImportsAndPrefixes_prefix : host0.hostCheck (hcmd (leBytes 16 (2 ^ 32 * 1048576))) 16 true = none ∧
    (hcmd (leBytes 16 (2 ^ 32 * 1048576))).fld 4 4 = 1048576 ∧ host0.pfxOf 0 = none ∧ (host0.setPfx 0 (some pfx0)).pfxOf 0 = some pfx0 ∧
    (host0.setPfx 0 (some pfx0)).hostCheck (hcmd (zeros 8)) 8 true = none ∧ (host0.setPfx 0 (some pfx0)).pfxCount 0 = 0 ∧
    (ses0 { state := 3, pfx := some 0 }).pfxCount 0 ≠ 0 := by decide +kernel
/-- Operations of slot 0. -/
def ops0 (l : List SessOp) (x : Sess) : State := (ses0 x).setOps l
theorem witness_SessionOperations_start : (State.reset.setFld (Blk.sess.at 4 4 0x008) 0 0 0).rbit (Blk.sess.at 4 4 0x008) 0 = false ∧
    (ops0 [⟨0, .revive, false, false, none⟩] {}).rbit (Blk.sess.at 4 4 0x008) 0 = true ∧
    0 < State.reset.fld (Blk.sess.at 4 4 0x108) 24 16 := by decide +kernel
theorem witness_SessionOperations_ends : (ops0 [⟨0, .park, true, false, none⟩] { state := 2 }).sessOps.any (fun o => decide (o.slot = 0) && o.running && decide (o.kind = .park)) = true ∧
    (ops0 [⟨0, .park, true, false, none⟩] { state := 2 }).partSecure 0 = false ∧
    (ops0 [⟨0, .park, true, false, none⟩] { state := 2 }).deltaKeep 0 0 { obj := 7 } = none ∧
    ((ops0 [⟨0, .park, true, false, none⟩] { state := 2 }).buildImage 0 0 { obj := 7 } 0 0).2.quotaOk 32 4096 0 = true ∧
    ((ops0 [⟨0, .park, true, false, none⟩] { state := 2 }).buildImage 0 0 { obj := 7 } 0 0).1.length = 4096 ∧
    ((ops0 [⟨0, .exportTo 0 false false, true, false, some (hcmd (zeros 24))⟩] { state := 4, cold := 7 }).setObj 7 (some image0)).fullImage { cold := 7 } ≠ none ∧
    (keyed (ops0 [] {})).canWrap ((keyed (ops0 [] {})).partKey 0) = true ∧ host0.canWriteHost 0 = true := by decide +kernel
theorem witness_SessionOperations_registers : State.reset.writable fife (Blk.sess.at 5 5 0x008) = true ∧
    (State.reset.setFld (Blk.sess.at 4 4 0x00C) 30 30 1).rbit (Blk.sess.at 4 4 0x00C) 30 = true ∧ sesDie (2 ^ 23 - 1) = 4 ∧ sesDie (2 ^ 23) = 5 ∧
    SMap.wf Sess.blank (ses0 { state := 3, cold := 7 }).sess = true ∧ State.reset.fwds = [] ∧
    ([⟨4, hcmd [], .query⟩] : List Fwd).find? (fun g => decide (g.home = 4)) = some ⟨4, hcmd [], .query⟩ := by decide +kernel

/-! ### Partitions, mailboxes and host functions -/

/-- A step of consort 0 of chanter 0 that is being pre-empted. -/
def stop0 (err : Nat) : Step := { uid := 1, desc := { die := 0, mask := 1 }, breath := 0, stopping := true, preBy := 0, saveErr := err }
/-- Reed 0 in a run of that step. -/
def stopping (err : Nat) (f : Reed → Reed) : State := { running (fun r => f { r with step := 1 }) with steps := [stop0 err] }
theorem witness_PreemptionAndBuckets_stop : State.reset.writable fife (Blk.part.at 7 7 0x140) = true ∧
    (State.reset.setFld (Blk.part.at 0 0 0x144) 31 31 1).rbit (Blk.part.at 0 0 0x144) 31 = true ∧ State.reset.rbit (Blk.part.at 7 7 0x144) 31 = false ∧
    ({ stop0 0 with stopping := false }).active = true ∧ ({ stop0 0 with stopping := false }).desc.mask &&& (0x10001 : Word).toNat % 65536 ≠ 0 ∧
    ((stopping 0 id).reed x0).run = .running ∧ (stopping 0 id).steps.any (fun e => decide (e.uid = ((stopping 0 id).reed x0).step) && e.stopping) = true ∧
    ((stopping 0 id).reed x0).a.writes = [] ∧ ((stopping 0 (fun r => { r with run := .preempted })).reed x0).run ≠ .running := by decide +kernel
theorem witness_PreemptionAndBuckets_save : (stopping 0 (fun r => { r with run := .preempted })).stepIn 0 0 = some (stop0 0) ∧
    (stopping 0 (fun r => { r with run := .preempted })).preStopped (stop0 0) = true ∧ (stopping 0 id).preStopped (stop0 0) = false ∧
    (stopping 2 (fun r => { r with run := .preempted })).preStopped (stop0 2) = true ∧
    (match (stopping 2 (fun r => { r with run := .preempted })).saveJobs (stop0 2) with | .error c => decide (c = 2) | .ok _ => false) = true ∧
    (match ({ stopping 0 id with reeds := [] }).saveJobs (stop0 0) with | .error _ => false | .ok js => decide (js = [])) = true := by decide +kernel
/-- Bucket 0 of partition 63 on chanter 0 enabled, with a level. -/
def bucket (l cfg : Nat) : State := (State.reset.setReg (bktA 0 63 0 0x10C) (BitVec.ofNat 32 l)).setReg (bktA 0 63 0 0x110) (BitVec.ofNat 32 cfg)
theorem witness_PreemptionAndBuckets_grant : 0 < bucketsOf 0 ∧ (bucket 1 1).bktOn 0 63 0 = true ∧ 0 < (bucket 1 1).level 0 63 0 ∧
    (bucket 0 3).level 0 63 0 ≤ 0 ∧ (bucket 0 3).rbit (bktA 0 63 0 0x110) 1 = true ∧ (bucket 0 1).rbit (bktA 0 63 0 0x110) 1 = false := by decide +kernel
/-- A ready mailbox of bellows-A. -/
def mail0 (x : Fn) : State := (State.reset.setFld (Blk.mbx.at 4 4 0x008) 0 0 1).setFn 0 x
theorem witness_Mailboxes_doorbell : State.reset.fnEnabled 0 = true ∧ 8 + (zeros 4).length ≤ 12 ∧ 12 ≤ 12 ∧ 12 + (zeros 4).length = 16 ∧
    ((mail0 {}).fn 0).freeSlots ≠ [] ∧ (mail0 {}).mbxReady 4 = true ∧ ((mail0 {}).fn 0).flr = false ∧ State.reset.mbxReady 4 = false := by decide +kernel
/-- A notice that nothing has taken. -/
def note0 : H2F := { slot := 63, note := { tag := 1 } }
theorem witness_Mailboxes_take : State.reset.sec.pendingReset = false ∧ State.reset.nextFn 4 = none ∧ (mail0 { h2f := [note0] }).nextFn 4 = some 0 ∧
    ((mail0 { h2f := [note0] }).fn 0).h2f.find? (fun g => !g.taken) = some note0 := by decide +kernel
theorem witness_Mailboxes_send : State.reset.writable fife (Blk.mbx.at 5 5 0x12C) = true ∧
    ((mail0 {}).writeAt fife .mbx 4 4 0x12C 0).rbit (Blk.mbx.at 4 4 0x130) 31 = false ∧ ((mail0 {}).writeAt fife .mbx 4 4 0x12C 0).fnEnabled 0 = true ∧
    ((mail0 {}).writeAt fife .mbx 4 4 0x12C 0).f2hRoom 0 = true ∧ (mail0 { f2h := List.replicate 64 {} }).f2hRoom 0 = false ∧
    (((mail0 {}).setReg (Blk.mbx.at 4 4 0x130) 0x803F0000).writeAt fife .mbx 4 4 0x12C 0).rbit (Blk.mbx.at 4 4 0x130) 31 = true ∧
    ((mail0 { h2f := [{ note0 with taken := true }] }).fn 0).h2f.find? (fun h => decide (h.slot = 63) && h.taken) = some { note0 with taken := true } ∧
    ((mail0 { h2f := [note0] }).fn 0).h2f.find? (fun h => decide (h.slot = 63) && h.taken) = none := by decide +kernel
theorem witness_Mailboxes_host : (({ cfg := 0x100, f2h := [{}], busMaster := true } : Fn).cfg.getLsbD 8) = true ∧
    (mail0 { cfg := 0x100, f2h := [{}], busMaster := true }).canWriteHost 0 = true ∧ serialDiff 0 0 < 2 ^ fieldW (0x100 : Word) 4 0 ∧
    2 ^ fieldW (0x100 : Word) 4 0 ≤ serialDiff 1 0 ∧ (({ f2h := [{}] } : Fn).cfg.getLsbD 8) = false ∧
    State.reset.writable fife (Blk.mbx.at 5 5 0x008) = true ∧ State.reset.bootDone = false ∧
    (State.reset.setFld (Blk.sec.at 4 4 0x10C) 31 31 1).bootDone = true := by decide +kernel
/-- A port whose functions have a BAR4 of 4,096 bytes of the SRAM of bellows-A. -/
def bar40 : State := ((State.reset.setFld (Blk.host.at 4 4 0x108) 5 0 12).setReg (bank (Blk.host.at 4 4 0x120) 0) (BitVec.ofNat 32 (bellowsSram 4 0))).setReg
  (bank (Blk.host.at 4 4 0x124) 0) (BitVec.ofNat 32 (bellowsSram 4 0 / 2 ^ 32))
theorem witness_HostFunctions_bar4 : bar40.bar4 0 = (bellowsSram 4 0, 4096) ∧ 4088 + (zeros 8).length ≤ (bar40.bar4 0).2 ∧ (bar40.fn 0).flr = false ∧
    bar40.fnEnabled 0 = true ∧ bar40.bar4Xlat 0 true (bellowsSram 4 0 + 4088) 8 = none ∧
    ((bar40.setFld ((MemRef.bellows 4).own 0) 23 16 0x40).bar4Xlat 0 true (bellowsSram 4 0 + 4088) 8).isSome = true ∧
    ((bar40.setFld ((MemRef.bellows 4).own 0) 23 16 0x40).bar4Xlat 0 false (bellowsSram 4 0 + 4088) 8).isSome = true ∧
    bar40.partialBad ((List.range 8).map (fun i => bellowsSram 4 0 + 4088 + i)) = false := by decide +kernel
theorem witness_HostFunctions_resets : (State.reset.setFn 0 { flr := true }).fnEnabled 0 = true ∧ ((State.reset.setFn 0 { flr := true }).fn 0).flr = true ∧
    State.reset.fnEnabled 1023 = false ∧ State.reset.pfOf 0 = 0 ∧
    ((State.reset.setFn 0 { vfEnable := true, numVfs := 1 }).fn 0).vfEnable = true ∧ (State.reset.setFn 0 { vfEnable := true, numVfs := 1 }).vfsOf 0 ≠ [] := by
  decide +kernel
theorem witness_HostFunctions_link : State.reset.bifurcated 4 = false ∧ (State.reset.setFld (Blk.host.at 5 5 0x104) 0 0 1).bifurcated 5 = true ∧
    State.reset.bar4Xlat 0 false 0 8 = none := by decide +kernel

/-! ### Flash and drones -/

/-- A MOUNTED, enabled pair of drones with an object 5 on drone-A. -/
def flash0 (o : FObj) : State :=
  ([6, 7].foldl (fun (s : State) d => (s.setFld (Blk.drone.at d d 0x00C) 19 16 3).setFld (Blk.drone.at d d 0x008) 0 0 1) State.reset).setFobj 6 5 (some o)
/-- A flash request of an op for object 5: units, offset or size, address. -/
def freq (op place count off addr : Nat) : List Byte :=
  leBytes 1 op ++ leBytes 1 place ++ leBytes 2 0 ++ leBytes 2 count ++ leBytes 2 9 ++ leBytes 8 5 ++ leBytes 8 off ++ leBytes 8 addr
theorem witness_FlashRequests_forms : (⟨freq 0 0 1 0 0⟩ : FReq).bad 0 = false ∧ (⟨freq 0 0 0 0 0⟩ : FReq).bad 0 = true ∧ (⟨freq 1 0 4096 0 0⟩ : FReq).bad 1 = false ∧
    (⟨freq 1 0 4097 0 0⟩ : FReq).bad 1 = true ∧ (⟨freq 2 1 0 1 0⟩ : FReq).bad 2 = false ∧ (⟨freq 2 3 0 1 0⟩ : FReq).bad 2 = true ∧
    (⟨freq 3 0 0 0 0⟩ : FReq).bad 3 = false ∧ (⟨freq 4 0 0 0 0⟩ : FReq).bad 4 = false ∧ (⟨freq 4 0 0 1 0⟩ : FReq).bad 4 = true ∧
    (⟨freq 0 0 1 0 0⟩ : FReq).obj = 5 ∧ State.reset.flashCode 5 = none ∧ (flash0 { drones := 1 }).flashCode 5 = some 1 := by decide +kernel
theorem witness_FlashRequests_shares :
    (flash0 { drones := 1 }).commitShare 5 6 = 0 ∧ (flash0 { drones := 1, committed := true }).commitShare 5 6 ≠ 0 ∧
    (flash0 { drones := 1 }).deleteShare 5 6 = 0 ∧ (flash0 { drones := 1 }).fobj 6 5 ≠ none ∧
    (((flash0 { drones := 1 }).setFobj 6 5 none).setUnits 6 0x128 8).createShare ⟨freq 2 1 0 8 0⟩ 6 = 0 ∧
    (⟨freq 0 0 1 0 0⟩ : FReq).unitsAt 1 6 = [0] ∧ (⟨freq 0 0 1 0 0⟩ : FReq).unitsAt 1 7 = [] := by decide +kernel
/-- A unit of object 5 to and from the SRAM of bellows-A. -/
def unit5 (op : Nat) : FReq := ⟨freq op 0 1 0 (bellowsSram 4 0x10000)⟩
theorem flash0_open (o : FObj) (h : openSram (flash0 o)) (w : Bool) :
    ∃ ps : List Nat, (flash0 o).xlat (.bunit 4) (some 0) w (bellowsSram 4 0x10000) 4096 = some ps :=
  xlat_sram (flash0 o) h w (bellowsSram 4 0x10000) 4096 (by decide +kernel) (by decide +kernel)
theorem witness_FlashRequests_read : (unit5 0).bad 0 = false ∧ (flash0 { drones := 1, committed := true, size := 1 }).readShare 4 (unit5 0) 1 6 = 0 := by
  refine ⟨by decide +kernel, ?_⟩
  obtain ⟨ps, hps⟩ := flash0_open { drones := 1, committed := true, size := 1 } ⟨by decide +kernel, by decide +kernel⟩ true
  have hu : (unit5 0).unitsAt 1 6 = [0] := by decide +kernel
  have ha : (unit5 0).unitAddr 0 = bellowsSram 4 0x10000 := by decide +kernel
  have hp : (unit5 0).part = 0 := by decide +kernel
  have hg : (flash0 { drones := 1, committed := true, size := 1 }).droneGate 6 0 = 0 := by decide +kernel
  have ho : (flash0 { drones := 1, committed := true, size := 1 }).fobj 6 (unit5 0).obj = some { drones := 1, committed := true, size := 1 } := by decide +kernel
  have hb : (flash0 { drones := 1, committed := true, size := 1 }).unitBad 1 (unit5 0).obj 0 = false := by decide +kernel
  have hs : ¬ 1 < (unit5 0).off + (unit5 0).count := by decide +kernel
  simp [State.readShare, hg, ho, hu, ha, hp, hps, hb, hs]
theorem witness_FlashRequests_write : (unit5 1).bad 1 = false ∧ (flash0 { drones := 1, size := 1 }).writeShare 4 (unit5 1) 1 6 = 0 := by
  refine ⟨by decide +kernel, ?_⟩
  have hop : openSram (flash0 { drones := 1, size := 1 }) := ⟨by decide +kernel, by decide +kernel⟩
  obtain ⟨ps, hps⟩ := flash0_open { drones := 1, size := 1 } hop false
  have hu : (unit5 1).unitsAt 1 6 = [0] := by decide +kernel
  have ha : (unit5 1).unitAddr 0 = bellowsSram 4 0x10000 := by decide +kernel
  have hp : (unit5 1).part = 0 := by decide +kernel
  have hg : (flash0 { drones := 1, size := 1 }).droneGate 6 1 = 0 := by decide +kernel
  have ho : (flash0 { drones := 1, size := 1 }).fobj 6 (unit5 1).obj = some { drones := 1, size := 1 } := by decide +kernel
  have hs : ¬ 1 < (unit5 1).off + (unit5 1).count := by decide +kernel
  have hn : (flash0 { drones := 1, size := 1 }).anyBad ps = false := by simp [State.anyBad, noBad _ hop]
  simp [State.writeShare, hg, ho, hu, ha, hp, hps, hs, State.readDev, State.awaited, hop.1.2, hn, SMap.get, SMap.find?]
/-- A drone with one accepted target and one LUN in each. -/
def nand0 (x : Drone) : State := flash0 { drones := 1, units := [(0, some { psa := some 0 })] } |>.modDrone 6 (fun y =>
  { x with objs := y.objs, luns := 1, planes := 4, slots := 4, pages := 8, perPlane := 16, targets := [(0, { present := true })] })
theorem witness_DroneHousekeeping_blocks : ((nand0 {}).drone 6).nextBlock 3 = some 0 ∧
    (splitBuf 3 1 ((nand0 { buf := [⟨3, .commit 5⟩] }).drone 6).buf).1 ≠ [] ∧ (((nand0 { blocks := [(0, { st := 4 })] }).drone 6).block 0).st = 4 ∧
    (nand0 {}).fobj 6 5 = some { drones := 1, units := [(0, some { psa := some 0 })] } ∧ 0 < (nand0 {}).fld (Blk.drone.at 6 6 0x108) 15 0 ∧
    ((nand0 { frames := [⟨none, 0, 3, true, 0⟩] }).drone 6).frames.find? (fun f => decide (f.obj = none ∧ f.level = 0 ∧ f.idx = 3)) = some ⟨none, 0, 3, true, 0⟩ ∧
    ((nand0 {}).drone 6).frames.find? (fun f => decide (f.obj = none ∧ f.level = 0 ∧ f.idx = 3)) = none := by decide +kernel
theorem witness_DroneHousekeeping_collects : (nand0 { victim := some (0, 1) }).hkIdle 6 = false ∧ (nand0 {}).hkIdle 6 = true ∧
    ((nand0 {}).drone 6).goodLun 0 = true ∧
    ((nand0 { blocks := [(0, { st := 2 })] }).setFld (Blk.drone.at 6 6 0x100) 15 0 16).fld (Blk.drone.at 6 6 0x100) 15 0 = 16 ∧
    ((nand0 { blocks := [(0, { st := 2 })] }).drone 6).freeOn 0 = 15 ∧
    leastBlock ((((nand0 { blocks := [(0, { st := 2 })] }).drone 6).blocks.filter
      (fun e => decide (e.1 / 65536 = 0) && decide (e.2.st = 2) && decide (e.2.stream ≠ 4))).map
      (fun e => (e.1, ((((nand0 { blocks := [(0, { st := 2 })] }).drone 6).validIn e.1).length, e.2.ec, psaOf 6 e.1 0 0 0)))) = some 0 ∧
    (nand0 {}).fld (Blk.drone.at 6 6 0x104) 15 0 <
      ((nand0 { blocks := [(0, { st := 2 }), (1, { st := 2, ec := 9999 })] }).drone 6).ecRange.1 - ((nand0 { blocks := [(0, { st := 2 }), (1, { st := 2, ec := 9999 })] }).drone 6).ecRange.2 ∧
    leastBlock ((((nand0 { blocks := [(0, { st := 2 }), (1, { st := 2, ec := 9999 })] }).drone 6).blocks.filter
      (fun e => decide (e.2.st ≠ 3) && decide (((nand0 { blocks := [(0, { st := 2 }), (1, { st := 2, ec := 9999 })] }).drone 6).validIn e.1 ≠ []))).map
      (fun e => (e.1, (e.2.ec, psaOf 6 e.1 0 0 0, 0)))) = some 0 := by decide +kernel
theorem witness_DroneHousekeeping_targets : (((nand0 {}).drone 6).target (8 * 0 + 0)).present = true ∧ (((nand0 {}).drone 6).target (8 * 0 + 0)).offline = false ∧
    (((nand0 {}).drone 6).target (8 * 0 + 0)).training = false ∧
    ((((nand0 {}).drone 6).setTarget 191 (fun z => { z with training := true })).target (8 * 23 + 7)).training = true ∧
    0 + (State.reset.setFld (Blk.drone.at 6 6 0x110) 31 16 0).fld (Blk.drone.at 6 6 0x110) 31 16 ≤ (nand0 {}).breath.number := by decide +kernel
theorem witness_DroneStates : State.reset.droneState 6 = 0 ∧ (flash0 {}).droneState 7 = 3 ∧ ((flash0 {}).modDrone 6 (fun x => { x with ckptWanted := true })).drone 6 ≠ (flash0 {}).drone 6 ∧
    State.reset.writable fife (Blk.drone.at 7 7 0x008) = true ∧ (2 : Word).getLsbD 1 = true ∧ (4 : Word).getLsbD 2 = true ∧
    (flash0 {}).rbit (Blk.drone.at 6 6 0x008) 0 = true ∧ ((flash0 {}).setFld (Blk.drone.at 6 6 0x008) 0 0 0).rbit (Blk.drone.at 6 6 0x008) 0 = false ∧
    (State.reset.setFld (Blk.drone.at 7 7 0x00C) 19 16 1).droneState 7 = 1 ∧ (State.reset.drone 7).anchor = .none ∧
    (State.reset.setFld (Blk.drone.at 7 7 0x00C) 19 16 5).droneState 7 = 5 ∧ State.reset.pwr.failReset = false ∧ State.reset.pwr.fail = false := by decide +kernel

/-! ### Faults, clocks, security and power -/

theorem witness_FaultDetection_reeds : (State.reset.ueCount (Blk.reed.at 0 0 0)).1 < (State.reset.ueCount (Blk.reed.at 0 0 0)).2.ueFence ∧
    ((State.reset.setFld (Blk.top.at 4 4 0x304) 3 0 1).ueCount (Blk.reed.at 0 0 0)).2.ueFence ≤ ((State.reset.setFld (Blk.top.at 4 4 0x304) 3 0 1).ueCount (Blk.reed.at 0 0 0)).1 ∧
    State.reset.writable fife (Blk.cons.at 3 7 0x108) = true ∧ (0x80000010 : Word).getLsbD 31 = true ∧ fieldW 0x80000010 4 0 = 16 ∧ fieldW 0x80000011 4 0 = 17 ∧
    (State.reset.reed x0).run ≠ .running := by decide +kernel
theorem witness_FaultDetection_dies : State.reset.breath.number % 2 ^ 20 = 0 ∧ State.reset.fld (Blk.cons.at 3 7 0x100) 25 24 = 0 ∧
    ({ State.reset with breath := { State.reset.breath with number := 1 } } : State).breath.number % 2 ^ 20 ≠ 0 ∧
    State.reset.coresOut.contains (5, 7) = false := by decide +kernel
/-- A row of bank 0 of bellows-A with an uncorrectable word. -/
theorem witness_RepairsAndLinks_rows : 0 < (MemRef.bellows 4).banks * (MemRef.bellows 4).rows ∧ (flipped 3).rowUe (.bellows 4) 0 ≠ [] ∧
    State.reset.rowUe (.bellows 4) 0 = [] ∧ ¬ (State.reset.ceRow ≤ State.reset.rowTracked (.bellows 4) 0) ∧
    ({ State.reset with trackers := [((MemRef.reed x0).own 0, [(0, 15)])] } : State).ceRow ≤ ({ State.reset with trackers := [((MemRef.reed x0).own 0, [(0, 15)])] } : State).rowTracked (.reed x0) 0 ∧
    ({ State.reset with trackers := [((MemRef.reed x0).own 0, [(0, 15)])] } : State).rowUe (.reed x0) 0 = [] ∧
    SMap.get (fun _ => 0) State.reset.spareRows ((MemRef.bellows 4).subBank 0) < 4 ∧ 0 < State.reset.ueFence := by decide +kernel
theorem witness_RepairsAndLinks_links : State.reset.linksDown.contains 10 = false ∧ (State.reset.replay 10).1 < 8 ∧
    8 ≤ (({ State.reset with linkReplay := [(10, 8, 9, 0)] } : State).replay 10).1 ∧ (State.reset.retrainsOf 10).length < 2 ∧ State.reset.faults = [] := by decide +kernel
/-- The state in the breath of the first measurement. -/
def late0 : State := { State.reset with breath := { State.reset.breath with number := 2 ^ 20 } }
theorem witness_ClocksAndThermals : late0.breath.number ≠ 0 ∧ late0.breath.number % 2 ^ 20 = 0 ∧
    (late0.setFld (Blk.emb.at 7 7 0x008) 0 0 1).rbit (Blk.emb.at 7 7 0x008) 0 = true ∧ State.reset.writable fife (Blk.emb.at 7 7 0x008) = true ∧
    State.reset.pwr.lower.contains (8 * 3 + 63 / 8) = false ∧ State.reset.pwr.acked.contains 3 = false ∧
    ({ State.reset with pwr := { State.reset.pwr with acked := [3] } } : State).pwr.acked.contains 3 = true ∧ State.reset.pwr.below < 8 ∧
    8 ≤ ({ State.reset.pwr with below := 8 } : Pwr).below ∧ State.reset.pwr.hubHot = false := by decide +kernel
/-- The state after BOOT_DONE. -/
def done0 : State := State.reset.setFld (Blk.sec.at 4 4 0x10C) 31 31 1
/-- The device in a life-cycle state, with owner key 0 of hash 5. -/
def life (lc : Nat) : State := { State.reset with sec := { State.reset.sec with lc := lc, owner := [5, 0, 0, 0] } }
theorem witness_SecurityCommands_writes : State.reset.writable fife (Blk.sec.at 4 4 0x108) = true ∧ State.reset.writable fife (Blk.sec.at 4 4 0x104) = true ∧
    State.reset.writable fife (Blk.sec.at 4 4 0x118) = true ∧ State.reset.writable fife (Blk.sec.at 4 4 0x11C) = true ∧
    State.reset.writable fife (Blk.sec.at 4 4 0x128) = true ∧ State.reset.writable fife (Blk.sec.at 4 4 0x4FC) = true ∧ State.reset.bootDone = false ∧
    done0.bootDone = true ∧ State.reset.lcAllowed 1 = true ∧ State.reset.lcAllowed 3 = false ∧ (life 1).lcAllowed 2 = true ∧
    State.reset.lifeCycle = 0 ∧ (life 1).lifeCycle = 1 ∧ (life 0x40).lifeCycle = 4 ∧ State.reset.sec.minSvn ≤ State.reset.runningSvn ∧
    State.reset.sec.verifying = false := by decide +kernel
/-- A record of debug level 1 with owner key 0, that is being verified. -/
def record0 : State :=
  ({ life 1 with sec := { (life 1).sec with verifying := true, attempt := true } } : State).setReg (Blk.sec.at 4 4 0x400) 1
theorem witness_SecurityCommands_records : record0.sec.verifying = true ∧ record0.sec.spoiled = false ∧ record0.recordOk true 5 = true ∧ record0.recordOk false 5 = false ∧
    record0.lifeCycle = 1 ∧ record0.recordByte 0 ≠ 3 := by decide +kernel
theorem witness_SecurityCommands_tamper : (State.reset.setReg (Blk.sec.at 4 4 0x124) 0).rbit (Blk.sec.at 4 4 0x124) 3 = false ∧
    (State.reset.setReg (Blk.sec.at 4 4 0x124) 0x08).rbit (Blk.sec.at 4 4 0x124) 3 = true ∧
    (State.reset.setReg (Blk.sec.at 4 4 0x124) 0x08).rbit (Blk.sec.at 4 4 0x124) 4 = false ∧
    (State.reset.setReg (Blk.sec.at 4 4 0x120) 0x08).rbit (Blk.sec.at 4 4 0x120) 3 = true ∧ State.reset.rbit (Blk.sec.at 4 4 0x120) 3 = false ∧ done0.coresOut.contains (4, 7) = false ∧
    done0.sec.monOff = false ∧ (done0.setFld ((MemRef.bellows 4).own 63) 25 24 3).hasSecure 4 = true ∧ State.reset.sec.secure.contains (8 * 4 + 7) = false := by
  decide +kernel
/-- The device in a power state. -/
def power (p : PowerState) (f : Pwr → Pwr) : State := { done0 with pwr := f { done0.pwr with state := p } }
theorem witness_PowerStates : (power .on id).writable fife (Blk.pwr.at 4 4 0x10C) = true ∧ (power .on id).restRefused = 0 ∧ State.reset.restRefused = 1 ∧
    (power .enteringRest id).pwr.state = .enteringRest ∧ (power .enteringOff id).pwr.wakePend = false ∧ (power .booting (fun x => { x with good := false })).waking = true ∧
    State.reset.waking = false ∧ (power .on (fun x => { x with fail := true })).pwr.good = true ∧ State.reset.dronesHalted = false := by decide +kernel
theorem witness_ResetsAndBoot_resets : State.reset.recov = none ∧ State.reset.waitFaults = [] ∧ State.reset.healthAge = [] ∧
    State.reset.writable fife (Blk.pwr.at 4 4 0x114) = true ∧ fieldW 0xA5C30001 31 16 = 0xA5C3 ∧ fieldW 0xA5C30001 1 0 = 1 ∧ fieldW 0xA5C30002 1 0 = 2 ∧
    ({ State.reset.pwr with good := false } : Pwr).good = false ∧ State.reset.pwr.good = true := by decide +kernel
/-- A header of an image of a stage signed with owner key 0. -/
def boot0 (stage : Nat) : BootImage := { header := leBytes 4 0x42494D47 ++ leBytes 2 1 ++ leBytes 1 stage ++ leBytes 1 0 ++ zeros 504, qHash := 5 }
theorem witness_ResetsAndBoot_images : (life 1).pwr.state = .booting ∧ (life 1).pwr.en = true ∧ (life 1).pwr.good = true ∧ (life 1).pwr.booted = false ∧
    (life 1).pwr.halted = false ∧ ((life 1).verifyCopy (boot0 1) (boot0 2)).1 = 0 ∧ ((life 1).verifyCopy {} {}).1 ≠ 0 := by decide +kernel
theorem witness_ResetsAndBoot_chanters : State.reset.rbit (Blk.top.at 4 4 0x204) (8 + 3) = false ∧ State.reset.pwr.failed.contains 3 = false ∧
    State.reset.pwr.clearing.contains 3 = true ∧ (State.reset.setFld (Blk.top.at 4 4 0x204) 11 11 1).rbit (Blk.top.at 4 4 0x204) (8 + 3) = true ∧
    State.reset.rbit (Blk.hbm.at 3 2 0x100) 31 = false ∧ (State.reset.setFld (Blk.hbm.at 3 2 0x100) 31 31 1).rbit (Blk.hbm.at 3 2 0x100) 31 = true := by decide +kernel

/-! ### Management bus, self-test and registers -/

/-- The device with a dynamic address, switched on. -/
def bus0 (f : Mgmt → Mgmt) : State := { power .on id with mgmt := f { addr := some 8 } }
theorem witness_ManagementBus_address : State.reset.mgmt.addr = none ∧ State.reset.mgmt.left = false ∧ State.reset.mgmt.hjOn = true ∧ (bus0 id).mgmt.addr ≠ none ∧
    64 ≤ 0xFFFF ∧ 63 < 64 := by decide +kernel
theorem witness_ManagementBus_frames : (bus0 id).pwr.state = .on ∧ payFld [0xC3, 0xA5, 2] 0 2 = 0xA5C3 ∧ payFld [0xC3, 0xA5, 2] 2 1 = 2 ∧
    payFld [7, 3, 0, 10] 1 1 < 4 ∧ (bus0 id).bistBusy 7 = false ∧ (bus0 id).bistRefused 7 3 0 10 = true ∧
    ({ bus0 id with bist := [(7, some { scope := 1 })] } : State).bistBusy 7 = true ∧ 5 ≤ (zeros 5).length ∧ crc8 (zeros 5).dropLast = leOf ((zeros 5).drop (5 - 1)) ∧
    crc8 ([9, 0, 0, 0, 0] : List Byte).dropLast ≠ leOf (([9, 0, 0, 0, 0] : List Byte).drop (5 - 1)) := by decide +kernel
theorem witness_ManagementBus_events : (bus0 (fun m => { m with reply := some [1] })).mgmt.reply = some [1] ∧
    [2, 3, 4, 1, 5, 6].find? (fun k => (bus0 (fun m => { m with ibi := [1, 4], ibiOn := true })).mgmt.ibi.contains k) = some 4 ∧
    (bus0 (fun m => { m with ibi := [1, 4], ibiOn := true })).mgmt.ibiOn = true := by decide +kernel
theorem witness_SelfTestAndJtag : State.reset.writable fife (Blk.bist.at 0 0 0x008) = true ∧ State.reset.bistBusy 0 = false ∧
    State.reset.bistRefused 0 (fieldW 0x8000000A 17 16) (fieldW 0x8000000A 10 8) (fieldW 0x8000000A 4 0) = false ∧
    State.reset.bistRefused 0 (fieldW 0x80000009 17 16) (fieldW 0x80000009 10 8) (fieldW 0x80000009 4 0) = true ∧
    SMap.get (fun _ => none) ({ done0 with bist := [(0, some { scope := 2 })] } : State).bist 0 = some { scope := 2 } ∧ done0.bootDone = true := by decide +kernel
/-- REQT_SHED_CFG of bellows-A is an ordinary register. -/
theorem witness_RegisterAccesses_row : Blk.reqt.at 4 4 0x108 < 2 ^ 26 ∧ pageBlk (Blk.reqt.at 4 4 0x108 / 2 ^ 23) (Blk.reqt.at 4 4 0x108 / 4096 % 2048) = some (.reqt, 4) ∧
    Blk.reqt.at 4 4 (Blk.reqt.at 4 4 0x108 % 4096) = Blk.reqt.at 4 4 0x108 ∧ (regRow .reqt 4 0x108).isSome = true ∧
    State.reset.writable fife (Blk.reqt.at 4 4 0x108) = true ∧ State.reset.ownRow fife .reqt 4 4 0x108 0x10000 = none ∧ onlyA .reqt 4 0x108 = false ∧
    State.reset.valueOk .reqt 4 4 0x108 0x10000 = true ∧ State.reset.regKey .reqt 4 4 0x108 = some (Blk.reqt.at 4 4 0x108) ∧
    State.reset.wordFor .reqt 4 0x108 (Blk.reqt.at 4 4 0x108) 0x10000 = 0x10000 ∧ Blk.reqt.at 4 4 0x108 % 4096 ≠ 0x010 := by decide +kernel
theorem witness_RegisterAccesses_common : pageBlk (Blk.reqt.at 4 4 0x018 / 2 ^ 23) (Blk.reqt.at 4 4 0x018 / 4096 % 2048) = some (.reqt, 4) ∧
    Blk.reqt.at 4 4 0x018 % 4096 = 0x018 ∧ 0x030 ∈ cntOffs .reqt 4 ∧ (1 : Word).getLsbD (ovfBit .reqt 0x030) = true ∧
    State.reset.writable fife (Blk.top.at 5 5 0x504) = true ∧ pageBlk 4 2047 = none := by decide +kernel
theorem witness_CanonicalReedSteps : (reedParts (.nop { reed := x0 })).isSome = true ∧
    ({ running id with pending := [Instr.nop { reed := x0 }] } : State).canonical = true := by decide +kernel

/-! ### Further clauses: states that meet the hypotheses that remain -/

theorem witness_ScalarInstructions_redo : ((running id).reed x0).redo = none ∧
    ((running (fun r => { r with redo := some (5, 0) })).reed x0).redo ≠ none ∧
    ready { a := true } i0 (running (fun r => { r with redo := some (5, 0) })) = true := by decide +kernel
/-- Bank 0 of reed 0 drains for the reed itself. -/
def turning (s : State) : State := (s.setHandover (.reed x0) 0 (some (.toOwner 1 true))).setFld ((MemRef.reed x0).own 0) 25 24 1
theorem witness_AccumulatorAndArrayInstructions_wait :
    tloadWait (regs4 0 0 0 0) x0 ((regs4 0 0 0 0).reed x0).tcfg.toNat 0 0 = false ∧
    tloadWait (turning (regs4 0 0 0 0)) x0 ((regs4 0 0 0 0).reed x0).tcfg.toNat 0 0 = true ∧
    tloadBad (turning (regs4 0 0 0 0)) x0 ((regs4 0 0 0 0).reed x0).tcfg.toNat 0 0 = none := by decide +kernel
/-- Reed 0 on a list of engine A whose first descriptor reads one tile, or whose descriptor writes one tile. -/
def listing (e : Engine) : State := online0.setReed x0 { (running id).reed x0 with a := e }
theorem witness_TongueEvents_decoded :
    (let s1 := (listing { onList 0 with done := false }).tongueDecode x0 true 64
     let f := (s1.reed x0).eng true
     f.cur = some (tdesc 0) ∧ f.done = false ∧ f.issuedW ≤ f.wnum ∧ (s1.setReed x0 (s1.reed x0)).slotFree x0 true f = true) ∧
    (let s1 := (listing (onList 2)).tongueDecode x0 true 64
     let f := (s1.reed x0).eng true
     f.cur = some (tdesc 2) ∧ 0 < f.permits ∧ (s1.setReed x0 (s1.reed x0)).ownRange x0 0 4096 = .ok) := by decide +kernel
/-- Model 3 registered with a shortest phrase of `ns` nanoseconds. -/
def model3 (ns : Nat) : State := { State.reset with models := [(3, { Model.blank 3 with phraseNs := ns })] }
theorem witness_BreathRegisters_fit : (model3 0).modelsFit 101 = true ∧ (model3 (2 ^ 40)).modelsFit 101 = false ∧
    (model3 (2 ^ 40)).fld (Blk.brth.at 4 4 0x108) 9 0 < 101 ∧ (model3 0).budgetNow < 2 ^ 40 := by decide +kernel
/-- Bank 0 of reed 0 in a handover to partition 2 while a tile of engine W still moves into it, or none does. -/
def moving (landed : Bool) : State :=
  ((running (fun r => { r with w := { r.w with tiles := [{ tile landed false with slot := 0 }] } })).setHandover (.reed x0) 0
    (some (.toOwner 0x42 false))).setFld ((MemRef.reed x0).own 0) 25 24 1
theorem witness_BankHandover_flight : (moving false).handoverOf (.reed x0) 0 = some (.toOwner 0x42 false) ∧
    (moving false).bankState (.reed x0) 0 = 1 ∧ (moving false).bankInFlight (.reed x0) 0 = true ∧
    (moving true).bankState (.reed x0) 0 = 1 ∧ (moving true).bankInFlight (.reed x0) 0 = false := by decide +kernel
theorem witness_MemoryErrorsAndPorts_pass : State.reset.passDue (.bellows 4) = true ∧
    ({ State.reset with scrubSeen := [((MemRef.bellows 4).at 0, some 0)] } : State).passDue (.bellows 4) = false := by decide +kernel
/-- A replicated object on chanters 0 and 1, whose copies hold the same bytes or not. -/
def twin (b : Byte) : State := { host0 with mem := Memory.setBytes [] (dramPhys 1 0) [b] }
theorem witness_ObjectAndModelCommands_copies :
    (twin 0).copiesEqual { size := 64, flags := 0x302, addr := some 0 } = true ∧
    (twin 1).copiesEqual { size := 64, flags := 0x302, addr := some 0 } = false := by decide +kernel
theorem witness_ObjectAndModelCommands_tiles :
    ((({ State.reset with swaps := [swap0] } : State).cntAdd .part 6 6 0x030 5).bktTake (State.reset.tileDrone 0 0) 0 0 4096).isSome = true ∧
    ((State.reset.setReg (bktA (State.reset.tileDrone 0 0) 0 0 0x110) 1).bktTake (State.reset.tileDrone 0 0) 0 0 4096) = none ∧
    ({ State.reset with swaps := [swap0] } : State).unitBad ((State.reset.flashCode 0).getD 0) 0 0 = false := by decide +kernel
/-- The header of an image of model 3, in clear, of the whole KV state and no token. -/
def headerC : List Byte := header0.set 7 0
/-- Slot 0 with a revive running of an image object of these bytes. -/
def revives (img : List Byte) (f : State → State) : State :=
  (f (ops0 [⟨0, .revive, true, false, none⟩] { state := 2, cold := 7 })).setObj 7 (some { image0 with data := Memory.setBytes [] 0 img })
/-- The answer of a reader is a value, or an error of a code. -/
def codeOf {α : Type} (x : Except Nat α) : Nat := match x with | .ok _ => 0 | .error c => c
theorem witness_SessionOperations_revive : codeOf ((revives headerC id).reviveImage 0 {}) = 0 ∧
    codeOf ((revives header0 id).reviveImage 0 {}) = 6 ∧ codeOf ((revives [] id).reviveImage 0 {}) = 3 ∧ codeOf ((ops0 [] {}).reviveImage 0 {}) = 7 := by decide +kernel
theorem witness_SessionOperations_placed :
    (let s := (revives headerC (fun t => (t.setFld (Blk.top.at 4 4 0x204) 0 0 1).setModelOn 3 2 [0]))
     s.placed 0 3 headerC .none { stretches := [{ chanter := 0, count := 0, table := ownBase }] } = true ∧
     s.placed 0 3 headerC .none { stretches := [{ chanter := 1, count := 0, table := ownBase }] } = false ∧
     s.prefillOf headerC 3 = .none ∧ s.prefillOf headerC 4 = .whole) := by decide +kernel
/-- The instruments of bellows-A in reach of JTAG, at the debug level of a blank device. -/
def jtag0 : State := { State.reset with mgmt := { State.reset.mgmt with ir := 0x10, sibs := 0x11 } }
theorem witness_SelfTestAndJtag_instruments : jtag0.mgmt.ir = 0x10 ∧ jtag0.mgmt.sibs.testBit 0 = true ∧ jtag0.jtagOpen = true ∧
    jtag0.instrument 4 = true ∧ 2 ≤ jtag0.debugLevel ∧ jtag0.lifeCycle ≤ 1 ∧ jtag0.mgmt.sibs.testBit 1 = false ∧
    ({ jtag0 with sec := { jtag0.sec with lc := 4 } } : State).jtagOpen = false ∧
    ({ jtag0 with sec := { jtag0.sec with lc := 4, opened := 1 } } : State).instrument 4 = true ∧
    ({ jtag0 with sec := { jtag0.sec with lc := 4, opened := 1 } } : State).debugLevel < 2 ∧
    sramDie (bellowsSram 4 0) = 4 ∧ good ((jtag0.setFld ((MemRef.bellows 4).own 0) 23 16 0).readDev .jtag none (bellowsSram 4 0) 8) = true := by decide +kernel
theorem witness_SecurityCommands_gib : State.reset.ilvGib = 0 ∧ (State.reset.setFld (Blk.top.at 4 4 0x200) 7 0 2).ilvGib ≠ 0 ∧
    (1 : Word).getLsbD 0 = true := by decide +kernel
/-- BRTH_REC_READ of bellows-A. -/
theorem witness_RegisterAccesses_records : pageBlk (Blk.brth.at 4 4 0x140 / 2 ^ 23) (Blk.brth.at 4 4 0x140 / 4096 % 2048) = some (.brth, 4) ∧
    (regRow .brth 4 0x140).isSome = true ∧ State.reset.writable fife (Blk.brth.at 4 4 0x140) = true ∧
    State.reset.ownRow fife .brth 4 4 0x140 1 = none ∧ onlyA .brth 4 0x140 = false ∧ State.reset.valueOk .brth 4 4 0x140 1 = true ∧
    State.reset.regKey .brth 4 4 0x140 = some (Blk.brth.at 4 4 0x140) ∧ State.reset.wordFor .brth 4 0x140 (Blk.brth.at 4 4 0x140) 1 = 1 ∧
    Blk.brth.at 4 4 0x140 < 2 ^ 26 ∧ Blk.reqt.at 4 4 0x108 % 4096 ≠ 0x140 := by decide +kernel

/-! ### Commands: one step with results from the rules and the worked examples of the spec -/

/-- R123: scalar arithmetic is modulo 2^64; sext of an immediate; shifts use the low 6 bits; comparisons signed and unsigned. -/
theorem test_scalar : (reedAfter (.add { i4 with c := 0 }) (regs4 (2 ^ 64 - 1) 2 0 0)).sget 4 = 1 ∧
    (reedAfter (.addi { reed := x0, d := 1, a := 1, imm := -2 }) (regs4 1 0 0 0)).sget 1 = 0xFFFFFFFFFFFFFFFF ∧
    (reedAfter (.sra { i4 with c := 0 }) (regs4 (2 ^ 63) 127 0 0)).sget 4 = 0xFFFFFFFFFFFFFFFF ∧
    (reedAfter (.shr { i4 with c := 0 }) (regs4 (2 ^ 63) 65 0 0)).sget 4 = 0x4000000000000000 ∧
    (reedAfter (.slt { i4 with c := 0 }) (regs4 (2 ^ 64 - 1) 0 0 0)).sget 4 = 1 ∧ (reedAfter (.sltu { i4 with c := 0 }) (regs4 (2 ^ 64 - 1) 0 0 0)).sget 4 = 0 ∧
    (reedAfter (.lui { reed := x0, d := 1, imm := -1 }) (regs4 0 0 0 0)).sget 1 = 0xFFFFFFFFFF000000 := by decide +kernel
/-- R116: s0 reads 0 and ignores writes. -/
theorem test_s0 : (reedAfter (.add { reed := x0, d := 0, a := 1, b := 2 }) (regs4 1 2 0 0)).sget 0 = 0 := by decide +kernel
/-- R123: a taken branch adds imm × 8, and JAL links pc + 8. -/
theorem test_branch : (reedAfter (.beq { reed := x0, a := 1, b := 2, imm := 3 }) (regs4 7 7 0 0)).pc = 24 ∧
    (reedAfter (.beq { reed := x0, a := 1, b := 2, imm := 3 }) (regs4 7 8 0 0)).pc = 8 ∧ (reedAfter (.jal { reed := x0, d := 1, imm := 2 }) (regs4 0 0 0 0)).sget 1 = 8 ∧
    (reedAfter (.jal { reed := x0, d := 1, imm := 2 }) (regs4 0 0 0 0)).pc = 16 := by decide +kernel
/-- R123: SW stores the low word, LW sign-extends it. -/
theorem test_load_store : (reedAfter (.lw { reed := x0, d := 4, a := 1 }) (match exec (.sw { reed := x0, a := 1, b := 2 }) (regs4 8 0x1_8000_0000 0 0) with
    | .next t => t | _ => State.reset)).sget 4 = 0xFFFFFFFF80000000 := by decide +kernel
/-- The known-answer values of the generator and its worked example. -/
theorem test_generator : rngOut (rngState 0 0 0) = 0xA3BCA2D4 ∧ rngOut (rngState 0 1 0) = 0x68A6676C ∧ rngState 0 0 1 = 0xD1342543DE82EF96 ∧
    rngState 12345 7 (2 ^ 64 - 1) = 12345 := by decide +kernel
/-- The worked examples of the number formats: 12,582,912 is exact in FP32, and 1 + 2^-11 + 2^-13 rounds to FP16 0x3C01, or to the one its
random bits select, up from 0x60000000. -/
theorem test_formats : vcvt 0 0 false none 12582912 = 0x4B400000 ∧ narrow 5 false none 0x3F801400 = 0x3C01 ∧
    narrow 5 false (some 0x5FFFFFFF) 0x3F801400 = 0x3C00 ∧ narrow 5 false (some 0x60000000) 0x3F801400 = 0x3C01 := by decide +kernel
/-- The worked example of the code: one flipped bit is corrected, two are uncorrectable, and three look like an error of check bit 0. -/
theorem test_code : syndrome (2 ^ 56) = 0x1F ∧ syndrome 3 = 0x0C ∧ eccClass (syndrome 3) = .uncorrectable ∧ syndrome 7 = 0x01 := by decide +kernel
/-- The worked example of the register map. -/
theorem test_addresses : Blk.reed.at 2 (17 * 5 + 16) 0x100 = 0x01165100 ∧ Blk.top.at 4 4 0x204 = 0x02000204 ∧ Blk.panp.at 1 1 0x010 = 0x00811010 := by decide +kernel
/-- The worked example of a session: generation 5, home bellows-B, slot 0x12A41. -/
theorem test_session_id : sesId (2 ^ 23 + 0x12A41) { gen := 5 } = 0x05812A41 ∧ sesDie (2 ^ 23 + 0x12A41) = 5 := by decide
/-- R537: an image of no history and no page is its header of 4,096 bytes. -/
theorem test_image : (State.reset.buildImage 0 1 { obj := 1, hist := [], shape := {} } 0 0).1.length = 4096 := by decide +kernel


/-- R856: the fuse instrument sets bits of an owner key hash in BLANK, and no instrument answers where the segment is not inserted. -/
theorem test_ijtag : after (.ijtagAccess (.ownerWrite 0 6)) ({ jtag0 with sec := { jtag0.sec with owner := [3, 0, 0, 0] } } : State)
      (fun t => t.sec.owner) = some [7, 0, 0, 0] ∧
    after (.ijtagAccess (.ownerWrite 0 6)) ({ jtag0 with mgmt := { jtag0.mgmt with sibs := 1 } } : State) (fun t => t.sec.owner) = some State.reset.sec.owner := by
  decide +kernel
/-- R719: the take of a slot that holds an uncorrectable word gives no notice, and the slot is free. -/
theorem test_take_bad : after (.mbxTake 4 true) (mail0 { h2f := [note0] }) (fun t => (t.readData, (t.fn 0).h2f.length)) = some (0, 0) := by decide +kernel
/-- R114: a fetch within the program raises nothing; one at its end raises instruction fetch. -/
theorem test_fetch : after (.fetchPastEnd x0) (running (fun r => { r with pc := 24 })) (fun t => (t.reed x0).run) = some .running ∧
    after (.fetchPastEnd x0) (running (fun r => { r with pc := 32 })) (fun t => t.fld (Blk.reed.at 0 0 0x01C) 23 16) = some 5 := by decide +kernel
/-- R225: granule 1 of chanter 1 is the first granule of stack 4. -/
theorem test_stacks : dramPhys 1 0x1000 = 4 * stackBytes ∧ dramPhys 1 0x3004 = 3 * stackBytes + 0x1004 := by decide +kernel
/-- R201: a refused handover leaves the owner that the register names. -/
theorem test_handover_refused : after (.bankHandoverGo fife (.bellows 4) 63 0x4001)
    ({ State.reset with withdrawnBanks := [(MemRef.bellows 4).own 63] } : State)
    (fun t => (t.fld ((MemRef.bellows 4).own 63) 15 8, t.fld ((MemRef.bellows 4).own 63) 30 30)) =
      some (State.reset.fld ((MemRef.bellows 4).own 63) 15 8, 1) := by decide +kernel
/-- R13, R14: a write of REED_ERR_STATUS that sets a reserved bit keeps the record of it. -/
theorem test_reserved : after (.excValidClear fife x0 0x81000001) (running (fun r => { r with run := .stopped }))
    (fun t => ((t.reed x0).run, t.rbit (Blk.reed.at 0 0 0x01C) 0)) = some (.ended, true) := by decide +kernel
/-- R23: bellows-A reaches chanter 2 through chanter 1, and bellows-B chanter 0 through chanter 3; chanter 3 reaches 1 over 0. -/
theorem test_routes : (routes 4 2).head? = some [4, 1, 2] ∧ (routes 5 0).head? = some [5, 3, 0] ∧ (routes 3 1).head? = some [3, 0, 1] ∧
    (routes 6 3).head? = some [6, 4, 0, 3] := by decide
/-- R63: the clock of a consort follows a raised cap at the next edge alone. -/
theorem test_cap_raise : after .capRaise ({ State.reset with pwr := { State.reset.pwr with below := 8, capNow := 3 } } : State)
    (fun t => (t.consortPoint 0 0).1) = some 3 := by decide +kernel

/-- R460 to R462: the sampling stream of model 3; the largest uniform value is 1 − 2^−24; a draw of 0 takes the first token of a
probability above 0, and the largest draw the last one. -/
theorem test_sampler : sampleStream 3 = 0x0100000000000003 ∧ uniform 0xFFFFFFFF = 0x3F7FFFFF ∧ uniform 0xFF = 0 ∧
    chooseToken [(4, 0), (7, 0x3F000000), (9, 0x3F000000)] 0 = some 7 ∧
    chooseToken [(4, 0), (7, 0x3F000000), (9, 0x3F000000)] 0xFFFFFFFF = some 9 ∧
    sampleToken 0 0 [(2, 0x3F800000), (5, 0x40000000), (6, 0x40000000)] 0 = some 5 ∧ streamOk (rngStream 5 0) = false := by decide +kernel

end Sys2Proof.Tests
end

/-! PROOFS. Commands on a unit that the device does not have (R17, R22, R870, log entry 171). -/
namespace Sys2Proof.Machine

/-- The usual form of a meaning: it serves a unit that is there, and else leaves the state. -/
theorem next_ite_of_absent {there : Bool} {s t : State} (h : (!there) = true) :
    (.next (if there then t else s) : Res) = .next s :=
  congrArg _ (if_neg (by simpa using h))

/-- A second form: the absence of the unit is the first of several reasons to leave the state. -/
theorem next_ite_or_of {absent other : Prop} [Decidable (absent ∨ other)] {s t : State} (h : absent) :
    (.next (if absent ∨ other then s else t) : Res) = .next s :=
  congrArg _ (if_pos (.inl h))

/-- A third form: the absence of the unit is the only reason to leave the state. -/
theorem next_ite_of {absent : Prop} [Decidable absent] {s t : State} (h : absent) :
    (.next (if absent then s else t) : Res) = .next s :=
  congrArg _ (if_pos h)

/-- Settles O36: each meaning tests first that its die, consort, reed, port or link is there, and `nowhere` is the
failure of that test. The commands are grouped by the kind of unit, as in `Instr.nowhere`, and by the form of the test. -/
theorem nowhereCommands : Obligations.NowhereCommands := by
  intro c s h
  cases c with
  -- Serpent, Panpipe and Piccolo: each chanter has its own
  | serpGather | serpPoolSum | serpPoolMean | serpPoolMax | serpUpdateOverwrite | serpUpdateScatterAdd | serpRetirePop
  | serpFlashRowRead | migrationCommit | panpSearch | panpExactSearch | panpInsert | panpDelete | panpCompare | panpMerge
  | panpRecordTileRead | panpRetirePop | piccTopk | piccThreshold | piccMerge | piccSort => exact next_ite_of_absent h
  -- text units, packer, tables, mailbox and flash requests: each bellows has its own
  | mouthTokenise | bellDetokenise | packFetch | packPack | packPairs | mbxTake | linkChange | secureWipeDone
  | keywInit | keywAdvanceMask | keywMask | mouthRetirePop | keywRetirePop => exact next_ite_of_absent h
  | reqtEventLo | sessLostLo | flashRead | flashWrite | flashCreate | flashCommit | flashDelete | firmwareRestart =>
    exact next_ite_of (Bool.eq_false_of_not_eq_true' h)
  | sessOpStart | rebuildDone => exact next_ite_or_of (Bool.eq_false_of_not_eq_true' h)
  -- Horns: one in each consort, of 16 positions
  | hornAttendPaged | hornAttendDense | hornMerge | hornAppendOnly | hornBackward => exact next_ite_of_absent h
  | hornPost | hornPreemptStop =>
    refine congrArg _ (if_neg ?_)
    rintro ⟨hk, hpos⟩
    simp [Instr.nowhere, hk, hpos] at h
  -- drones, slots 6 and 7
  | relocateCommit => exact next_ite_of_absent h
  | mapPageRead | nandReadDone => exact next_ite_of (Bool.eq_false_of_not_eq_true' h)
  | nandProgramDone | nandEraseDone | gcStart | wearLevelStart | targetTimeout | nandCalibration | calibrationDone
  | checkpoint | droneTraining | droneRecovery | flushDone => exact next_ite_or_of (Bool.eq_false_of_not_eq_true' h)
  -- what each of the eight dies has
  | brthNumberLo | brthSkewMax | dieQuiesce | thermalThrottle | thermalTrip | protectionParityError =>
    exact next_ite_of (of_decide_eq_true h)
  | markerMiss | embMeasure | monitorAlarm => exact next_ite_or_of (of_decide_eq_true h)
  -- stacks and supplies of a chanter
  | dramClearDone | stackTrainingDone | avsAck | avsTimeout | dramRefresh => exact next_ite_or_of (of_decide_eq_true h)
  -- reeds, tamper inputs, ports and Windway links
  | reedFence | tamperEvent => exact next_ite_of (of_decide_eq_true h)
  | portReset => exact congrArg _ (if_neg (Nat.not_lt.mpr (of_decide_eq_true h)))
  | flitReplay | linkRetrain => exact next_ite_or_of (of_decide_eq_true h)
  | _ => exact absurd h Bool.false_ne_true

end Sys2Proof.Machine

/-! PROOFS. The breath (R34 to R67) and the resets and the boot (R769, R815 to R830). -/
namespace Sys2Proof.Machine
open Sys2Proof.Laws

/-! ### Updates of registers alone -/

/-- `t` differs from `s` in its registers alone. -/
def RegsOnly (s t : State) : Prop := { t with regs := s.regs } = s

namespace RegsOnly
variable {s t u : State}

theorem refl (s : State) : RegsOnly s s := rfl

theorem trans (h1 : RegsOnly s t) (h2 : RegsOnly t u) : RegsOnly s u := by
  unfold RegsOnly at h1 h2
  exact (congrArg (fun x : State => { x with regs := s.regs }) h2).trans h1

theorem setReg (h : RegsOnly s t) (a : Nat) (w : Word) : RegsOnly s (t.setReg a w) := h
theorem setFld (h : RegsOnly s t) (a hi lo v : Nat) : RegsOnly s (t.setFld a hi lo v) := h
theorem raise (h : RegsOnly s t) (a n : Nat) : RegsOnly s (t.raise a n) := h

theorem err (h : RegsOnly s t) (who : Requester) (b : Blk) (a : Nat) (k : ErrKind) : RegsOnly s (t.err who b a k) :=
  h.trans (err_frame t who b a k)

theorem writeAt (h : RegsOnly s t) (who : Requester) (b : Blk) (die i off : Nat) (v : Word) :
    RegsOnly s (t.writeAt who b die i off v) := h.trans (writeAt_frame t who b die i off v)

theorem refuseWrite (h : RegsOnly s t) (who : Requester) (b : Blk) (die i off : Nat) (v : Word) :
    RegsOnly s (t.refuseWrite who b die i off v) := by
  unfold State.refuseWrite State.noteReserved State.refuseAt
  split
  · exact h.err ..
  · split
    · exact (h.err ..).err ..
    · exact h.err ..

theorem foldl {α : Type} {f : State → α → State} (hf : ∀ (t : State) (a : α), RegsOnly t (f t a)) (l : List α)
    (h : RegsOnly s t) : RegsOnly s (l.foldl f t) := by
  induction l generalizing t with
  | nil => exact h
  | cons a l ih => exact ih (h.trans (hf t a))

end RegsOnly

/-- A fold whose steps keep a field keeps it. -/
theorem foldl_keeps {α β : Type} (g : State → β) (f : State → α → State) (h : ∀ (t : State) (a : α), g (f t a) = g t)
    (l : List α) (s : State) : g (l.foldl f s) = g s := by
  induction l generalizing s with
  | nil => rfl
  | cons a l ih => exact (ih (f s a)).trans (h s a)

/-! ### Which registers an update changes -/

theorem sameRegsBut_refl (as : List Nat) (s : State) : sameRegsBut as s s := fun _ _ => rfl

theorem sameRegsBut_setReg {as : List Nat} {s t : State} (h : sameRegsBut as s t) {a : Nat} (ha : a ∈ as) (w : Word) :
    sameRegsBut as s (t.setReg a w) := fun c hc =>
  (reg_setReg_other t a c w (fun e => hc (e ▸ ha))).trans (h c hc)

theorem sameRegsBut_raise {as : List Nat} {s t : State} (h : sameRegsBut as s t) {a : Nat} (ha : inPage a 0x010 ∈ as)
    (n : Nat) : sameRegsBut as s (t.raise a n) := sameRegsBut_setReg h ha _

theorem sameRegsBut_err {as : List Nat} {s t : State} (h : sameRegsBut as s t) (who : Requester) (b : Blk) {a : Nat}
    (k : ErrKind) (h1 : inPage a 0x01C ∈ as) (h2 : inPage a 0x020 ∈ as) (h3 : inPage a 0x024 ∈ as) :
    sameRegsBut as s (t.err who b a k) := fun c hc =>
  (reg_err_other t who b a k c (fun e => hc (e ▸ h1)) (fun e => hc (e ▸ h2)) (fun e => hc (e ▸ h3))).trans (h c hc)

/-- A refused write changes the error record of its page alone. -/
theorem sameRegsBut_refuseWrite {as : List Nat} {s t : State} (h : sameRegsBut as s t) (who : Requester) (b : Blk)
    (die i : Nat) {off : Nat} (v : Word) (ho : off < 4096) (h1 : b.at die i 0x01C ∈ as) (h2 : b.at die i 0x020 ∈ as)
    (h3 : b.at die i 0x024 ∈ as) : sameRegsBut as s (t.refuseWrite who b die i off v) := by
  have hrec : ∀ (u : State) (k : ErrKind), sameRegsBut as s u → sameRegsBut as s (u.err who b (b.at die i off) k) :=
    fun u k hu => sameRegsBut_err hu who b k (by rwa [inPage_at _ _ _ _ _ ho]) (by rwa [inPage_at _ _ _ _ _ ho])
      (by rwa [inPage_at _ _ _ _ _ ho])
  unfold State.refuseWrite State.noteReserved State.refuseAt
  split
  · exact hrec _ _ h
  · split
    · exact hrec _ _ (hrec _ _ h)
    · exact hrec _ _ h

/-! ### Bits that a write sets -/

theorem rbit_eq_getLsbD (s : State) (a n : Nat) : s.rbit a n = (s.reg a).getLsbD n := by
  simp [State.rbit, State.fld, fieldW, bits, BitVec.getLsbD, Nat.testBit_eq_decide_div_mod_eq, Nat.shiftRight_eq_div_pow]

/-- The record of a refused value sets `value_write` of ERR_STATUS (R874). -/
theorem rbit_refuseAt (s : State) (who : Requester) (b : Blk) (die i off : Nat) (hb : b ≠ .reed) (ho : off < 4096) :
    (s.refuseAt who b die i off).rbit (b.at die i 0x01C) 2 = true := by
  have hset : ∀ t : State, (t.setFld (b.at die i 0x01C) 2 2 1).rbit (b.at die i 0x01C) 2 = true :=
    fun t => by rw [rbit_setFld_same _ _ _ (by decide)]; rfl
  have h20 : b.at die i 0x020 ≠ b.at die i 0x01C := by rw [Ne, at_inj]; decide
  have h24 : b.at die i 0x024 ≠ b.at die i 0x01C := by rw [Ne, at_inj]; decide
  unfold State.refuseAt State.err
  simp only [inPage_at _ _ _ _ _ ho, hb, if_false]
  split
  · rw [State.rbit, fld_setReg_other _ _ _ _ _ _ h24, fld_setReg_other _ _ _ _ _ _ h20]
    exact hset s
  · exact hset s

/-- What a bit of a register is after a write, by its access type (R11). -/
theorem getLsbD_writtenWord (s : State) (r : RegRow) (a : Nat) (old v : Word) (n : Nat) (hn : n < 32) :
    (s.writtenWord r a old v).getLsbD n =
      ((old.getLsbD n && !(s.storedBits r a).getLsbD n || v.getLsbD n && (s.storedBits r a).getLsbD n) &&
        !((r.accMask .w1c).getLsbD n && v.getLsbD n)) := by
  simp [State.writtenWord, hn]

/-- A register holds the written word after a write that reaches it, the three registers of the error record apart. -/
theorem reg_writeAt_same (s : State) (who : Requester) (b : Blk) (die i off : Nat) (v : Word) (r : RegRow)
    (hr : regRow b (b.at die i off / 2 ^ 23) (b.at die i off % 4096) = some r) (ho : off < 4096)
    (he : off ∉ [0x01C, 0x020, 0x024]) :
    (s.writeAt who b die i off v).reg (b.at die i off) = s.writtenWord r (b.at die i off) (s.reg (b.at die i off)) v := by
  have keep : ∀ (t : State) (k : ErrKind), (t.err who b (b.at die i off) k).reg (b.at die i off) = t.reg (b.at die i off) := by
    intro t k
    apply reg_err_other <;> rw [inPage_at _ _ _ _ _ ho, Ne, at_inj] <;> rintro rfl <;> simp at he
  unfold State.writeAt State.writeFields
  rw [hr]
  simp only []
  split <;> split <;> simp only [keep, reg_setReg_same]

/-! ### The registers of the breath (R36 to R41, R53, R56) -/

/-- A write of BRTH_PERIOD_NEXT that is let through is refused where its value is out of range or not above the guard. -/
theorem execBrthPeriodNext_refused (s : State) (who : Requester) (v : Word) (hw : s.writable who (Blk.brth.at 4 4 0x104) = true)
    (hp : fieldW v 11 0 < 100 ∨ 4000 < fieldW v 11 0 ∨ fieldW v 11 0 ≤ s.fld (Blk.brth.at 4 4 0x108) 9 0) :
    exec (.brthPeriodNext who 4 v) s = .next ((s.refuseWrite who .brth 4 4 0x104 v).raise (Blk.brth.at 4 4 0) 4) := by
  change execBrthPeriodNext who 4 v s = _
  unfold execBrthPeriodNext
  simp only []
  rw [gate_writable s who _ _ hw, if_neg (by decide), if_pos (by exact hp)]
  rfl

/-- Settles O21: the refusal keeps every field but the registers, and of these it sets the bits of the report and the record. -/
theorem periodOutOfRange : Obligations.PeriodOutOfRange := by
  intro who v s hw hp
  have hr : RegsOnly s ((s.refuseWrite who .brth 4 4 0x104 v).raise (Blk.brth.at 4 4 0) 4) :=
    ((RegsOnly.refl s).refuseWrite ..).raise ..
  have hs : sameRegsBut [Blk.brth.at 4 4 0x010, Blk.brth.at 4 4 0x01C, Blk.brth.at 4 4 0x020, Blk.brth.at 4 4 0x024] s
      ((s.refuseWrite who .brth 4 4 0x104 v).raise (Blk.brth.at 4 4 0) 4) :=
    sameRegsBut_raise (sameRegsBut_refuseWrite (sameRegsBut_refl _ s) who .brth 4 4 v (by decide) (by simp) (by simp) (by simp))
      (by simp) 4
  refine ⟨_, execBrthPeriodNext_refused s who v hw (by omega), ?_, hs _ (by simp [at_inj]), ?_, ?_, hr, hs⟩
  · exact field_of_regs s State.breath _ hr rfl
  · exact inPage_at .brth 4 4 0 0x010 (by decide) ▸ rbit_raise _ (Blk.brth.at 4 4 0) 4 (by decide)
  · exact rbit_raise_keep _ _ _ _ _ (by decide) (rbit_refuseAt _ who .brth 4 4 0x104 (by decide) (by decide))

/-- A write of BRTH_PERIOD_NEXT in range and above the guard is not made where a registered model would not fit; else the
period is pending for the edge after the next one, while the block is not frozen. -/
theorem execBrthPeriodNext_inRange (s : State) (who : Requester) (v : Word) (hw : s.writable who (Blk.brth.at 4 4 0x104) = true)
    (h1 : 100 ≤ fieldW v 11 0) (h2 : fieldW v 11 0 ≤ 4000) (h3 : s.fld (Blk.brth.at 4 4 0x108) 9 0 < fieldW v 11 0) :
    exec (.brthPeriodNext who 4 v) s = .next (
      if s.modelsFit (fieldW v 11 0) = false then s
      else if s.frozen (Blk.brth.at 4 4 0x104) then s.writeAt who .brth 4 4 0x104 v
      else State.setFld { s.writeAt who .brth 4 4 0x104 v with
        breath := { s.breath with pendPeriod := s.breath.pendPeriod.filter (fun q => decide (q.1 ≠ s.breath.number + 2)) ++
          [(s.breath.number + 2, fieldW v 11 0)] } } (Blk.brth.at 4 4 0x104) 31 31 1) := by
  have hr : ¬ (fieldW v 11 0 < 100 ∨ 4000 < fieldW v 11 0 ∨ fieldW v 11 0 ≤ s.fld (brthA 0x108) 9 0) := by
    change ¬ (_ ∨ _ ∨ fieldW v 11 0 ≤ s.fld (Blk.brth.at 4 4 0x108) 9 0); omega
  change execBrthPeriodNext who 4 v s = _
  unfold execBrthPeriodNext
  simp only []
  rw [gate_writable s who _ _ hw, if_neg (by decide), if_neg hr, writeAt_breath]
  rfl

/-- A write of BRTH_GUARD that is let through is stored exactly where the guard is at least 2 and below every period. -/
theorem execBrthGuard_eq (s : State) (who : Requester) (v : Word) (hw : s.writable who (Blk.brth.at 4 4 0x108) = true) :
    exec (.brthGuard who 4 v) s = .next (
      if fieldW v 9 0 < 2 ∨ s.breath.period ≤ fieldW v 9 0 ∨ ∃ q ∈ s.breath.pendPeriod, q.2 ≤ fieldW v 9 0 then
        s.refuseWrite who .brth 4 4 0x108 v
      else s.writeAt who .brth 4 4 0x108 v) := by
  change execBrthGuard who 4 v s = _
  unfold execBrthGuard
  simp only []
  rw [gate_writable s who _ _ hw, if_neg (by decide)]
  simp only [List.any_eq_true, decide_eq_true_eq]

/-- The layout of BRTH_CTRL: `run` and the bit beside it are read-write. -/
theorem regRow_brthCtrl : regRow .brth (Blk.brth.at 4 4 0x008 / 2 ^ 23) (Blk.brth.at 4 4 0x008 % 4096) =
    some (R1 0x008 0 [⟨.rw, 1, 0⟩]) := by decide +kernel

/-- `run` takes bit 0 of a write of BRTH_CTRL, while the block is not frozen. -/
theorem rbit_run_writeAt (s : State) (who : Requester) (v : Word) (hf : s.frozen (Blk.brth.at 4 4 0x008) = false) :
    (s.writeAt who .brth 4 4 0x008 v).rbit (Blk.brth.at 4 4 0x008) 0 = v.getLsbD 0 := by
  have hst : (s.storedBits (R1 0x008 0 [⟨.rw, 1, 0⟩]) (Blk.brth.at 4 4 0x008)).getLsbD 0 = true := by
    unfold State.storedBits State.lockedBits
    rw [hf]
    cases s.bootDone <;> decide
  have hw1 : ((R1 0x008 0 [⟨.rw, 1, 0⟩]).accMask .w1c).getLsbD 0 = false := by decide
  rw [rbit_eq_getLsbD, reg_writeAt_same s who .brth 4 4 0x008 v _ regRow_brthCtrl (by decide) (by decide),
    getLsbD_writtenWord _ _ _ _ _ _ (by decide), hst, hw1]
  simp

/-- RUN_SET after `BOOT_DONE` writes BRTH_CTRL with `run` set. -/
theorem execRunSet_booted (s : State) (who : Requester) (v : Word) (hw : s.writable who (Blk.brth.at 4 4 0x008) = true)
    (hb : s.bootDone = true) : exec (.runSet who 4 v) s = .next (s.writeAt who .brth 4 4 0x008 (v ||| 1)) := by
  change execRunSet who 4 v s = _
  unfold execRunSet State.brthCtrl
  rw [gate_writable s who _ _ hw, if_neg (by decide), if_neg (by simp [hb])]

/-- RUN_SET before `BOOT_DONE`, the generator not running: the other bits are stored, and `run` is refused. -/
theorem execRunSet_early (s : State) (who : Requester) (v : Word) (hw : s.writable who (Blk.brth.at 4 4 0x008) = true)
    (hb : s.bootDone = false) (hr : s.rbit (Blk.brth.at 4 4 0x008) 0 = false) : exec (.runSet who 4 v) s =
      .next ((s.writeAt who .brth 4 4 0x008 ((v ||| 1) &&& 0xFFFFFFFE)).refuseAt who .brth 4 4 0x008) := by
  change execRunSet who 4 v s = _
  unfold execRunSet State.brthCtrl
  rw [gate_writable s who _ _ hw, if_neg (by decide), if_pos ⟨by simp, hr, hb⟩]

/-- RUN_CLEAR writes BRTH_CTRL with `run` clear. -/
theorem execRunClear_eq (s : State) (who : Requester) (v : Word) (hw : s.writable who (Blk.brth.at 4 4 0x008) = true) :
    exec (.runClear who 4 v) s = .next (s.writeAt who .brth 4 4 0x008 (v &&& 0xFFFFFFFE)) := by
  change execRunClear who 4 v s = _
  unfold execRunClear State.brthCtrl
  rw [gate_writable s who _ _ hw, if_neg (by decide), if_neg (by simp)]

/-- A read of BRTH_SKEW_MAX on a die of the device answers the register and clears it. -/
theorem execBrthSkewMax_eq (s : State) (die : Nat) (hd : die < 8) : exec (.brthSkewMax die) s =
    .next { s.setReg (Blk.brth.at die die 0x148) 0 with readData := (s.reg (Blk.brth.at die die 0x148)).toNat } := by
  change execBrthSkewMax die s = _
  exact congrArg Host.Outcome.next (if_neg (Nat.not_le.mpr hd))

/-- Settles O22: each register from the lemma about its command; the frames are those of a register write. -/
theorem breathRegisters : Obligations.BreathRegisters := by
  refine ⟨fun who v s => ⟨fun hw h1 h2 => ⟨fun h3 h4 => ?_, fun h3 h4 h5 => ?_, fun h3 => ?_⟩, fun hw => ⟨?_, fun h => ?_⟩⟩,
    fun who v s hw hf hb => ⟨?_, ?_⟩, fun who v s hw hb hr => execRunSet_early s who v hw hb hr, fun die s hd => ?_⟩
  · rw [execBrthPeriodNext_inRange s who v hw h1 h2 h3, if_pos h4]
  · have hr : RegsOnly s (s.writeAt who .brth 4 4 0x104 v) := (RegsOnly.refl s).writeAt ..
    have he := execBrthPeriodNext_inRange s who v hw h1 h2 h3
    rw [if_neg (by simp [h4]), if_neg (by simp [h5])] at he
    refine ⟨_, he, rfl, rfl, rfl, ?_, ?_, ?_⟩
    · rw [rbit_setFld_same _ _ _ (by decide)]; rfl
    · intro a
      exact congrArg (fun m : Memory => m.byte a) (writeAt_mem s ..)
    · exact congrArg (fun x : State => { x with breath := s.breath }) hr
  · exact execBrthPeriodNext_refused s who v hw (.inr (.inr h3))
  · intro h1 h2 h3
    rw [execBrthGuard_eq s who v hw, if_neg]
    rintro (h | h | ⟨q, hq, h⟩)
    · omega
    · omega
    · have := h3 q hq
      omega
  · rw [execBrthGuard_eq s who v hw, if_pos h]
  · refine ⟨_, execRunSet_booted s who v hw hb, ?_, (RegsOnly.refl s).writeAt ..⟩
    rw [rbit_run_writeAt s who _ hf]
    simp
  · refine ⟨_, execRunClear_eq s who v hw, ?_, (RegsOnly.refl s).writeAt ..⟩
    rw [rbit_run_writeAt s who _ hf]
    simp
  · refine ⟨_, execBrthSkewMax_eq s die hd, rfl, reg_setReg_same s .., ?_, rfl⟩
    exact sameRegsBut_setReg (sameRegsBut_refl _ s) (List.mem_singleton.mpr rfl) 0

/-! ### A plan commit (R48 to R50, R54 to R57) -/

/-- PLAN_COMMIT that is let through, no reset pending: the plan's objects are staged, and the plan is committed where it keeps
the planner's contract. -/
theorem execPlanCommit_eq (s : State) (who : Requester) (v : Word) (plan : PlanCase)
    (hw : s.writable who (Blk.brth.at 4 4 0x124) = true) (hp : s.sec.pendingReset = false) :
    exec (.planCommit who 4 v plan) s = .next (
      let t := plan.staged.foldl (fun u p => u.stageObj p) s
      if t.plannerCommits (fieldW v 15 0) (fieldW v 23 16) plan = false then s
      else (t.writeAt who .brth 4 4 0x124 v).planCommit (fieldW v 15 0) (fieldW v 23 16) plan) := by
  change execPlanCommit who 4 v plan s = _
  unfold execPlanCommit
  rw [gate_writable s who _ _ hw]
  simp [hp]

section
variable (s : State) (lo n : Nat) (plan : PlanCase)

theorem planCommit_tooMany (h : 96 < n) : s.planCommit lo n plan = s.planResult 3 0xFF := if_pos h

theorem planCommit_stale (h : n ≤ 96) (h1 : lo ≠ (s.breath.number + 1) % 2 ^ 16) (h2 : lo ≠ s.breath.number % 2 ^ 16) :
    s.planCommit lo n plan = s.planResult 2 0 := by
  unfold State.planCommit
  simp only []
  rw [if_neg (by omega), if_neg h1, if_neg h2]

theorem planCommit_next (h : n ≤ 96) (h1 : lo = (s.breath.number + 1) % 2 ^ 16)
    (hg : s.firstBad (s.breath.number + 1) n s.goneNow = none) :
    s.planCommit lo n plan =
      ((s.notePlan (s.breath.number + 1) n).planAccept (s.breath.number + 1) n false plan).planResult 0 0 := by
  unfold State.planCommit
  simp only []
  rw [if_neg (by omega), if_pos h1, hg]

theorem planCommit_bad (i : Nat) (h : n ≤ 96) (h1 : lo = (s.breath.number + 1) % 2 ^ 16)
    (hb : s.firstBad (s.breath.number + 1) n s.goneNow = some i) :
    s.planCommit lo n plan = (s.notePlan (s.breath.number + 1) (i + 1)).planResult 3 i := by
  unfold State.planCommit
  simp only []
  rw [if_neg (by omega), if_pos h1, hb]

theorem planCommit_late (h : n ≤ 96) (h1 : lo = s.breath.number % 2 ^ 16)
    (hg : s.firstBad s.breath.number n s.goneNow = none) :
    s.planCommit lo n plan =
      (((s.notePlan s.breath.number n).planAccept (s.breath.number + 2) n true plan).cntAdd .brth 4 4 0x038 1).planResult 1 0 := by
  unfold State.planCommit
  simp only []
  rw [if_neg (by omega), if_neg (by omega), if_pos h1, hg]

end

/-- The check of the reservations raises bits of INT_STATUS alone. -/
theorem rsvShort_regsOnly (s : State) : RegsOnly s s.rsvShort := by
  refine RegsOnly.foldl (fun t c => ?_) _ (RegsOnly.refl s)
  split
  · exact (RegsOnly.refl t).raise ..
  · exact RegsOnly.refl t

/-- An accepted plan takes the place of an earlier plan of its edge, and the rest of the breath's state stands. -/
theorem planAccept_breath (s : State) (b n : Nat) (late : Bool) (plan : PlanCase) : (s.planAccept b n late plan).breath =
    { s.breath with plans := s.breath.plans.filter (fun p => decide (p.breath ≠ b)) ++
      [{ breath := b, count := n, late := late, uses := plan.uses, gone := s.goneNow, moved := s.movedParts plan }] } :=
  field_of_regs _ State.breath _ (rsvShort_regsOnly _) rfl

/-- The word of BRTH_PLAN_STATUS gives the result and the index back. -/
theorem fieldW_planStatus (r i : Nat) (hr : r < 4) (hi : i < 256) :
    fieldW (BitVec.ofNat 32 (i * 2 ^ 16 + r)) 1 0 = r ∧ fieldW (BitVec.ofNat 32 (i * 2 ^ 16 + r)) 23 16 = i := by
  simp only [fieldW, bits, BitVec.toNat_ofNat, Nat.shiftRight_eq_div_pow]
  omega

/-- The report of a plan commit: its fields, its frame, and `late_commit` for a late and for a rejected plan. -/
theorem planResult_report (s : State) (r i : Nat) (hr : r < 4) (hi : i < 256) :
    (s.planResult r i).fld (Blk.brth.at 4 4 0x128) 1 0 = r ∧ (s.planResult r i).fld (Blk.brth.at 4 4 0x128) 23 16 = i ∧
    RegsOnly s (s.planResult r i) ∧ (r = 1 ∨ r = 3 → (s.planResult r i).rbit (Blk.brth.at 4 4 0x010) 1 = true) ∧
    sameRegsBut [Blk.brth.at 4 4 0x128, Blk.brth.at 4 4 0x010] s (s.planResult r i) := by
  obtain ⟨h1, h2⟩ := fieldW_planStatus r i hr hi
  have hs : sameRegsBut [Blk.brth.at 4 4 0x128, Blk.brth.at 4 4 0x010] s
      (s.setReg (brthA 0x128) (BitVec.ofNat 32 (i * 2 ^ 16 + r))) :=
    sameRegsBut_setReg (sameRegsBut_refl _ s) (List.mem_cons_self ..) _
  have hf : ∀ (t : State) (hi lo : Nat), (t.raise (brthA 0) 1).fld (Blk.brth.at 4 4 0x128) hi lo = t.fld (Blk.brth.at 4 4 0x128) hi lo := by
    intro t hi lo
    exact fld_setFld_reg t _ _ _ _ _ _ _ (by decide)
  have hw : ∀ hi lo : Nat, (s.setReg (brthA 0x128) (BitVec.ofNat 32 (i * 2 ^ 16 + r))).fld (Blk.brth.at 4 4 0x128) hi lo =
      fieldW (BitVec.ofNat 32 (i * 2 ^ 16 + r)) hi lo := fun hi lo => fld_setReg_same s _ _ hi lo
  unfold State.planResult
  simp only []
  split
  · next h =>
    refine ⟨?_, ?_, rfl, fun _ => ?_, sameRegsBut_raise hs (by simp [brthA]) 1⟩
    · rw [hf, hw, h1]
    · rw [hf, hw, h2]
    · exact inPage_at .brth 4 4 0 0x010 (by decide) ▸ rbit_raise _ (Blk.brth.at 4 4 0) 1 (by decide)
  · next h => exact ⟨(hw 1 0).trans h1, (hw 23 16).trans h2, rfl, fun h' => absurd h' h, hs⟩

/-- Settles O23: the lemma of each result of a commit, what an accepted plan replaces, and the report of a result. -/
theorem planCommitResults : Obligations.PlanCommitResults := by
  refine ⟨fun who v plan s hw hp => ⟨fun hc => ?_, fun hc => ?_⟩, planAccept_breath, planResult_report⟩
  · rw [execPlanCommit_eq s who v plan hw hp]
    exact congrArg Host.Outcome.next (if_pos hc)
  · have go := execPlanCommit_eq s who v plan hw hp
    simp only [hc, Bool.true_eq_false, if_false] at go
    simp only [go]
    exact ⟨fun h h1 hg => congrArg _ (planCommit_next _ _ _ plan h h1 hg), fun h h1 hg => congrArg _ (planCommit_late _ _ _ plan h h1 hg),
      fun h h1 h2 => congrArg _ (planCommit_stale _ _ _ plan h h1 h2), fun h => congrArg _ (planCommit_tooMany _ _ _ plan h),
      fun i h h1 hb => congrArg _ (planCommit_bad _ _ _ plan i h h1 hb)⟩

/-! ### A breath edge (R36, R38, R43, R61) -/

/-- A step after the first action of an edge: one that still runs is overrun (R61). -/
def Step.overrunMarked (e : Step) : Step :=
  if e.active then { e with overrun := true, overBreaths := min (e.overBreaths + 1) 255 } else e

/-- The first action marks the steps still running, and leaves the others. -/
theorem overrunEdge_steps (s : State) : s.overrunEdge.steps = s.steps.map Step.overrunMarked := by
  unfold State.overrunEdge
  exact foldl_keeps State.steps _ (fun t e => (raise_steps ..).trans (cntAdd_steps ..)) _ _

theorem overrunEdge_breath (s : State) : s.overrunEdge.breath = s.breath := by
  unfold State.overrunEdge
  exact foldl_keeps State.breath _ (fun t e => (raise_breath ..).trans (cntAdd_breath ..)) _ _

/-- The period in µs that takes effect at the next edge (R36). -/
def Breath.nextPeriod (b : Breath) : Nat :=
  match b.pendPeriod.find? (fun p => decide (p.1 = b.number + 1)) with
  | some p => p.2
  | none => b.period

/-- The breath after the second action of an edge. -/
def Breath.next (b : Breath) : Breath :=
  { b with number := b.number + 1, period := b.nextPeriod, pendPeriod := b.pendPeriod.filter (fun p => decide (b.number + 1 < p.1))
           missed := b.missedNow, missedNow := [] }

/-- The second action adds 1 to the breath number and brings a due period into effect; what else it changes are registers. -/
theorem numberEdge_breath (s : State) (skews : List (Nat × Nat)) : (s.numberEdge skews).breath = s.breath.next := by
  have h : RegsOnly { s with breath := s.breath.next } (s.numberEdge skews) := by
    unfold State.numberEdge
    refine RegsOnly.foldl (fun t q => ?_) _ (RegsOnly.foldl (fun t d => ?_) _ ?_)
    · split
      · exact RegsOnly.refl t
      · exact (RegsOnly.refl t).setReg ..
    · exact ((RegsOnly.refl t).setReg ..).raise ..
    · exact (RegsOnly.refl { s with breath := s.breath.next }).setFld ..
  exact field_of_regs _ State.breath _ h rfl

/-- Settles O24: the order is the definition of the edge; the first two actions by their lemmas. -/
theorem edgeActions : Obligations.EdgeActions := by
  intro info s hrun
  have hb : (State.numberEdge ({ s with edgeReplies := [] } : State).overrunEdge info.skews).breath = s.breath.next :=
    (numberEdge_breath _ _).trans (congrArg Breath.next (overrunEdge_breath _))
  refine ⟨congrArg Host.Outcome.next (if_pos hrun), congrArg Breath.number hb, (congrArg Breath.period hb).trans rfl, fun e he ha => ?_,
    fun e he ha => ?_⟩
  · refine ⟨e.overrunMarked, ?_, ?_⟩
    · rw [overrunEdge_steps]
      exact List.mem_map_of_mem he
    · simp [Step.overrunMarked, ha]
  · rw [overrunEdge_steps]
    exact List.mem_map.mpr ⟨e, he, by simp [Step.overrunMarked, ha]⟩

/-! ### The state after power-on reset (R34, R38, R873) -/

/-- Settles O2: every map of the reset state is empty, so a byte, a register and a counter read their default. -/
theorem resetValues : Obligations.ResetValues := by
  refine ⟨rfl, rfl, ?run, rfl, rfl, fun _ => rfl, fun _ => rfl, fun _ => rfl, ?period, rfl, rfl⟩
  case run => decide +kernel
  case period => decide +kernel

/-! ### Sparse maps that are restricted -/

theorem find_keep {α : Type} (p : Nat → Bool) (m : SMap α) (k : Nat) :
    SMap.find? (SMap.keep p m) k = if p k then SMap.find? m k else none := by
  induction m with
  | nil => simp [SMap.keep, SMap.find?]
  | cons e m ih =>
    obtain ⟨j, v⟩ := e
    rw [SMap.keep] at ih ⊢
    rw [List.filter_cons]
    by_cases hj : p j = true <;> by_cases hk : j = k
    · subst hk; simp [hj, SMap.find?]
    · simp [hj, SMap.find?, hk, ih]
    · subst hk; simp [hj, ih]
    · simp [hj, SMap.find?, hk, ih]

/-- A byte of a memory that is restricted: the bytes that are not kept read 0. -/
theorem byte_keep (p : Nat → Bool) (m : Memory) (a : Nat) :
    Memory.byte (SMap.keep p m) a = if p a then m.byte a else 0 := by
  unfold Memory.byte SMap.get
  rw [find_keep]
  split <;> rfl

theorem byte_dropRange_inside (m : Memory) (lo n a : Nat) (h1 : lo ≤ a) (h2 : a < lo + n) :
    Memory.byte (SMap.dropRange m lo n) a = 0 := by
  rw [SMap.dropRange, byte_keep]
  simp [h1, h2]

theorem byte_dropRange_outside (m : Memory) (lo n a : Nat) (h : a < lo ∨ lo + n ≤ a) :
    Memory.byte (SMap.dropRange m lo n) a = m.byte a := by
  rw [SMap.dropRange, byte_keep, if_pos]
  simp
  omega

/-! ### What a power-on reset leaves (R38, R816) -/

/-- A register whose every word a reset takes to its reset value reads that value. -/
theorem get_resetRegs (k : ResetKind) (repairs : Bool) (m : SMap Word) (a : Nat)
    (h : ∀ w : Word, resetWord k repairs a w = regReset a) : SMap.get regReset (resetRegs k repairs m) a = regReset a := by
  suffices hf : SMap.find? (resetRegs k repairs m) a = none by simp [SMap.get, hf]
  induction m with
  | nil => rfl
  | cons e m ih =>
    obtain ⟨j, w⟩ := e
    unfold resetRegs at ih ⊢
    rw [List.map_cons, List.filter_cons]
    split
    · next hne =>
      have hj : j ≠ a := by rintro rfl; simp [h w] at hne
      simpa [SMap.find?, hj] using ih
    · exact ih

/-- A power-on reset takes BRTH_CTRL to its reset value. -/
theorem resetWord_brthCtrl (repairs : Bool) (w : Word) :
    resetWord .powerOn repairs (Blk.brth.at 4 4 0x008) w = regReset (Blk.brth.at 4 4 0x008) := by
  have hp : pageBlk (Blk.brth.at 4 4 0x008 % 2 ^ 26 / 2 ^ 23) (Blk.brth.at 4 4 0x008 % 2 ^ 26 / 2 ^ 12 % 2 ^ 11) =
      some (.brth, 4) := by decide +kernel
  have hr : regRow .brth (Blk.brth.at 4 4 0x008 % 2 ^ 26 / 2 ^ 23) (Blk.brth.at 4 4 0x008 % 2 ^ 26 % 4096) =
      some (R1 0x008 0 [⟨.rw, 1, 0⟩]) := by decide +kernel
  have hk : keptBits .powerOn repairs .brth (Blk.brth.at 4 4 0x008 % 2 ^ 26 % 4096) (R1 0x008 0 [⟨.rw, 1, 0⟩]) = 0#32 := by
    simp [keptBits]
  unfold resetWord
  simp only [hp, hr, hk, BitVec.and_zero, BitVec.or_zero, BitVec.not_zero, BitVec.and_allOnes]

/-- The state in which the resetting of the fields begins: the drones have flushed, the recoveries have ended, and removed
banks are wiped (R208, R819). -/
def State.beforeReset (s : State) (k : ResetKind) : State :=
  (((s.resetFlush k).recoverPoint.recoverPoint.recoverPoint).wipeRemoved 4).wipeRemoved 5

/-- A power-on reset: the fields are reset, the cause and the ageing on record are written, and the session registers. -/
theorem doReset_powerOn (s : State) (n : Nat) : s.doReset .powerOn n =
    ((((s.beforeReset .powerOn).resetAll .powerOn).healthAge.foldl (fun (t : State) (e : Nat × Nat) => t.setReg e.1 (BitVec.ofNat 32 e.2))
      (((s.beforeReset .powerOn).resetAll .powerOn).setReg (pwrA 4 0x118)
        (causeWord .powerOn n (s.reg (pwrA 4 0x118))))).sesCount 4).sesCount 5 := rfl

theorem sesCount_regsOnly {s t : State} (h : RegsOnly s t) (die : Nat) : RegsOnly s (t.sesCount die) :=
  (((h.setReg ..).setReg ..).setFld ..).setFld ..

theorem sameRegsBut_sesCount {as : List Nat} {s t : State} (h : sameRegsBut as s t) {die : Nat} (h1 : sesA die 0x100 ∈ as)
    (h2 : sesA die 0x104 ∈ as) (h3 : sesA die 0x00C ∈ as) : sameRegsBut as s (t.sesCount die) :=
  sameRegsBut_setReg (sameRegsBut_setReg (sameRegsBut_setReg (sameRegsBut_setReg h h1 _) h2 _) h3 _) h3 _

/-- After the fields have been reset, a power-on reset changes registers alone. -/
theorem doReset_powerOn_regsOnly (s : State) (n : Nat) :
    RegsOnly ((s.beforeReset .powerOn).resetAll .powerOn) (s.doReset .powerOn n) := by
  rw [doReset_powerOn]
  refine sesCount_regsOnly (sesCount_regsOnly (RegsOnly.foldl (fun t e => ?_) _ ?_) 4) 5
  · exact (RegsOnly.refl t).setReg ..
  · exact (RegsOnly.refl _).setReg ..

/-- SRAM reads 0 once the fields have been reset at power-on (R215). -/
theorem byte_resetAll_powerOn (s : State) (a : Nat) (ha : sramBase ≤ a) : (s.resetAll .powerOn).mem.byte a = 0 := by
  refine (byte_keep (fun k => decide (k < sramBase)) s.mem a).trans (if_neg ?_)
  simpa using ha

/-- Where the health record holds no ageing, the registers after power-on are the reset ones but for the cause and the
session counts. -/
theorem sameRegsBut_doReset_powerOn (s : State) (n : Nat) (h : (s.beforeReset .powerOn).healthAge = []) :
    sameRegsBut [sesA 4 0x100, sesA 4 0x104, sesA 4 0x00C, sesA 5 0x100, sesA 5 0x104, sesA 5 0x00C]
      (((s.beforeReset .powerOn).resetAll .powerOn).setReg (pwrA 4 0x118) (causeWord .powerOn n (s.reg (pwrA 4 0x118))))
      (s.doReset .powerOn n) := by
  have ha : ((s.beforeReset .powerOn).resetAll .powerOn).healthAge = [] := by
    change (if _ then (s.beforeReset .powerOn).healthAge else []) = []
    rw [h, ite_self]
  rw [doReset_powerOn, ha]
  exact sameRegsBut_sesCount (sameRegsBut_sesCount (sameRegsBut_refl _ _) (by simp) (by simp) (by simp)) (by simp) (by simp) (by simp)

/-- TOP_FAULT_STATE is brought up to date in its register alone. -/
theorem topFault_regsOnly (s : State) : RegsOnly s s.topFault := by
  unfold State.topFault
  simp only []
  split <;> exact (((RegsOnly.refl s).setFld ..).setFld ..).setFld ..

/-- A recovery point with no recovery open and no fault waiting changes registers alone (R911). -/
theorem recoverPoint_regsOnly (s : State) (h1 : s.recov = none) (h2 : s.waitFaults = []) : RegsOnly s s.recoverPoint := by
  have hq : s.recoverQuiesce = s := by unfold State.recoverQuiesce; rw [h1]
  have hw : s.recoverWindows 18 = s := by unfold State.recoverWindows; rw [h1]; exact if_pos h2
  unfold State.recoverPoint
  rw [hq, hw]
  exact topFault_regsOnly s

theorem wipeRemoved_pending (s : State) (die : Nat) : (s.wipeRemoved die).pending = s.pending := by
  refine foldl_keeps State.pending _ (fun t n => ?_) _ s
  rfl

theorem wipeRemoved_healthAge (s : State) (die : Nat) : (s.wipeRemoved die).healthAge = s.healthAge := by
  refine foldl_keeps State.healthAge _ (fun t n => ?_) _ s
  rfl

/-- With no recovery open, the queue of commands and the ageing on record stand until the fields are reset. -/
theorem beforeReset_powerOn (s : State) (h1 : s.recov = none) (h2 : s.waitFaults = []) :
    (s.beforeReset .powerOn).pending = s.pending ∧ (s.beforeReset .powerOn).healthAge = s.healthAge := by
  have idle : ∀ t : State, RegsOnly s t → RegsOnly s t.recoverPoint := fun t ht =>
    ht.trans (recoverPoint_regsOnly t ((field_of_regs s State.recov t ht rfl).trans h1)
      ((field_of_regs s State.waitFaults t ht rfl).trans h2))
  have h : RegsOnly s s.recoverPoint.recoverPoint.recoverPoint := idle _ (idle _ (idle _ (RegsOnly.refl s)))
  constructor
  · exact ((wipeRemoved_pending _ 5).trans (wipeRemoved_pending _ 4)).trans (field_of_regs s State.pending _ h rfl)
  · exact ((wipeRemoved_healthAge _ 5).trans (wipeRemoved_healthAge _ 4)).trans (field_of_regs s State.healthAge _ h rfl)

/-! ### The triggers of a reset (R815, R830) -/

/-- A write of PWR_RESET with its key resets the device where it names a kind. -/
theorem resetWrite_keyed (s : State) (who : Requester) (v : Word) (hk : fieldW v 31 16 = 0xA5C3) :
    (fieldW v 1 0 = 1 → s.resetWrite who 4 v = (s.writeAt who .pwr 4 4 0x114 v).doReset .warm 1) ∧
    (fieldW v 1 0 = 2 → s.resetWrite who 4 v = (s.writeAt who .pwr 4 4 0x114 v).doReset .device 1) := by
  unfold State.resetWrite
  simp only [hk, ne_eq, not_true_eq_false, if_false]
  exact ⟨fun h => by rw [h]; rfl, fun h => by rw [h]; rfl⟩

/-- A write of PWR_RESET without its key, or that names no kind, is refused. -/
theorem resetWrite_refused (s : State) (who : Requester) (v : Word)
    (h : ¬ fieldW v 31 16 = 0xA5C3 ∨ fieldW v 1 0 = 0 ∨ fieldW v 1 0 = 3) :
    s.resetWrite who 4 v = (s.writeAt who .pwr 4 4 0x114 v).refuseAt who .pwr 4 4 0x114 := by
  unfold State.resetWrite
  simp only [ne_eq, not_true_eq_false, if_false]
  split
  · rfl
  · next hk =>
    rcases h with h | h | h
    · exact absurd h hk
    · rw [h]; rfl
    · rw [h]; rfl

/-- Both commands of PWR_RESET are a write of that register. -/
theorem exec_pwrReset (s : State) (who : Requester) (v : Word) (c : Instr) (hc : c ∈ [Instr.pwrResetWarm who 4 v, .pwrResetDevice who 4 v])
    (hw : s.writable who (Blk.pwr.at 4 4 0x114) = true) : exec c s = .next (s.resetWrite who 4 v) := by
  have go : (Host.Outcome.next (s.gate who (pwrA 4 0x114) (fun s => s.resetWrite who 4 v)) : Res) = .next (s.resetWrite who 4 v) :=
    congrArg Host.Outcome.next (gate_writable s who _ _ hw)
  simp only [List.mem_cons, List.not_mem_nil, or_false] at hc
  obtain rfl | rfl := hc
  · exact go
  · exact go

/-- What is not a register holds after a power-on reset what the resetting of the fields gave it. -/
theorem doReset_powerOn_field {α : Type} (g : State → α) (hg : ∀ (t : State) (m : SMap Word), g { t with regs := m } = g t)
    (s : State) (n : Nat) : g (s.doReset .powerOn n) = g ((s.beforeReset .powerOn).resetAll .powerOn) :=
  field_of_regs _ g _ (doReset_powerOn_regsOnly s n) (hg _ _)

/-- No step, no request and no plan is left by a power-on reset, and the device boots (R38, R815). -/
theorem doReset_powerOn_leaves (s : State) (n : Nat) :
    (s.doReset .powerOn n).steps = [] ∧ (s.doReset .powerOn n).reqs = [] ∧ (s.doReset .powerOn n).breath.plans = [] ∧
    (s.doReset .powerOn n).pwr.state = .booting :=
  ⟨doReset_powerOn_field State.steps (fun _ _ => rfl) s n, doReset_powerOn_field State.reqs (fun _ _ => rfl) s n,
    doReset_powerOn_field (fun t => t.breath.plans) (fun _ _ => rfl) s n,
    doReset_powerOn_field (fun t => t.pwr.state) (fun _ _ => rfl) s n⟩

/-- SRAM reads 0 after a power-on reset (R215). -/
theorem doReset_powerOn_sram (s : State) (n a : Nat) (ha : sramBase ≤ a) : (s.doReset .powerOn n).mem.byte a = 0 := by
  rw [doReset_powerOn_field State.mem (fun _ _ => rfl)]
  exact byte_resetAll_powerOn _ a ha

theorem causeWord_powerOn (old : Word) : causeWord .powerOn 0 old = 0 := by
  change BitVec.ofNat 32 (0 * 2 ^ 24 + 0 % 16 * 2 ^ 8 + 0) = 0
  decide

theorem regReset_brthCtrl : regReset (Blk.brth.at 4 4 0x008) = 0 := by decide +kernel

/-- With no recovery open and no ageing on record, a power-on reset leaves its cause, no run bit, and the queue of commands. -/
theorem doReset_powerOn_clean (s : State) (h1 : s.recov = none) (h2 : s.waitFaults = []) (h3 : s.healthAge = []) :
    (s.doReset .powerOn 0).reg (Blk.pwr.at 4 4 0x118) = 0 ∧ (s.doReset .powerOn 0).rbit (Blk.brth.at 4 4 0x008) 0 = false ∧
    (s.doReset .powerOn 0).pending = s.pending := by
  obtain ⟨hp, ha⟩ := beforeReset_powerOn s h1 h2
  have hs := sameRegsBut_doReset_powerOn s 0 (ha.trans h3)
  refine ⟨?cause, ?run, (doReset_powerOn_field State.pending (fun _ _ => rfl) s 0).trans hp⟩
  case cause =>
    rw [hs (Blk.pwr.at 4 4 0x118) (by decide)]
    exact (reg_setReg_same ..).trans (causeWord_powerOn _)
  case run =>
    rw [rbit_eq_getLsbD, hs (Blk.brth.at 4 4 0x008) (by decide), reg_setReg_other _ _ _ _ (by decide)]
    have hr : ((s.beforeReset .powerOn).resetAll .powerOn).reg (Blk.brth.at 4 4 0x008) = regReset (Blk.brth.at 4 4 0x008) :=
      get_resetRegs .powerOn _ _ _ (resetWord_brthCtrl _)
    rw [hr, regReset_brthCtrl]
    rfl

/-! ### Boot (R769, R770, R825) -/

/-- STAGE2_LOAD has no effect where the device does not boot, or has booted or halted. -/
theorem execStage2Load_idle (s : State) (a1 a2 b1 b2 : BootImage)
    (h : ¬ (s.pwr.state = .booting ∧ s.pwr.en = true ∧ s.pwr.good = true ∧ s.pwr.booted = false ∧ s.pwr.halted = false)) :
    exec (.stage2Load a1 a2 b1 b2) s = .next s := by
  change execStage2Load a1 a2 b1 b2 s = _
  refine congrArg Host.Outcome.next (if_pos ?_)
  by_contra hn
  simp only [not_or, ne_eq, not_not, Bool.not_eq_false, Bool.not_eq_true] at hn
  exact h hn

/-- STAGE2_LOAD of a device that boots: copy A where it verifies, else copy B, else the halt. -/
theorem execStage2Load_boots (s : State) (a1 a2 b1 b2 : BootImage)
    (h : s.pwr.state = .booting ∧ s.pwr.en = true ∧ s.pwr.good = true ∧ s.pwr.booted = false ∧ s.pwr.halted = false) :
    exec (.stage2Load a1 a2 b1 b2) s = .next (
      if s.lifeCycle = 4 then s.bootHalt 8
      else if (s.verifyCopy a1 a2).1 = 0 then (s.verifyCopy a1 a2).2.bootCopy 0 0 a2
      else if ((s.verifyCopy a1 a2).2.verifyCopy b1 b2).1 = 0 then
        ((s.verifyCopy a1 a2).2.verifyCopy b1 b2).2.bootCopy 1 (s.verifyCopy a1 a2).1 b2
      else ((s.verifyCopy a1 a2).2.verifyCopy b1 b2).2.bootHalt ((s.verifyCopy a1 a2).2.verifyCopy b1 b2).1) := by
  change execStage2Load a1 a2 b1 b2 s = _
  obtain ⟨h1, h2, h3, h4, h5⟩ := h
  exact congrArg Host.Outcome.next (if_neg (by simp [h1, h2, h3, h4, h5]))

theorem writePhys_pwr (ps : List Nat) (bs : List Byte) (s : State) : (s.writePhys ps bs).pwr = s.pwr := by
  induction ps generalizing bs s with
  | nil => rfl
  | cons p ps ih =>
    cases bs with
    | nil => rfl
    | cons b bs => exact ih bs _

theorem loadBody_pwr (s : State) (x : BootImage) : (s.loadBody x).pwr = s.pwr :=
  (writePhys_pwr _ _ _).trans (writePhys_pwr _ _ _)

theorem loopsLock_pwr (s : State) : s.loopsLock.pwr = s.pwr := by
  refine foldl_keeps State.pwr _ (fun t d => ?_) _ s
  rfl

theorem setKeySlot_pwr (s : State) (n : Nat) (k : Option KeySlot) : (s.setKeySlot n k).pwr = s.pwr := rfl

theorem deriveKey_pwr (s : State) : s.deriveKey.pwr = s.pwr := by
  unfold State.deriveKey
  split
  · rfl
  · exact (foldl_keeps State.pwr _ (fun t i => setReg_pwr t _ _) _ _).trans (setKeySlot_pwr s 0 _)

/-- A copy that is accepted is booted. -/
theorem bootCopy_booted (s : State) (copy fail : Nat) (x : BootImage) : (s.bootCopy copy fail x).pwr.booted = true := by
  unfold State.bootCopy
  rw [deriveKey_pwr, loadBody_pwr, loopsLock_pwr]
  rfl

/-! ### DRAM at boot (R255, R817, R822, R823) -/

/-- The training of all stacks of a chanter: what it writes before the bits of TOP_DRAM_STATUS are the stacks' registers. -/
theorem execStackTrainingDone_good (s : State) (c : Nat) (hc : c < 4) (h1 : s.pwr.state = .booting) (h2 : s.pwr.good = true)
    (h3 : s.rbit (Blk.top.at 4 4 0x204) (8 + c) = false) (h4 : s.pwr.failed.contains c = false) :
    ∃ u : State, RegsOnly s u ∧ exec (.stackTrainingDone c []) s = .next (
      if s.pwr.clearing.contains c then u.setFld (Blk.top.at 4 4 0x204) (8 + c) (8 + c) 1
      else (u.setFld (Blk.top.at 4 4 0x204) (8 + c) (8 + c) 1).setFld (Blk.top.at 4 4 0x204) c c 1) := by
  refine ⟨_, ?frame, congrArg Host.Outcome.next ((if_neg ?_).trans (if_neg ?_))⟩
  case frame => exact (((RegsOnly.refl s).setReg ..).setReg ..).setReg ..
  · rintro (h | h | h | h | h)
    · omega
    · exact h h1
    · simp [h2] at h
    · exact Bool.false_ne_true (h3.symm.trans h)
    · exact Bool.false_ne_true (h4.symm.trans h)
  · exact Bool.false_ne_true

/-- The clearing of a chanter's DRAM (R817). -/
theorem execDramClearDone_ready (s : State) (c : Nat) (hc : c < 4) (h1 : s.rbit (Blk.top.at 4 4 0x204) (8 + c) = true)
    (h2 : s.pwr.clearing.contains c = true) (h3 : s.pwr.failed.contains c = false) :
    exec (.dramClearDone c) s = .next (State.setFld { s with
      mem := SMap.dropRange s.mem (dramPhys c 0) chanterBytes
      flip := SMap.dropRange s.flip (dramPhys c 0 / 8) (chanterBytes / 8)
      pwr := { s.pwr with clearing := s.pwr.clearing.filter (fun d => decide (d ≠ c)) } } (Blk.top.at 4 4 0x204) c c 1) := by
  refine congrArg Host.Outcome.next (if_neg ?_)
  rintro (h | h | h | h)
  · omega
  · exact Bool.false_ne_true (h.symm.trans h1)
  · exact Bool.false_ne_true (h.symm.trans h2)
  · exact Bool.false_ne_true (h3.symm.trans h)

section
variable (s : State) (v : Nat)

@[simp] theorem strapped_straps : (s.strapped v).pwr.straps = v % 16 := rfl
@[simp] theorem strapped_pwrState : (s.strapped v).pwr.state = s.pwr.state := rfl
@[simp] theorem strapped_steps : (s.strapped v).steps = s.steps := rfl
@[simp] theorem strapped_reqs : (s.strapped v).reqs = s.reqs := rfl
@[simp] theorem strapped_plans : (s.strapped v).breath.plans = s.breath.plans := rfl
@[simp] theorem strapped_mem : (s.strapped v).mem = s.mem := rfl
@[simp] theorem strapped_pending : (s.strapped v).pending = s.pending := rfl
@[simp] theorem strapped_reg (a : Nat) : (s.strapped v).reg a = s.reg a := rfl
@[simp] theorem strapped_rbit (a n : Nat) : (s.strapped v).rbit a n = s.rbit a n := rfl

end

/-- POWER_ON is a power-on reset, at which the straps are sampled. -/
theorem execPowerOn_eq (s : State) (straps : Nat) :
    exec (.powerOn straps) s = .next ((s.doReset .powerOn 0).strapped straps) := rfl

/-- RESET_N is a device reset where the core rails are good, and is ignored where they are not. -/
theorem execResetN_eq (s : State) : exec .resetN s = .next (if s.pwr.good = false then s else s.doReset .device 0) := rfl

/-- PG_CORE after a wake resets the device by the state it wakes from. -/
theorem execPgCoreGood_waking (s : State) (straps : Nat) (h : s.waking = true) : exec (.pgCoreGood straps) s =
    .next ((s.doReset (if s.pwr.wakeFrom = .rest then .wakeRest else .wakeOff) 4).strapped straps) :=
  congrArg Host.Outcome.next (if_pos h)

/-- PG_CORE neither after a wake nor in `ON` has no effect. -/
theorem execPgCoreGood_idle (s : State) (straps : Nat) (h : s.waking = false) (h' : s.pwr.state ≠ .on) :
    exec (.pgCoreGood straps) s = .next s :=
  congrArg Host.Outcome.next ((if_neg (by simp [h])).trans (if_neg (fun hc => h' hc.1)))

/-- Settles O56: each clause from the lemma about its command. -/
theorem resetsAndBoot : Obligations.ResetsAndBoot := by
  refine ⟨fun straps s => ?powerOn, fun who v c s hc hw => ?pwrReset,
    fun straps s => ⟨fun h => ?resetN, fun h => ?ignored, execPgCoreGood_waking s straps, execPgCoreGood_idle s straps⟩,
    fun a1 a2 b1 b2 s => ⟨execStage2Load_idle s a1 a2 b1 b2, fun hm hl => ?blank, fun hm hl s1 h1 => ?copyA,
      fun ca cb s1 s2 hm hl h1 hca h2 => ?copyB⟩,
    fun c stack s hc => ⟨fun h1 h2 h3 h4 => ?training, fun h1 h2 h3 => ?clearing, fun hs hb => ?refresh, fun hb => ?noRefresh⟩⟩
  case powerOn =>
    obtain ⟨h1, h2, h3, h4⟩ := doReset_powerOn_leaves s 0
    refine ⟨_, execPowerOn_eq s straps, rfl, strapped_straps .., (strapped_steps ..).trans h1, (strapped_reqs ..).trans h2,
      (strapped_plans ..).trans h3, (strapped_pwrState ..).trans h4, fun a ha => ?_, fun e1 e2 e3 => ?_⟩
    · rw [strapped_mem]
      exact doReset_powerOn_sram s 0 a ha
    · rw [strapped_reg, strapped_rbit, strapped_pending]
      exact doReset_powerOn_clean s e1 e2 e3
  case pwrReset =>
    rw [exec_pwrReset s who v c hc hw]
    exact ⟨fun hk h => congrArg _ ((resetWrite_keyed s who v hk).1 h), fun hk h => congrArg _ ((resetWrite_keyed s who v hk).2 h),
      fun h => congrArg _ (resetWrite_refused s who v h)⟩
  case resetN => rw [execResetN_eq, if_neg (by simp [h])]
  case ignored => rw [execResetN_eq, if_pos h]
  case blank =>
    rw [execStage2Load_boots s a1 a2 b1 b2 hm, if_pos hl]
    exact ⟨_, rfl, rfl, reg_setReg_same ..⟩
  case copyA =>
    rw [execStage2Load_boots s a1 a2 b1 b2 hm, if_neg hl, h1]
    exact ⟨rfl, bootCopy_booted ..⟩
  case copyB =>
    rw [execStage2Load_boots s a1 a2 b1 b2 hm, if_neg hl, h1, if_neg hca, h2]
  case training =>
    obtain ⟨u, hu, he⟩ := execStackTrainingDone_good s c hc h1 h2 h3 h4
    refine ⟨_, he, ?_, fun h => ?_, ?_⟩
    · split
      · exact rbit_setFld_same _ _ _ (by omega) _
      · rw [rbit_setFld_other _ _ _ _ _ (by omega)]
        exact rbit_setFld_same _ _ _ (by omega) _
    · rw [h]
      exact rbit_setFld_same _ _ _ (by omega) _
    · split
      · exact hu.setFld ..
      · exact (hu.setFld ..).setFld ..
  case clearing =>
    refine ⟨_, execDramClearDone_ready s c hc h1 h2 h3, rbit_setFld_same _ _ _ (by omega) _, ?_, fun a ha hb => ?_, fun a ha => ?_⟩
    · simp
    · exact byte_dropRange_inside _ _ _ _ ha hb
    · exact byte_dropRange_outside _ _ _ _ ha
  case refresh => exact congrArg Host.Outcome.next (if_neg (by simp [hb]; omega))
  case noRefresh => exact congrArg Host.Outcome.next (if_pos (.inr (.inr hb)))

end Sys2Proof.Machine

/-! PROOFS. The accumulators and arrays of a reed, its sweep and its reduction, and its tongue engines (R79 to R109, R127 to R140). -/
namespace Sys2Proof.Machine
open Sys2Proof.Laws

/-! ### How a ready instruction ends -/

section
variable {x : RI} {u : Uses} {s t : State} {body : State → Reed → RRes}

theorem runReed_done {q : Reed} (h : ready u x s = true) (hb : body s (s.reed x.reed) = .done t q) :
    runReed x u s body = t.setReed x.reed q.advanced := by
  rw [runReed_ready s x u body h, hb]
  exact finish_done ..

theorem runReed_exc {code detail addr : Nat} (h : ready u x s = true) (hb : body s (s.reed x.reed) = .exc t code detail addr) :
    runReed x u s body = t.reedExc x.reed code detail addr := by
  rw [runReed_ready s x u body h, hb]
  rfl

theorem runReed_hold {q : Reed} {w : Wait} (h : ready u x s = true) (hb : body s (s.reed x.reed) = .hold t q w) :
    runReed x u s body = t.setReed x.reed { q with wait := w } := by
  rw [runReed_ready s x u body h, hb]
  rfl

end

/-! ### Accumulator rows and array configuration (R79, R89, R127, R128, R131, R137) -/

section
variable (x : RI) (s : State)

/-- VAR reads its lanes from four rows, which must lie in the file (R137). -/
theorem execVar_ready (h : ready { d := true, a := true, b := true, m := true } x s = true) :
    let r := s.reed x.reed
    exec (.var x) s = if (r.sget x.b).toNat + 3 ≤ 1023 then .next (s.setReed x.reed
      (r.vwrite x.d (r.mget x.m) (fun e => r.accGet ((r.sget x.a).toNat % 32) ((r.sget x.b).toNat + e / 8) (e % 8))).advanced)
      else .next (s.reedExc x.reed 3 0 0) := by
  intro r
  split
  · next hr => exact congrArg Host.Outcome.next (runReed_done h (if_neg (Nat.not_lt.mpr hr)))
  · next hr => exact congrArg Host.Outcome.next (runReed_exc h (if_pos (Nat.lt_of_not_le hr)))

/-- VAW writes its lanes to four rows, which must lie in the file (R137). -/
theorem execVaw_ready (h : ready { a := true, b := true, c := true, m := true } x s = true) :
    let r := s.reed x.reed
    exec (.vaw x) s = if (r.sget x.b).toNat + 3 ≤ 1023 then .next (s.setReed x.reed
      (r.vaw x.c ((r.sget x.a).toNat % 32) (r.sget x.b).toNat (r.mget x.m) 32).advanced)
      else .next (s.reedExc x.reed 3 0 0) := by
  intro r
  split
  · next hr => exact congrArg Host.Outcome.next (runReed_done h (if_neg (Nat.not_lt.mpr hr)))
  · next hr => exact congrArg Host.Outcome.next (runReed_exc h (if_pos (Nat.lt_of_not_le hr)))

/-- TCFG takes a configuration that passes its checks (R127). -/
theorem execTcfg_ready (h : ready { a := true } x s = true) :
    let r := s.reed x.reed
    exec (.tcfg x) s = if tcfgOk (r.sget x.a).toNat = true then .next (s.setReed x.reed ({ r with tcfg := r.sget x.a } : Reed).advanced)
      else .next (s.reedExc x.reed 2 0 0) := by
  intro r
  split
  · next hr => exact congrArg Host.Outcome.next (runReed_done h (if_pos hr))
  · next hr => exact congrArg Host.Outcome.next (runReed_exc h (if_neg hr))

/-- An entry of a map that is restricted: what is not kept reads as its default. -/
theorem get_keep {α : Type} (d : Nat → α) (p : Nat → Bool) (m : SMap α) (k : Nat) :
    SMap.get d (SMap.keep p m) k = if p k then SMap.get d m k else d k := by
  unfold SMap.get
  rw [find_keep]
  split <;> rfl

/-- The accumulators after TCLR of `n` rows from `row` (R131). -/
def Reed.clearRows (r : Reed) (row n : Nat) : Reed :=
  { r with acc := SMap.keep (fun k => !(decide (row ≤ k % 8192 / 8) && decide (k % 8192 / 8 < row + n))) r.acc }

theorem Reed.clearRows_frame (r : Reed) (row n : Nat) : { r.clearRows row n with acc := r.acc } = r := rfl

theorem Reed.accGet_clearRows (r : Reed) (row n i ρ c : Nat) (hρ : ρ < 1024) (hc : c < 8) :
    (r.clearRows row n).accGet i ρ c = if row ≤ ρ ∧ ρ < row + n then 0 else r.accGet i ρ c := by
  have hk : (8192 * i + 8 * ρ + c) % 8192 / 8 = ρ := by omega
  unfold Reed.accGet Reed.clearRows
  rw [get_keep, hk, ← Bool.decide_and]
  by_cases h : row ≤ ρ ∧ ρ < row + n
  · simp [h]
  · simp only [h, decide_false, Bool.not_false, if_true, if_false]

/-- TCLR of no row or of more than 1,024. -/
theorem execTclr_count (h : ready { a := true, b := true } x s = true)
    (hn : ((s.reed x.reed).sget x.a).toNat = 0 ∨ 1024 < ((s.reed x.reed).sget x.a).toNat) :
    exec (.tclr x) s = .next (s.reedExc x.reed 2 0 0) :=
  congrArg Host.Outcome.next (runReed_exc h (if_pos hn))

/-- TCLR past row 1,023. -/
theorem execTclr_range (h : ready { a := true, b := true } x s = true) (h0 : 0 < ((s.reed x.reed).sget x.a).toNat)
    (h1 : ((s.reed x.reed).sget x.a).toNat ≤ 1024)
    (hr : 1024 < ((s.reed x.reed).sget x.b).toNat + ((s.reed x.reed).sget x.a).toNat) :
    exec (.tclr x) s = .next (s.reedExc x.reed 3 0 0) :=
  congrArg Host.Outcome.next (runReed_exc h ((if_neg (by omega)).trans (if_pos (by omega))))

/-- TCLR of rows that lie in the file (R131). -/
theorem execTclr_clears (h : ready { a := true, b := true } x s = true) (h0 : 0 < ((s.reed x.reed).sget x.a).toNat)
    (hr : ((s.reed x.reed).sget x.b).toNat + ((s.reed x.reed).sget x.a).toNat ≤ 1024) :
    exec (.tclr x) s = .next (s.setReed x.reed
      ((s.reed x.reed).clearRows ((s.reed x.reed).sget x.b).toNat ((s.reed x.reed).sget x.a).toNat).advanced) :=
  congrArg Host.Outcome.next (runReed_done h ((if_neg (by omega)).trans (if_neg (by omega))))

end

/-- TLOAD whose blocks are aligned and readable: it waits for a bank that is being handed over, else it loads them (R128, R200). -/
theorem execTload_readable (x : RI) (s : State) (h : ready { a := true, b := true } x s = true) :
    let r := s.reed x.reed
    let t := r.tcfg.toNat
    let src := (r.sget x.a).toNat
    let stride := (r.sget x.b).toNat
    src % (if blockBytes t = 32 then 32 else 64) = 0 → stride % (if blockBytes t = 32 then 32 else 64) = 0 →
    tloadBad s x.reed t src stride = none →
    exec (.tload x) s = .next (if tloadWait s x.reed t src stride = true then s.setReed x.reed { r with wait := .bank }
      else ((noteArrays s x.reed t src stride (tG t * tL t)).cntAdd .reed x.reed.die (17 * x.reed.k + x.reed.r) 0x040 1).setReed x.reed
        ({ loadArrays s x.reed t src stride (tG t * tL t) r with statSrc := r.sget x.a, statStride := r.sget x.b } : Reed).advanced) := by
  intro r t src stride hs hst hb
  refine congrArg Host.Outcome.next ?_
  rw [runReed_ready s x _ _ h, if_neg (by rintro (h' | h') <;> contradiction), hb]
  dsimp only
  split <;> rfl

/-- Settles O16: each clause from the lemma about its instruction. -/
theorem accumulatorAndArrayInstructions : Obligations.AccumulatorAndArrayInstructions := by
  intro x s
  refine ⟨execVar_ready x s, execVaw_ready x s, execTcfg_ready x s, fun h => ⟨execTclr_count x s h, execTclr_range x s h,
    fun h0 hr => ?clears, fun hs hst hb hw => ?loads, fun hs hst hb hw => ?waits⟩⟩
  case clears =>
    exact ⟨_, execTclr_clears x s h h0 hr, Reed.clearRows_frame .., fun i ρ c hρ hc => Reed.accGet_clearRows _ _ _ i ρ c hρ hc⟩
  case loads => rw [execTload_readable x s h hs hst hb, if_neg (by rw [hw]; decide)]
  case waits => rw [execTload_readable x s h hs hst hb, if_pos hw]

/-! ### The sweep (R89, R129, R153) -/

section
variable (x : ReedRef) (n row0 src stride fuel j : Nat) (s : State) (r : Reed)

/-- Rows that one beat of a sweep takes: two of a stationary-activation sweep of INT4 × INT4 (R129). -/
def rowsPerBeat (t : Nat) : Nat := if t44 t && !tSw t then 2 else 1

/-- The beats of a block of `rows` rows are counted when it commits (R104, log entry 44). -/
def State.countBeats (s : State) (x : ReedRef) (t rows : Nat) : State :=
  s.cntAdd .reed x.die (17 * x.k + x.r) 0x030 (ceilDiv rows (rowsPerBeat t) * cyclesPerBeat t)

theorem sweepLoop_end (h : n ≤ j) : sweepLoop x n row0 src stride fuel j s r = .done s { r with prog := 0 } := by
  cases fuel with
  | zero => rfl
  | succ fuel => exact if_pos h

variable {s1 : State} {r1 : Reed}

/-- A block that commits: the sweep goes on behind it, or stops there under a pre-emption request. -/
theorem sweepLoop_commit (hj : j < n) (hb : sweepBlock x n row0 src stride 8 r.sub (j + r.sub) s r.openBlock = .ok s1 r1) :
    sweepLoop x n row0 src stride (fuel + 1) j s r =
      if min n (j + 8) < n ∧ s.preAsked r = true then
        .hold (s1.countBeats x r.tcfg.toNat (min n (j + 8) - j)) (r1.commitBlock (min n (j + 8))) .none
      else sweepLoop x n row0 src stride fuel (min n (j + 8)) (s1.countBeats x r.tcfg.toNat (min n (j + 8) - j))
        (r1.commitBlock (min n (j + 8))) := by
  rw [sweepLoop, if_neg (Nat.not_le.mpr hj)]
  simp only [hb]
  rfl

/-- The last block commits, and the progress is cleared. -/
theorem sweepLoop_last (hj : j < n) (hn : n ≤ j + 8)
    (hb : sweepBlock x n row0 src stride 8 r.sub (j + r.sub) s r.openBlock = .ok s1 r1) :
    sweepLoop x n row0 src stride (fuel + 1) j s r =
      .done (s1.countBeats x r.tcfg.toNat (n - j)) { r1.commitBlock n with prog := 0 } := by
  rw [sweepLoop_commit x n row0 src stride fuel j s r hj hb, Nat.min_eq_left hn, if_neg (fun h => Nat.lt_irrefl n h.1)]
  exact sweepLoop_end x n row0 src stride fuel n _ _ (Nat.le_refl n)

/-- Under a pre-emption request a block that is not the last is followed by the stop. -/
theorem sweepLoop_preempted (hn : j + 8 < n) (hp : s.preAsked r = true)
    (hb : sweepBlock x n row0 src stride 8 r.sub (j + r.sub) s r.openBlock = .ok s1 r1) :
    sweepLoop x n row0 src stride (fuel + 1) j s r =
      .hold (s1.countBeats x r.tcfg.toNat 8) (r1.commitBlock (j + 8)) .none := by
  rw [sweepLoop_commit x n row0 src stride fuel j s r (by omega) hb, Nat.min_eq_right (Nat.le_of_lt hn), if_pos ⟨hn, hp⟩,
    Nat.add_sub_cancel_left]

/-- A block that finds its stream empty waits, its rows kept aside. -/
theorem sweepLoop_stall {rows : Nat} {w : Wait} (hj : j < n)
    (hb : sweepBlock x n row0 src stride 8 r.sub (j + r.sub) s r.openBlock = .stall s1 r1 rows w) :
    sweepLoop x n row0 src stride (fuel + 1) j s r = .hold s1 (r1.keepBlock r rows) w := by
  rw [sweepLoop, if_neg (Nat.not_le.mpr hj)]
  simp only [hb]

end

section
variable (x : RI) (s : State)

/-- A TSWEEP whose operands are legal runs the blocks from its progress on. -/
theorem execTsweep_legal (h : ready { d := true, a := true, b := true, c := true } x s = true) :
    let r := s.reed x.reed
    let t := r.tcfg.toNat
    let n := (r.sget x.a).toNat
    let row := (r.sget x.b).toNat
    let src := (r.sget x.c).toNat
    let stride := (r.sget x.d).toNat
    0 < n → n ≤ 1024 → row + n ≤ 1024 → (tSw t = false → x.c = 0 ∧ x.d = 0) → (t44 t = true → tSw t = false → n % 2 = 0) →
    (tSw t = true → src % 64 = 0 ∧ stride % 64 = 0) →
    exec (.tsweep x) s = .next (s.finish x.reed r.ibuf.length (sweepLoop x.reed n row src stride (129 + 1) r.prog.toNat s r)) := by
  intro r t n row src stride h0 h1 hr hcd h44 hal
  refine congrArg Host.Outcome.next ((runReed_ready s x _ _ h).trans (congrArg (s.finish x.reed r.ibuf.length) ?_))
  refine (if_neg ?unused).trans ((if_neg ?count).trans ((if_neg ?aligned).trans (if_neg (Nat.not_lt.mpr hr))))
  case unused =>
    rintro ⟨hw, hcd'⟩
    obtain ⟨hc, hd⟩ := hcd hw
    exact hcd'.elim (fun h => h hc) (fun h => h hd)
  case count =>
    rintro (h' | h' | ⟨h1', h2', h3'⟩)
    · exact Nat.ne_of_gt h0 h'
    · exact Nat.not_lt.mpr h1 h'
    · exact absurd ((h44 h1' h2').symm.trans h3') (by decide)
  case aligned =>
    rintro ⟨hw, h'⟩
    obtain ⟨hs, hd⟩ := hal hw
    exact h'.elim (fun h => h hs) (fun h => h hd)

/-- A stationary-weight sweep of no row or of more than 1,024. -/
theorem execTsweep_count (h : ready { d := true, a := true, b := true, c := true } x s = true)
    (hw : tSw (s.reed x.reed).tcfg.toNat = true)
    (hn : ((s.reed x.reed).sget x.a).toNat = 0 ∨ 1024 < ((s.reed x.reed).sget x.a).toNat) :
    exec (.tsweep x) s = .next (s.reedExc x.reed 0x02 0 0) :=
  congrArg Host.Outcome.next (runReed_exc h ((if_neg (by simp [hw])).trans (if_pos (by omega))))

/-- A stationary-weight sweep past row 1,023. -/
theorem execTsweep_range (h : ready { d := true, a := true, b := true, c := true } x s = true)
    (hw : tSw (s.reed x.reed).tcfg.toNat = true) (h0 : 0 < ((s.reed x.reed).sget x.a).toNat)
    (h1 : ((s.reed x.reed).sget x.a).toNat ≤ 1024) (hs : ((s.reed x.reed).sget x.c).toNat % 64 = 0)
    (hd : ((s.reed x.reed).sget x.d).toNat % 64 = 0)
    (hr : 1024 < ((s.reed x.reed).sget x.b).toNat + ((s.reed x.reed).sget x.a).toNat) :
    exec (.tsweep x) s = .next (s.reedExc x.reed 0x03 0 0) :=
  congrArg Host.Outcome.next (runReed_exc h ((if_neg (by simp [hw])).trans
    ((if_neg (by simp [hw]; omega)).trans ((if_neg (by omega)).trans (if_pos hr)))))

end

/-! ### The reduction (R92, R136, R153) -/

section
variable (x : RI) (base n fuel e : Nat) (s : State) (r : Reed)

theorem Reed.vwriteFrom_mode (d : Nat) (mask : Word) (f : Nat → Word) (k : Nat) : (r.vwriteFrom d mask f k).mode = r.mode := by
  induction k with
  | zero => rfl
  | succ k ih =>
    unfold Reed.vwriteFrom
    split
    · exact ih
    · exact ih

/-- A group is folded in the modes of the reed, and leaves them (R117). -/
theorem vredGroup_mode (cnt : Nat) : (vredGroup s x r base e cnt).mode = r.mode := Reed.vwriteFrom_mode r _ _ _ 32

/-- The reduction of the lane partials is in lane 0, and the progress is cleared (R136). -/
def Reed.vredEnd (r : Reed) (x : RI) (n : Nat) : Reed :=
  { r.lane0 x.d (reduce x.fn x.fmt r.ieee r.wrapMode (fun l => if l < n then some (r.vget x.d l) else none)) with prog := 0 }

theorem Reed.vredEnd_of_mode (g : Reed) (h : g.mode = r.mode) : g.vredEnd x n = { g.lane0 x.d (reduce x.fn x.fmt r.ieee
    r.wrapMode (fun l => if l < n then some (g.vget x.d l) else none)) with prog := 0 } := by
  unfold Reed.vredEnd Reed.ieee Reed.wrapMode
  rw [h]

/-- The bytes that a group of `cnt` elements takes (R136, R160). -/
def groupBytes (fmt cnt : Nat) : Nat := if fmtBits fmt = 4 then (cnt + 1) / 2 else cnt * (fmtBits fmt / 8)

/-- Where element `e` of a reduction lies (R132). -/
def groupAddr (fmt base e : Nat) : Nat := (elemAt fmt base (elemAlign fmt) e).1

theorem vredLoop_end (h : n ≤ e) : vredLoop x base n (fuel + 1) e s r = .done s (r.vredEnd x n) := if_pos h

/-- A group that can be read, and is not full, is the last. -/
theorem vredLoop_last (he : e < n) (hl : n < e + 32)
    (hc : s.sramCheck x.reed false (groupAddr x.fmt base e) (groupBytes x.fmt (min 32 (n - e))) 1 = .ok) :
    vredLoop x base n (fuel + 2) e s r = .done (s.noteRead x.reed (groupAddr x.fmt base e) (groupBytes x.fmt (min 32 (n - e))))
      ((vredGroup s x r base e (min 32 (n - e))).vredEnd x n) := by
  have hcnt : min 32 (n - e) = n - e := Nat.min_eq_right (by omega)
  have hne : n - e ≠ 32 := by omega
  unfold groupAddr groupBytes at *
  rw [hcnt] at hc ⊢
  rw [vredLoop, if_neg (Nat.not_le.mpr he)]
  simp only [hcnt, hc, hne, if_false, false_and]
  exact vredLoop_end x base n fuel _ _ _ (by omega)

/-- A full group under a pre-emption request is the last before the stop. -/
theorem vredLoop_preempted (hl : e + 32 ≤ n) (hp : s.preAsked r = true)
    (hc : s.sramCheck x.reed false (groupAddr x.fmt base e) (groupBytes x.fmt (min 32 (n - e))) 1 = .ok) :
    vredLoop x base n (fuel + 1) e s r = .hold (s.noteRead x.reed (groupAddr x.fmt base e) (groupBytes x.fmt (min 32 (n - e))))
      { vredGroup s x r base e (min 32 (n - e)) with prog := BitVec.ofNat 64 (e + 32) } .none := by
  have hcnt : min 32 (n - e) = 32 := Nat.min_eq_left (by omega)
  unfold groupAddr groupBytes at *
  rw [hcnt] at hc ⊢
  rw [vredLoop, if_neg (by omega)]
  simp only [hcnt, hc, hp, if_true, and_self]

end

/-- A VRED whose operands are legal folds the groups from its progress on. -/
theorem execVred_legal (x : RI) (s : State)
    (h : ready { d := true, a := true, b := true, fmt := true, m := true, fn := true } x s = true) (hm : x.m = 0) (hf : x.fn < 3) :
    let r := s.reed x.reed
    let base := (r.sget x.a).toNat
    let n := (r.sget x.b).toNat
    n ≤ 4194304 → n = 0 ∨ base % elemAlign x.fmt = 0 →
    exec (.vred x) s = .next (s.finish x.reed r.ibuf.length (vredLoop x base n (n / 32 + 1 + 2) r.prog.toNat s r)) := by
  intro r base n hn hal
  refine congrArg Host.Outcome.next ((runReed_ready s x _ _ h).trans (congrArg (s.finish x.reed r.ibuf.length) ?_))
  refine (if_neg (not_not.mpr hm)).trans ((if_neg ?count).trans (if_neg ?aligned))
  case count => exact not_or.mpr ⟨Nat.not_le.mpr hf, Nat.not_lt.mpr hn⟩
  case aligned => exact fun h' => hal.elim h'.1 h'.2

/-- Settles O17: what the loop of each instruction comes to, carried to the reed by the frame of the instruction. -/
theorem sweepAndReduction : Obligations.SweepAndReduction := by
  intro x s
  refine ⟨fun h h0 h1 hr hcd h44 hal hj => ?blocks,
    fun h hw => ⟨execTsweep_count x s h hw, fun h0 h1 hs hd hr => execTsweep_range x s h hw h0 h1 hs hd hr⟩,
    fun h hm hf hn hal => ?groups⟩
  case blocks =>
    have run := execTsweep_legal x s h h0 h1 hr hcd h44 hal
    refine ⟨fun s1 r1 hb => ⟨fun hl => ?_, fun hl hp => ?_⟩, fun s1 r1 rows w hb => ?_⟩
    · rw [run, sweepLoop_last _ _ _ _ _ _ _ _ _ hj hl hb]
      rfl
    · rw [run, sweepLoop_preempted _ _ _ _ _ _ _ _ _ hl hp hb]
      rfl
    · rw [run, sweepLoop_stall _ _ _ _ _ _ _ _ _ hj hb]
      rfl
  case groups =>
    have run := execVred_legal x s h hm hf hn hal
    refine ⟨fun hj => ?_, fun hj hc => ⟨fun hl => ?_, fun hl hp => ?_⟩⟩
    · rw [run, vredLoop_end _ _ _ _ _ _ _ hj]
      rfl
    · rw [run, vredLoop_last _ _ _ _ _ _ _ hj hl hc, Reed.vredEnd_of_mode _ _ _ _ (vredGroup_mode ..)]
      rfl
    · rw [run, vredLoop_preempted _ _ _ _ _ _ _ hl hp hc]
      rfl

/-! ### Engines of a reed -/

@[simp] theorem Reed.eng_setEng (r : Reed) (isA : Bool) (e : Engine) : (r.setEng isA e).eng isA = e := by cases isA <;> rfl

@[simp] theorem Reed.setEng_eng (r : Reed) (isA : Bool) : r.setEng isA (r.eng isA) = r := by cases isA <;> rfl

theorem Engine.settle_of_notDone (e : Engine) (h : e.done = false) : e.settle = e := by
  simp [Engine.settle, h]

/-! ### Issue (R94, R98, R139) -/

section
variable (s : State) (x : ReedRef) (isA : Bool) (d : TDesc)

/-- An engine that is started and has no write tile to pass over issues from the descriptor it stands on, once it has decoded within
its horizon. -/
theorem tongueIssue_decoded (hen : ((s.reed x).eng isA).enable = true) (hac : ((s.reed x).eng isA).active = true)
    (hdo : ((s.reed x).eng isA).done = false) (hw : ((s.reed x).eng isA).issuedW ≤ ((s.reed x).eng isA).wnum)
    (hcur : (((s.tongueDecode x isA 64).reed x).eng isA).cur = some d)
    (hf : (((s.tongueDecode x isA 64).reed x).eng isA).done = false) :
    s.tongueIssue x isA = ((s.tongueDecode x isA 64).setReed x ((s.tongueDecode x isA 64).reed x)).issueTile x isA d := by
  unfold State.tongueIssue
  simp only [hen, hac, hdo, Nat.sub_eq_zero_of_le hw, Engine.skipWrites, Engine.settle_of_notDone _ hf, Reed.setEng_eng, hcur, hf,
    Bool.true_eq_false, Bool.false_eq_true, or_self, if_false]

/-- A read issues into the slot of its number where the slot is free (R94, R140). -/
theorem issueTile_read (hk : d.kind ≠ 2) (hs : s.slotFree x isA ((s.reed x).eng isA) = true) :
    let e := (s.reed x).eng isA
    s.issueTile x isA d = s.setReed x ((s.reed x).setEng isA { e.advance d with
      num := e.num + 1
      tiles := e.tiles ++ [⟨d.tileAddr e.row e.idx, d.tilePhys s x e.row e.idx, s.slotOff x isA e.num, e.desc, e.row, e.idx, e.num,
        e.wnum, false, false, d.notify && e.atFinal d⟩] }) :=
  (if_neg hk).trans (if_pos hs)

/-- A permitted write tile whose source the reed owns and can read issues (R98, R139). -/
theorem issueTile_write (hk : d.kind = 2) (hp : 0 < ((s.reed x).eng isA).permits) :
    let e := (s.reed x).eng isA
    let src := d.aux + 4096 * (e.row * d.inner + e.idx)
    let ps := (List.range 4096).map (fun i => reedSram x (src + i))
    s.ownRange x src 4096 = .ok → s.anyBad ps = false →
    s.issueTile x isA d = (s.setReed x ((s.reed x).setEng isA { e.advance d with
      wnum := e.wnum + 1, issuedW := e.issuedW + 1, permits := e.permits - 1
      writes := e.writes ++ [⟨src, d.tileAddr e.row e.idx, d.tilePhys s x e.row e.idx, e.wnum, d.notify && e.atFinal d⟩] })).noteWords ps := by
  intro e src ps ho hb
  refine (if_pos hk).trans ((if_neg ?_).trans (if_neg ?_))
  · rintro (h | h)
    · exact Nat.ne_of_gt hp h
    · cases ho.symm.trans h
  · rintro (h | h)
    · cases hb.symm.trans h
    · exact h ho

end

/-! ### Landing and write-back (R95, R98, R101) -/

section
variable (s : State) (x : ReedRef) (isA : Bool) (t : Tile)

/-- A tile has landed, poisoned or not. -/
def Engine.landed (e : Engine) (num : Nat) (bad : Bool) : Engine :=
  { e with tiles := e.tiles.map (fun u => if u.num = num then { u with landed := true, poison := bad } else u) }

/-- A tile lands without an error of its stack, and its words in memory are good. -/
theorem landTile_good (hw : ((s.reed x).eng isA).writes = [])
    (hf : ((s.reed x).eng isA).tiles.find? (fun u => decide (u.num = t.num) && !u.landed) = some t)
    (hb : s.anyBad ((List.range 4096).map (fun i => t.phys + i)) = false) :
    let ps := (List.range 4096).map (fun i => t.phys + i)
    s.landTile x isA t.num false =
      (((s.noteWords ps).writePhys ((List.range 4096).map (fun i => reedSram x t.slot + i)) (s.readPhys ps)).setReed x
        ((s.reed x).setEng isA (((s.reed x).eng isA).landed t.num false))).cntAdd .reed x.die (17 * x.k + x.r)
          (if isA then 0x050 else 0x048) 1 := by
  unfold State.landTile Engine.landed
  simp only [hf, hw, List.filter_nil, List.foldl_nil, hb, Bool.or_self, Bool.false_and, Bool.false_eq_true, if_false]

/-- A tile that lands with an error of its stack is poisoned. -/
theorem landTile_uncorrectable
    (hf : ((s.reed x).eng isA).tiles.find? (fun u => decide (u.num = t.num) && !u.landed) = some t) :
    ((s.landTile x isA t.num true).reed x).eng isA = ((s.reed x).eng isA).landed t.num true := by
  unfold State.landTile
  simp only [hf, Bool.true_or]
  rw [State.reed, cntAdd_reeds, ← State.reed, reed_setReed_same, Reed.eng_setEng]
  rfl

/-- A write tile waits for the reads before it (R98). -/
theorem writeDone_waits (w : WTile) (ws : List WTile) (hw : (s.reed x).a.writes = w :: ws) (hb : (s.reed x).a.readBefore w = true) :
    s.writeDone x = s := by
  unfold State.writeDone
  simp only [hw, hb, if_true]

/-- The oldest write tile reaches memory once the reads before it have landed (R98). -/
theorem writeDone_writes (w : WTile) (ws : List WTile) (hw : (s.reed x).a.writes = w :: ws)
    (hb : (s.reed x).a.readBefore w = false) (hn : w.notify = false) :
    let s1 := (s.applyWrite x w).cntAdd .reed x.die (17 * x.k + x.r) 0x050 1
    s.writeDone x = s1.setReed x { s1.reed x with a := { (s1.reed x).a with writes := ws }.settle } := by
  unfold State.writeDone State.wroteTile
  simp only [hw, hb, hn, Bool.false_eq_true, if_false]

end

/-! ### Control writes and flush (R107) -/

/-- A pending control write takes effect where no read is outstanding. -/
theorem engineCfgApply_pending (s : State) (x : ReedRef) (isA : Bool) (slots look : Nat)
    (hp : ((s.reed x).eng isA).cfgPend = some (slots, look)) (ho : ((s.reed x).eng isA).outstanding = false) :
    s.engineCfgApply x isA =
      s.setReed x ((s.reed x).setEng isA { (s.reed x).eng isA with cfgPend := none, slots := slots, look := look }) := by
  unfold State.engineCfgApply
  simp only [hp, ho, Bool.false_eq_true, if_false]

@[simp] theorem Engine.flush_err (e : Engine) : e.flush.err = 0 := by
  unfold Engine.flush
  split <;> rfl

@[simp] theorem Engine.flush_tiles (e : Engine) : e.flush.tiles = [] := by
  unfold Engine.flush
  split
  · next h => exact h
  · rfl

@[simp] theorem Engine.flush_enable (e : Engine) : e.flush.enable = e.enable := by
  unfold Engine.flush
  split <;> rfl

section
variable (s : State) (x : ReedRef) (isA : Bool)

/-- The flush of an engine that has issued no write tile. -/
theorem flushEngine_of_noWrites (h : ((s.reed x).eng isA).writes = []) :
    s.flushEngine x isA = (s.setReed x (s.reed x)).setReed x ((s.reed x).setEng isA ((s.reed x).eng isA).flush) := by
  have hd : s.drainWrites x isA = s.setReed x (s.reed x) := by
    have he : { (s.reed x).eng isA with writes := [] } = (s.reed x).eng isA := by rw [← h]
    unfold State.drainWrites
    rw [h]
    exact congrArg (s.setReed x) ((congrArg ((s.reed x).setEng isA) he).trans (Reed.setEng_eng ..))
  unfold State.flushEngine
  simp only [hd, reed_setReed_same]

/-- A control write within range, as it stands in the engine: the queue and the horizon wait while a read is outstanding. -/
def Engine.controlled (e : Engine) (en : Bool) (slots look : Nat) : Engine :=
  if e.outstanding then { e with enable := en, cfgPend := some (slots, look) }
  else { e with enable := en, cfgPend := none, slots := slots, look := look }

@[simp] theorem Engine.controlled_enable (e : Engine) (en : Bool) (slots look : Nat) : (e.controlled en slots look).enable = en := by
  unfold Engine.controlled
  split <;> rfl

@[simp] theorem Engine.controlled_writes (e : Engine) (en : Bool) (slots look : Nat) : (e.controlled en slots look).writes = e.writes := by
  unfold Engine.controlled
  split <;> rfl

/-- A control write within range that flushes, with no reserved bit set and the engine disabled. -/
theorem engineCtrl_flushes (who : Requester) (v : Word) (hr : fieldW v 31 21 = 0) (hr' : fieldW v 7 2 = 0) (h1 : 2 ≤ fieldW v 20 16)
    (h2 : fieldW v 20 16 ≤ 16) (h3 : 1 ≤ fieldW v 15 8) (h4 : fieldW v 15 8 ≤ 64) (hen : fieldW v 0 0 = 0) (hfl : fieldW v 1 1 = 1) :
    s.engineCtrl who x isA v =
      ((s.setReg (Blk.reed.at x.die (17 * x.k + x.r) (engCtrl isA)) (v &&& 0x001FFF01)).setReed x ((s.reed x).setEng isA
        (((s.reed x).eng isA).controlled false (fieldW v 20 16) (fieldW v 15 8)))).flushEngine x isA := by
  have hrange : ¬ (fieldW v 20 16 < 2 ∨ 16 < fieldW v 20 16 ∨ fieldW v 15 8 < 1 ∨ 64 < fieldW v 15 8) := by omega
  unfold State.engineCtrl
  simp only [hr, hr', hen, hfl, hrange, ne_eq, not_true_eq_false, or_self, if_false, if_true, decide_true, Nat.zero_ne_one,
    decide_false, Bool.false_eq_true]
  rfl

end

/-- A control write that sets `flush` leaves the other fields. -/
theorem fieldW_or_two_other (v : Word) (hi lo : Nat) (h : hi < 1 ∨ 1 < lo) : fieldW (v ||| 2) hi lo = fieldW v hi lo := by
  refine Nat.eq_of_testBit_eq fun i => ?_
  rw [testBit_fieldW, testBit_fieldW, BitVec.getLsbD_or]
  by_cases hi' : i < hi + 1 - lo
  · have h2 : (2 : Word).getLsbD (lo + i) = false := by
      have : 1 ≠ lo + i := by omega
      rw [show (2 : Word) = BitVec.twoPow 32 1 from rfl, BitVec.getLsbD_twoPow]
      simp [this]
    rw [h2, Bool.or_false]
  · simp [hi']

theorem fieldW_or_two_same (v : Word) : fieldW (v ||| 2) 1 1 = 1 := by
  refine Nat.eq_of_testBit_eq fun i => ?_
  rw [testBit_fieldW, BitVec.getLsbD_or]
  cases i with
  | zero => simp
  | succ i => simp [Nat.testBit_succ]

/-- TONGUE_FLUSH is a control write that sets `flush`: within range, it stands and flushes the engine (R107). -/
theorem execTongueFlush_eq (s : State) (who : Requester) (x : ReedRef) (isA : Bool) (v : Word)
    (hw : s.writable who (Blk.reed.at x.die (17 * x.k + x.r) (engCtrl isA)) = true) (hr : fieldW v 31 21 = 0) (hr' : fieldW v 7 2 = 0)
    (h1 : 2 ≤ fieldW v 20 16) (h2 : fieldW v 20 16 ≤ 16) (h3 : 1 ≤ fieldW v 15 8) (h4 : fieldW v 15 8 ≤ 64) (hen : fieldW v 0 0 = 0) :
    exec (.tongueFlush who x isA v) s =
      .next (((s.setReg (Blk.reed.at x.die (17 * x.k + x.r) (engCtrl isA)) ((v ||| 2) &&& 0x001FFF01)).setReed x ((s.reed x).setEng isA
        (((s.reed x).eng isA).controlled false (fieldW v 20 16) (fieldW v 15 8)))).flushEngine x isA) := by
  have keep : ∀ hi lo : Nat, (hi < 1 ∨ 1 < lo) → fieldW (v ||| 2) hi lo = fieldW v hi lo := fieldW_or_two_other v
  have hc := engineCtrl_flushes s x isA who (v ||| 2) ((keep 31 21 (by decide)).trans hr) ((keep 7 2 (by decide)).trans hr')
  rw [keep 20 16 (by decide), keep 15 8 (by decide), keep 0 0 (by decide)] at hc
  exact congrArg Host.Outcome.next ((gate_writable s who _ _ hw).trans (hc h1 h2 h3 h4 hen (fieldW_or_two_same v)))

/-- The engine after a flush is disabled, holds no tile and shows no error; memory and the other registers are as before. -/
theorem flushEngine_disabled (s : State) (x : ReedRef) (isA : Bool) (e : Engine) (a : Nat) (w : Word) (hen : e.enable = false)
    (hws : e.writes = []) :
    let t := ((s.setReg a w).setReed x ((s.reed x).setEng isA e)).flushEngine x isA
    ((t.reed x).eng isA).err = 0 ∧ ((t.reed x).eng isA).tiles = [] ∧ ((t.reed x).eng isA).enable = false ∧ sameMem s t ∧
      sameRegsBut [a] s t := by
  have he : ((((s.setReg a w).setReed x ((s.reed x).setEng isA e)).reed x).eng isA) = e := by simp
  rw [flushEngine_of_noWrites _ _ _ (by rw [he, hws]), he]
  refine ⟨by simp, by simp, by simp [hen], fun _ => rfl, ?_⟩
  exact sameRegsBut_setReg (sameRegsBut_refl _ s) (List.mem_singleton_self a) w

/-! ### The release of an exception (R148, R150) -/

/-- A write of `exc_valid` alone to the record of a stopped reed. -/
theorem excClear_excValid (s : State) (who : Requester) (x : ReedRef) (h : (s.reed x).run = .stopped) :
    let a := Blk.reed.at x.die (17 * x.k + x.r) 0x01C
    s.excClear who x 0x80000000 = (s.setReg a (s.reg a &&& 0x7FFFFFFF)).setReed x { s.reed x with run := .ended } := by
  intro a
  have hrsv : ¬ (fieldW 0x80000000 30 24 ≠ 0 ∨ fieldW 0x80000000 7 2 ≠ 0) := by decide
  have hset : fieldW 0x80000000 31 31 = 1 := by decide
  unfold State.excClear
  simp only [hrsv, if_false, hset, h, and_self, if_true]
  rfl

/-- Settles O19: each clause from the lemma about its event. -/
theorem tongueEvents : Obligations.TongueEvents := by
  intro who x isA s
  refine ⟨fun d hen hac hdo hw hcur hf _ => ⟨fun hk hs => ?read, fun hk hp ho hb => ?write⟩,
    fun t hw hf => ⟨fun hb => ?good, ⟨_, rfl, ?bad⟩⟩,
    fun w ws hw => ⟨fun hb => ?waits, fun hb hn => ?writes⟩, fun slots look hp ho => ?cfg,
    fun v hw hr hr' h1 h2 h3 h4 hen hws => ?flush, fun v hw hv hrun => ?release⟩
  case read =>
    rw [reed_setReed_same] at hcur hf
    exact congrArg Host.Outcome.next ((tongueIssue_decoded s x isA d hen hac hdo hw hcur hf).trans (issueTile_read _ x isA d hk hs))
  case write =>
    rw [reed_setReed_same] at hcur hf
    exact congrArg Host.Outcome.next ((tongueIssue_decoded s x isA d hen hac hdo hw hcur hf).trans
      (issueTile_write _ x isA d hk hp ho hb))
  case good => exact congrArg Host.Outcome.next (landTile_good s x isA t hw hf hb)
  case bad => exact congrArg Engine.tiles (landTile_uncorrectable s x isA t hf)
  case waits => exact congrArg Host.Outcome.next (writeDone_waits s x w ws hw hb)
  case writes => exact congrArg Host.Outcome.next (writeDone_writes s x w ws hw hb hn)
  case cfg => exact congrArg Host.Outcome.next (engineCfgApply_pending s x isA slots look hp ho)
  case flush =>
    exact ⟨_, execTongueFlush_eq s who x isA v hw hr hr' h1 h2 h3 h4 hen,
      flushEngine_disabled s x isA _ _ _ (Engine.controlled_enable ..) ((Engine.controlled_writes ..).trans hws)⟩
  case release =>
    subst hv
    exact congrArg Host.Outcome.next ((gate_writable s who _ _ hw).trans (excClear_excValid s who x hrun))

end Sys2Proof.Machine

/-! PROOFS. The words of the reed's instructions (R120 to R123). -/
namespace Sys2Proof.Machine

/-! ### Opcodes -/

/-- The opcode of an instruction is a byte, and it names the instruction. -/
theorem opInstr_of_reedParts {i : Instr} {op : Nat} {y : RI} (h : reedParts i = some (op, y)) : op < 256 ∧ opInstr op y = some i := by
  unfold reedParts at h
  split at h <;> cases h
  all_goals exact ⟨by decide, rfl⟩

/-- An opcode that is defined is that of the instruction that it names. -/
theorem reedParts_of_opInstr {op : Nat} {y : RI} {i : Instr} (h : opInstr op y = some i) : reedParts i = some (op, y) := by
  unfold opInstr at h
  split at h <;> cases h
  all_goals rfl

/-! ### Fields -/

/-- The fields of a word, each in its place (R120). -/
def RI.placed (y : RI) (op : Nat) : Nat :=
  op * 2 ^ 56 + y.d * 2 ^ 51 + y.a * 2 ^ 46 + y.b * 2 ^ 41 + y.c * 2 ^ 36 + y.m * 2 ^ 33 + y.fmt * 2 ^ 30 + y.fn * 2 ^ 24 + y.imm.toNat

theorem RI.fits_iff (y : RI) : y.fits = true ↔
    y.d < 32 ∧ y.a < 32 ∧ y.b < 32 ∧ y.c < 32 ∧ y.m < 8 ∧ y.fmt < 8 ∧ y.fn < 64 := by
  simp [RI.fits, and_assoc]

/-- Fields that fit do not pass the word. -/
theorem toNat_fieldsWord {op : Nat} {y : RI} (hop : op < 256) (hy : y.fits = true) : (fieldsWord op y).toNat = y.placed op := by
  obtain ⟨hd, ha, hb, hc, hm, hf, hn⟩ := y.fits_iff.mp hy
  have himm := y.imm.isLt
  have : y.placed op < 2 ^ 64 := by unfold RI.placed; omega
  exact (BitVec.toNat_ofNat _ _).trans (Nat.mod_eq_of_lt this)

/-- The opcode of a word that fields spell. -/
theorem wordField_fieldsWord_op {op : Nat} {y : RI} (hop : op < 256) (hy : y.fits = true) :
    wordField (fieldsWord op y) 56 8 = op := by
  obtain ⟨hd, ha, hb, hc, hm, hf, hn⟩ := y.fits_iff.mp hy
  have himm := y.imm.isLt
  unfold wordField
  rw [toNat_fieldsWord hop hy]
  unfold RI.placed
  omega

/-- The fields of a word that fields spell. -/
theorem wordFields_fieldsWord {op : Nat} {y : RI} (hop : op < 256) (hy : y.fits = true) :
    wordFields y.reed (fieldsWord op y) = y := by
  obtain ⟨hd, ha, hb, hc, hm, hf, hn⟩ := y.fits_iff.mp hy
  have himm := y.imm.isLt
  have imm : BitVec.ofNat 24 (y.placed op) = y.imm := by
    refine BitVec.eq_of_toNat_eq ((BitVec.toNat_ofNat _ _).trans ?_)
    unfold RI.placed
    omega
  unfold wordFields wordField
  rw [toNat_fieldsWord hop hy, imm]
  obtain ⟨reed, d, a, b, c, m, fmt, fn, i⟩ := y
  simp only [RI.placed, RI.mk.injEq, true_and, and_true] at *
  omega

/-- Every bit of a word belongs to a field. -/
theorem fieldsWord_wordFields (x : ReedRef) (w : DWord) : fieldsWord (wordField w 56 8) (wordFields x w) = w := by
  have hw := w.isLt
  refine BitVec.eq_of_toNat_eq ((BitVec.toNat_ofNat _ _).trans ?_)
  simp only [wordFields, wordField, BitVec.toNat_ofNat]
  omega

/-- Settles O3: the opcode and the fields are read back from their places, and the opcode names the instruction. -/
theorem reedWordRoundTrip : Obligations.ReedWordRoundTrip := by
  intro i ⟨op, y⟩ w hp hy hw
  obtain ⟨hop, hi⟩ := opInstr_of_reedParts hp
  have hw : fieldsWord op y = w := Option.some.inj ((congrArg (Option.map _) hp).symm.trans hw)
  unfold decodeReedWord
  rw [← hw, wordField_fieldsWord_op hop hy, wordFields_fieldsWord hop hy]
  exact hi

/-- Settles O4: the word of an instruction is that of its fields, and a word that decodes is that of the fields it is cut into. -/
theorem reedWords : Obligations.ReedWords := by
  refine ⟨fun i p hp => ⟨fieldsWord p.1 p.2, congrArg (Option.map _) hp⟩, fun x w i h => ?_, fun x => ⟨rfl, rfl, rfl, rfl⟩⟩
  unfold encodeReedWord
  rw [reedParts_of_opInstr h]
  exact congrArg some (fieldsWord_wordFields x w)

end Sys2Proof.Machine

/-! PROOFS. The registers of a reed (R116, R124) and its INT32 lanes (R124, R166, R177). -/
namespace Sys2Proof.Machine
open Sys2Proof.Laws

/-! ### Scalar, mask and vector registers -/

section
variable (r : Reed)

@[simp] theorem Reed.sget_zero : r.sget 0 = 0 := rfl

@[simp] theorem Reed.sset_zero (v : DWord) : r.sset 0 v = r := rfl

theorem Reed.sget_sset_same {i : Nat} (h : i ≠ 0) (v : DWord) : (r.sset i v).sget i = v := by
  simp [Reed.sget, Reed.sset, h]

theorem Reed.sget_sset_other {i j : Nat} (h : j ≠ i) (v : DWord) : (r.sset i v).sget j = r.sget j := by
  unfold Reed.sset
  split
  · rfl
  · simp [Reed.sget, get_set_other _ _ _ _ _ h.symm]

theorem Reed.sset_frame (i : Nat) (v : DWord) : { r.sset i v with s := r.s } = r := by
  unfold Reed.sset
  split <;> rfl

@[simp] theorem Reed.mget_zero : r.mget 0 = 0xFFFFFFFF := rfl

@[simp] theorem Reed.mset_zero (w : Word) : r.mset 0 w = r := rfl

theorem Reed.mget_mset_same {i : Nat} (h : i ≠ 0) (w : Word) : (r.mset i w).mget i = w := by
  simp [Reed.mget, Reed.mset, h]

theorem Reed.mget_mset_other {i j : Nat} (h : j ≠ i) (w : Word) : (r.mset i w).mget j = r.mget j := by
  unfold Reed.mset
  split
  · rfl
  · simp [Reed.mget, get_set_other _ _ _ _ _ h.symm]

theorem Reed.mset_frame (i : Nat) (w : Word) : { r.mset i w with m := r.m } = r := by
  unfold Reed.mset
  split <;> rfl

/-- A lane after a write of one lane. -/
theorem Reed.vget_vset (d n i e : Nat) (w : Word) :
    (r.vset d n w).vget i e = if 32 * d + n = 32 * i + e then w else r.vget i e := get_set _ _ _ _ w

variable (d : Nat) (mask : Word) (f : Nat → Word)

/-- The lanes below `n` of a vector register after a write under a mask. -/
theorem Reed.vget_vwriteFrom (n e : Nat) :
    (r.vwriteFrom d mask f n).vget d e = if e < n ∧ mask.getLsbD e = true then f e else r.vget d e := by
  induction n with
  | zero => rfl
  | succ n ih =>
    unfold Reed.vwriteFrom
    split
    · next hm =>
      rw [Reed.vget_vset, ih]
      by_cases he : n = e
      · subst he
        simp [hm]
      · have hlt : e < n + 1 ↔ e < n := by omega
        simp [he, hlt]
    · next hm =>
      rw [ih]
      by_cases he : n = e
      · subst he
        simp [hm]
      · have hlt : e < n + 1 ↔ e < n := by omega
        simp [hlt]

/-- The lanes of another register lie elsewhere. -/
theorem Reed.vget_vwriteFrom_other {i e : Nat} (hi : i ≠ d) (he : e < 32) {n : Nat} (hn : n ≤ 32) :
    (r.vwriteFrom d mask f n).vget i e = r.vget i e := by
  induction n with
  | zero => rfl
  | succ n ih =>
    unfold Reed.vwriteFrom
    split
    · rw [Reed.vget_vset, if_neg (by omega), ih (by omega)]
    · exact ih (by omega)

theorem Reed.vwriteFrom_frame (n : Nat) : { r.vwriteFrom d mask f n with v := r.v } = r := by
  induction n with
  | zero => rfl
  | succ n ih =>
    unfold Reed.vwriteFrom
    split
    · exact ih
    · exact ih

end

/-- A reed's state is changed at that reed alone. -/
theorem reed_setReed_other (s : State) {x y : ReedRef} (h : reedNo y ≠ reedNo x) (r : Reed) : (s.setReed x r).reed y = s.reed y := by
  rw [reed_setReed, if_neg h.symm]

/-- Settles O7: each register file from its read-after-write lemmas. -/
theorem reedRegisterLaws : Obligations.ReedRegisterLaws := by
  refine ⟨fun r i j v => ⟨r.sget_zero, r.sset_zero v, fun h => r.sget_sset_same h v, fun h => r.sget_sset_other h v, r.sset_frame i v⟩,
    fun r i j w => ⟨r.mget_zero, r.mset_zero w, fun h => r.mget_mset_same h w, fun h => r.mget_mset_other h w, r.mset_frame i w⟩,
    fun r d mask f => ⟨fun e he => ?lane, fun i e hi he => r.vget_vwriteFrom_other d mask f hi he (Nat.le_refl 32),
      r.vwriteFrom_frame d mask f 32⟩,
    fun s x y r => ⟨reed_setReed_same s x r, fun h => reed_setReed_other s h r, rfl⟩⟩
  case lane =>
    refine (r.vget_vwriteFrom d mask f 32 e).trans ?_
    simp only [he, true_and]

/-! ### INT32 lanes -/

/-- An exact result brought to the range of INT32 (R166). -/
def satInt32 (z : Int) : Int := max (-(2 ^ 31)) (min (2 ^ 31 - 1) z)

/-- Under WRAP an INT32 result is the exact one modulo 2^32 (R166, R177). -/
theorem int32_wrap (z : Int) : int32 true z = BitVec.ofInt 32 z :=
  BitVec.eq_of_toNat_eq (by simp [int32, wrap, BitVec.toNat_ofInt]; omega)

/-- Under SAT an INT32 result is the exact one brought to the range (R166, R177). -/
theorem toInt_int32_sat (z : Int) : (int32 false z).toInt = satInt32 z := by
  have inRange : -2147483648 ≤ z → z ≤ 2147483647 → (int32 true z).toInt = z := by
    intro h1 h2
    rw [int32_wrap, BitVec.toInt_ofInt]
    exact Int.bmod_eq_of_le (by omega) (by omega)
  unfold satInt32
  by_cases h1 : z < -2147483648
  · have : int32 false z = 0x80000000 := by simp [int32, h1]
    rw [this, show (0x80000000 : Word).toInt = -2147483648 by decide]
    omega
  · by_cases h2 : 2147483647 < z
    · have : int32 false z = 0x7FFFFFFF := by simp [int32, h1, h2]
      rw [this, show (0x7FFFFFFF : Word).toInt = 2147483647 by decide]
      omega
    · have : int32 false z = int32 true z := by simp [int32, h1, h2]
      rw [this, inRange (by omega) (by omega)]
      omega

section
variable (a b : Word)

theorem int32_wrap_add : int32 true (a.toInt + b.toInt) = a + b := by
  rw [int32_wrap, BitVec.ofInt_add, BitVec.ofInt_toInt, BitVec.ofInt_toInt]

theorem int32_wrap_sub : int32 true (a.toInt - b.toInt) = a - b := by
  rw [int32_wrap, Int.sub_eq_add_neg, BitVec.ofInt_add, BitVec.ofInt_neg, BitVec.ofInt_toInt, BitVec.ofInt_toInt,
    BitVec.sub_eq_add_neg]

theorem int32_wrap_mul : int32 true (a.toInt * b.toInt) = a * b := by
  rw [int32_wrap, BitVec.ofInt_mul, BitVec.ofInt_toInt, BitVec.ofInt_toInt]

/-- MIN of a lane is signed. -/
theorem toInt_slt_min : (if b.slt a then b else a).toInt = min a.toInt b.toInt := by
  simp only [BitVec.slt, decide_eq_true_eq]
  split <;> omega

/-- MAX of a lane is signed. -/
theorem toInt_slt_max : (if a.slt b then b else a).toInt = max a.toInt b.toInt := by
  simp only [BitVec.slt, decide_eq_true_eq]
  split <;> omega

end

/-- Settles O15: WRAP and SAT by the lemmas about `int32`; the logic operations and shifts are those of the words. -/
theorem laneIntegerArithmetic : Obligations.LaneIntegerArithmetic := by
  intro a b ieee
  refine ⟨int32_wrap_add a b, int32_wrap_sub a b, int32_wrap_mul a b, toInt_int32_sat _, toInt_int32_sat _, toInt_int32_sat _,
    fun w => ⟨toInt_slt_min a b, toInt_slt_max a b, rfl, rfl, rfl, rfl, rfl, rfl⟩, ?abs, toInt_int32_sat _⟩
  case abs =>
    have h : (if a.toInt < 0 then -a.toInt else a.toInt) = |a.toInt| := by
      split
      · next hneg => exact (abs_of_neg hneg).symm
      · next hpos => exact (abs_of_nonneg (Int.not_lt.mp hpos)).symm
    exact (congrArg (fun z => (int32 false z).toInt) h).trans (toInt_int32_sat _)

end Sys2Proof.Machine

/-! PROOFS. The exceptions of a reed (R115, R144, R147, R148). -/
namespace Sys2Proof.Machine
open Sys2Proof.Laws

/-! ### No reed waits at a barrier -/

theorem mem_of_mem_put {α : Type} {m : SMap α} {k : Nat} {v : α} {e : Nat × α} (h : e ∈ SMap.put m k v) : e = (k, v) ∨ e ∈ m := by
  induction m with
  | nil => exact .inl (List.mem_singleton.mp h)
  | cons f t ih =>
    unfold SMap.put at h
    split at h
    · exact List.mem_cons.mp h
    · split at h
      · exact (List.mem_cons.mp h).imp_right (List.mem_cons_of_mem _)
      · rcases List.mem_cons.mp h with rfl | h'
        · exact .inr List.mem_cons_self
        · exact (ih h').imp_right (List.mem_cons_of_mem _)

/-- An entry of a map after a write is the one written, or was there before. -/
theorem mem_of_mem_set {α : Type} [DecidableEq α] {d : Nat → α} {m : SMap α} {k : Nat} {v : α} {e : Nat × α}
    (h : e ∈ SMap.set d m k v) : e = (k, v) ∨ e ∈ m := by
  unfold SMap.set at h
  split at h
  · rw [del_eq_filter] at h
    exact .inr (List.mem_filter.mp h).1
  · exact mem_of_mem_put h

/-- A reed that waits at no barrier. -/
def Reed.offBar (r : Reed) : Bool := match r.wait with | .bar _ => false | _ => true

@[simp] theorem Reed.offBar_noWait (r : Reed) (q : Run) : ({ r with run := q, wait := .none } : Reed).offBar = true := rfl

theorem noBarWait_iff (s : State) : s.noBarWait = true ↔ ∀ e ∈ s.reeds, e.2.offBar = true := List.all_eq_true

/-- One reed's new state is off every barrier, as the others are. -/
theorem noBarWait_of_set {s t : State} (h : s.noBarWait = true) {k : Nat} {r : Reed} (ht : t.reeds = SMap.set Reed.blank s.reeds k r)
    (hr : r.offBar = true) : t.noBarWait = true := by
  rw [noBarWait_iff] at h ⊢
  rw [ht]
  intro e he
  rcases mem_of_mem_set he with rfl | he
  · exact hr
  · exact h e he

/-- Where no reed waits at a barrier, none is broken (R144). -/
theorem brokenBars_of_noBarWait {s : State} (h : s.noBarWait = true) : s.brokenBars = [] := by
  unfold State.brokenBars
  rw [List.map_eq_nil_iff, List.filter_eq_nil_iff]
  intro e he
  have hoff := (noBarWait_iff s).mp h e he
  unfold Reed.offBar at hoff
  split <;> simp_all

theorem breakBars_of_noBarWait {s : State} (h : s.noBarWait = true) (n : Nat) : s.breakBars n = s := by
  induction n with
  | zero => rfl
  | succ n ih =>
    unfold State.breakBars
    rw [brokenBars_of_noBarWait h]
    exact ih

/-! ### The stop of a reed -/

/-- A page's register, from the page. -/
theorem at_add (b : Blk) (die i off : Nat) : b.at die i 0 + off = b.at die i off := by
  rw [at_off b die i off, Nat.add_comm]

theorem fieldW_ofNat {v : Nat} (h : v < 2 ^ 32) (hi lo : Nat) : fieldW (BitVec.ofNat 32 v) hi lo = v / 2 ^ lo % 2 ^ (hi + 1 - lo) := by
  unfold fieldW bits
  rw [BitVec.toNat_ofNat, Nat.mod_eq_of_lt h, Nat.shiftRight_eq_div_pow]

/-- The word that an exception leaves in ERR_STATUS: valid, code and detail over the low bits that stand (R148). -/
def excWord (code detail low : Nat) : Word := BitVec.ofNat 32 (2 ^ 31 + code * 2 ^ 16 + detail % 256 * 2 ^ 8 + low)

theorem excWord_fields {code low : Nat} (detail : Nat) (hc : code < 128) (hl : low < 4) :
    fieldW (excWord code detail low) 31 31 = 1 ∧ fieldW (excWord code detail low) 23 16 = code ∧
      fieldW (excWord code detail low) 15 8 = detail % 256 := by
  have hv : 2 ^ 31 + code * 2 ^ 16 + detail % 256 * 2 ^ 8 + low < 2 ^ 32 := by omega
  unfold excWord
  rw [fieldW_ofNat hv, fieldW_ofNat hv, fieldW_ofNat hv]
  omega

section
variable (s : State) (x : ReedRef) (code detail addr : Nat)

/-- The registers, the step and the reed after the stop, in the terms of the register map. -/
theorem stopReed_eq :
    let reg := Blk.reed.at x.die (17 * x.k + x.r)
    s.stopReed x code detail addr =
      ((((s.setReg (reg 0x01C) (excWord code detail (s.fld (reg 0x01C) 1 0))).setReg (reg 0x020) (BitVec.ofNat 32 (addr % 2 ^ 32))).setReg
        (reg 0x024) (BitVec.ofNat 32 ((s.reed x).pc / 8 * 2 ^ 16 + addr / 2 ^ 32 % 2 ^ 16))).stepFault (s.reed x).step 1 code
          detail).setReed x { s.reed x with run := .stopped, wait := .none } := by
  intro reg
  unfold State.stopReed
  simp only [at_add]
  rfl

theorem State.fld_lt (a hi lo : Nat) : s.fld a hi lo < 2 ^ (hi + 1 - lo) := Nat.mod_lt _ (Nat.two_pow_pos _)

/-- A step of the list after a fault of the step `uid`: it carries `fault`, with its first cause (R58, R512). -/
def Step.failed (uid src code detail : Nat) (e : Step) : Step :=
  if e.uid = uid then { e with fault := true, cause := if e.cause = none then some (src, code, detail) else e.cause } else e

theorem Step.failed_same {uid : Nat} (src : Nat) {e : Step} (h : e.uid = uid) : (e.failed uid src code detail).uid = e.uid ∧
    (e.failed uid src code detail).desc = e.desc ∧ (e.failed uid src code detail).fault = true := by
  unfold Step.failed
  rw [if_pos h]
  exact ⟨rfl, rfl, rfl⟩

theorem stepFault_steps (uid src : Nat) :
    (s.stepFault uid src code detail).steps = s.steps.map (Step.failed uid src code detail) := by
  refine List.map_map.trans (List.map_congr_left fun e _ => ?_)
  unfold Step.failed
  by_cases hu : e.uid = uid
  · by_cases hc : e.cause = none
    · simp only [Function.comp, hu, hc, and_self, if_true]
    · simp only [Function.comp, hu, hc, and_false, if_true, if_false]
  · simp only [Function.comp, hu, false_and, if_false]

theorem stepFault_frame (uid src : Nat) : { s.stepFault uid src code detail with steps := s.steps } = s := rfl

theorem stepFault_reg (uid src a : Nat) : (s.stepFault uid src code detail).reg a = s.reg a :=
  congrArg (SMap.get regReset · a) (show (s.stepFault uid src code detail).regs = s.regs from rfl)

theorem setReed_reeds (r : Reed) : (s.setReed x r).reeds = SMap.set Reed.blank s.reeds (reedNo x) r := rfl

@[simp] theorem stepFault_reeds (uid src : Nat) : (s.stepFault uid src code detail).reeds = s.reeds := rfl

theorem stopReed_reeds : (s.stopReed x code detail addr).reeds =
    SMap.set Reed.blank s.reeds (reedNo x) { s.reed x with run := .stopped, wait := .none } := by
  rw [stopReed_eq, setReed_reeds, stepFault_reeds, setReg_reeds, setReg_reeds, setReg_reeds]

theorem stopReed_steps : (s.stopReed x code detail addr).steps = s.steps.map (Step.failed (s.reed x).step 1 code detail) := by
  rw [stopReed_eq, setReed_steps, stepFault_steps, setReg_steps, setReg_steps, setReg_steps]

/-- The registers of the record of R148. -/
theorem reg_stopReed_status :
    (s.stopReed x code detail addr).reg (Blk.reed.at x.die (17 * x.k + x.r) 0x01C) =
      excWord code detail (s.fld (Blk.reed.at x.die (17 * x.k + x.r) 0x01C) 1 0) := by
  rw [stopReed_eq, reg_setReed, stepFault_reg, reg_setReg_other _ _ _ _ (by rw [Ne, at_inj]; decide),
    reg_setReg_other _ _ _ _ (by rw [Ne, at_inj]; decide), reg_setReg_same]

theorem sameRegsBut_stopReed : sameRegsBut [Blk.reed.at x.die (17 * x.k + x.r) 0x01C, Blk.reed.at x.die (17 * x.k + x.r) 0x020,
    Blk.reed.at x.die (17 * x.k + x.r) 0x024] s (s.stopReed x code detail addr) := by
  intro a ha
  simp only [List.mem_cons, List.not_mem_nil, or_false, not_or] at ha
  obtain ⟨h1, h2, h3⟩ := ha
  rw [stopReed_eq, reg_setReed, stepFault_reg, reg_setReg_other _ _ _ _ (Ne.symm h3), reg_setReg_other _ _ _ _ (Ne.symm h2),
    reg_setReg_other _ _ _ _ (Ne.symm h1)]

theorem stopReed_frame : { s.stopReed x code detail addr with regs := s.regs, reeds := s.reeds, steps := s.steps } = s := by
  rw [stopReed_eq]
  have h (t : State) (ht : RegsOnly s t) (r : Reed) :
      { (t.stepFault (s.reed x).step 1 code detail).setReed x r with regs := s.regs, reeds := s.reeds, steps := s.steps } = s :=
    congrArg (fun u : State => { u with reeds := s.reeds, steps := s.steps }) ht
  exact h _ ((((RegsOnly.refl s).setReg _ _).setReg _ _).setReg _ _) _

/-- What the stop of a reed changes, and what it leaves. -/
theorem stoppedOn_stopReed (hc : code < 128) : stoppedOn x code detail s (s.stopReed x code detail addr) := by
  obtain ⟨hvalid, hcode, hdetail⟩ := excWord_fields detail hc (s.fld_lt (Blk.reed.at x.die (17 * x.k + x.r) 0x01C) 1 0)
  have hreg := reg_stopReed_status s x code detail addr
  refine ⟨?reed, ?others, ?valid, ?code, ?detail, sameRegsBut_stopReed s x code detail addr, ?steps,
    stopReed_frame s x code detail addr⟩
  case reed => rw [State.reed, stopReed_reeds, get_set_same]
  case others =>
    intro y hy
    rw [State.reed, stopReed_reeds, get_set_other _ _ _ _ _ hy.symm, State.reed]
  case valid => rw [State.fld, hreg, hvalid]
  case code => rw [State.fld, hreg, hcode]
  case detail => rw [State.fld, hreg, hdetail]
  case steps =>
    intro e he hu
    rw [stopReed_steps]
    exact ⟨_, List.mem_map_of_mem he, Step.failed_same code detail 1 hu⟩

/-- Where no reed waits at a barrier an exception stops its reed alone (R144, R147). -/
theorem stoppedOn_reedExc (h : s.noBarWait = true) (hc : code < 128) :
    stoppedOn x code detail s (s.reedExc x code detail addr) := by
  unfold State.reedExc
  rw [breakBars_of_noBarWait (noBarWait_of_set h (stopReed_reeds s x code detail addr) (Reed.offBar_noWait ..))]
  exact stoppedOn_stopReed s x code detail addr hc

end

end Sys2Proof.Machine

/-! PROOFS. The scalar and control instructions of a reed (R114, R117, R118, R123). -/
namespace Sys2Proof.Machine
open Sys2Proof.Laws

/-! ### Scalar arithmetic and shifts -/

section
variable {x : RI} {s : State}

/-- A scalar instruction of two registers (R123). -/
theorem scalarAB_ready (h : ready { d := true, a := true, b := true } x s = true) (f : DWord → DWord → DWord) :
    (.next (scalarAB x s f) : Res) = .next (s.setReed x.reed
      ((s.reed x.reed).sset x.d (f ((s.reed x.reed).sget x.a) ((s.reed x.reed).sget x.b))).advanced) :=
  congrArg Host.Outcome.next (runReed_done h rfl)

/-- A scalar instruction of a register and the immediate (R123). -/
theorem scalarAI_ready (h : ready { d := true, a := true, imm := true } x s = true) (f : DWord → DWord) :
    (.next (scalarAI x s f) : Res) =
      .next (s.setReed x.reed ((s.reed x.reed).sset x.d (f ((s.reed x.reed).sget x.a))).advanced) :=
  congrArg Host.Outcome.next (runReed_done h rfl)

/-- A shift by an immediate above 63 is illegal (R123, R125). -/
theorem shiftI_ready (h : ready { d := true, a := true, imm := true } x s = true) (f : DWord → Nat → DWord) :
    (.next (shiftI x s f) : Res) = if x.imm.toNat ≤ 63
      then .next (s.setReed x.reed ((s.reed x.reed).sset x.d (f ((s.reed x.reed).sget x.a) x.imm.toNat)).advanced)
      else .next (s.reedExc x.reed 0x01 0 0) := by
  split
  · next hn => exact congrArg Host.Outcome.next (runReed_done h (if_neg (Nat.not_lt.mpr hn)))
  · next hn => exact congrArg Host.Outcome.next (runReed_exc h (if_pos (Nat.lt_of_not_le hn)))

end

theorem ite_slt {α : Type} (a b : DWord) (u v : α) : (if a.slt b = true then u else v) = if a.toInt < b.toInt then u else v := by
  simp [BitVec.slt]

theorem ite_ult {α : Type} (a b : DWord) (u v : α) : (if a.ult b = true then u else v) = if a.toNat < b.toNat then u else v := by
  simp [BitVec.ult]

/-! ### Branches and jumps -/

section
variable {x : RI} {s : State}

/-- What a jump comes to: a target in the program is taken; another, or the jump of a reed restored with the exception it had
raised, raises the instruction-fetch exception (R114, R151, R607). -/
theorem next_finish_jump (x : ReedRef) (s : State) (n : Nat) (q : Reed) (t : Int) :
    (.next (s.finish x n (.jump s q t)) : Res) =
      if 0 ≤ t ∧ t % 8 = 0 ∧ t < 8 * (n : Int) ∧ (s.reed x).redo = none then .next (s.setReed x (q.jumped t.toNat))
      else .next (s.reedExc x 0x05 0 0) :=
  apply_ite Host.Outcome.next ..

theorem runReed_jump {u : Uses} {body : State → Reed → RRes} {q : Reed} {t : Int} (h : ready u x s = true)
    (hb : body s (s.reed x.reed) = .jump s q t) : (.next (runReed x u s body) : Res) =
      if 0 ≤ t ∧ t % 8 = 0 ∧ t < 8 * ((s.reed x.reed).ibuf.length : Int) ∧ (s.reed x.reed).redo = none
      then .next (s.setReed x.reed (q.jumped t.toNat)) else .next (s.reedExc x.reed 0x05 0 0) := by
  rw [runReed_ready s x u body h, hb]
  exact next_finish_jump ..

/-- A branch that is taken jumps relative to its own address, computed exactly (R114, R123). -/
theorem branch_taken (h : ready { a := true, b := true, imm := true } x s = true) {p : DWord → DWord → Bool}
    (hp : p ((s.reed x.reed).sget x.a) ((s.reed x.reed).sget x.b) = true) :
    let t : Int := ((s.reed x.reed).pc : Int) + x.imm.toInt * 8
    (.next (branch x s p) : Res) =
      if 0 ≤ t ∧ t % 8 = 0 ∧ t < 8 * ((s.reed x.reed).ibuf.length : Int) ∧ (s.reed x.reed).redo = none
      then .next (s.setReed x.reed ((s.reed x.reed).jumped t.toNat)) else .next (s.reedExc x.reed 0x05 0 0) :=
  runReed_jump h (if_pos hp)

/-- A branch that is not taken goes on. -/
theorem branch_not_taken (h : ready { a := true, b := true, imm := true } x s = true) {p : DWord → DWord → Bool}
    (hp : p ((s.reed x.reed).sget x.a) ((s.reed x.reed).sget x.b) = false) :
    (.next (branch x s p) : Res) = .next (s.setReed x.reed (s.reed x.reed).advanced) :=
  congrArg Host.Outcome.next (runReed_done h (if_neg (Bool.eq_false_iff.mp hp)))

/-- A branch on a condition of its two registers. -/
theorem branch_ready (h : ready { a := true, b := true, imm := true } x s = true) (p : DWord → DWord → Bool) {c : Prop}
    (hp : p ((s.reed x.reed).sget x.a) ((s.reed x.reed).sget x.b) = true ↔ c) :
    let t : Int := ((s.reed x.reed).pc : Int) + x.imm.toInt * 8
    (c → (.next (branch x s p) : Res) =
      if 0 ≤ t ∧ t % 8 = 0 ∧ t < 8 * ((s.reed x.reed).ibuf.length : Int) ∧ (s.reed x.reed).redo = none
      then .next (s.setReed x.reed ((s.reed x.reed).jumped t.toNat)) else .next (s.reedExc x.reed 0x05 0 0)) ∧
    (¬c → (.next (branch x s p) : Res) = .next (s.setReed x.reed (s.reed x.reed).advanced)) :=
  ⟨fun hc => branch_taken h (hp.mpr hc), fun hc => branch_not_taken h (Bool.eq_false_iff.mpr fun ht => hc (hp.mp ht))⟩

end

/-- Settles O8: the lemma about each form of instruction, with the function of its row. -/
theorem scalarInstructions : Obligations.ScalarInstructions := by
  refine ⟨fun x s => ⟨fun h => ?registers, fun h => ?immediate, fun h => ?lui⟩, fun x s => ⟨fun h => ?branches, fun h => ?jal, fun h => ?jr⟩⟩
  case registers =>
    exact ⟨scalarAB_ready h (· + ·), scalarAB_ready h (· - ·), scalarAB_ready h (· &&& ·), scalarAB_ready h (· ||| ·),
      scalarAB_ready h (· ^^^ ·), scalarAB_ready h (fun a b => a <<< sh6 b), scalarAB_ready h (fun a b => a >>> sh6 b),
      scalarAB_ready h (fun a b => a.sshiftRight (sh6 b)), scalarAB_ready h (· * ·),
      ite_slt _ _ (1 : DWord) 0 ▸ scalarAB_ready h (fun a b => if a.slt b then 1 else 0),
      ite_ult _ _ (1 : DWord) 0 ▸ scalarAB_ready h (fun a b => if a.ult b then 1 else 0),
      ite_slt _ _ _ _ ▸ scalarAB_ready h (fun a b => if a.slt b then a else b),
      ite_slt _ _ _ _ ▸ scalarAB_ready h (fun a b => if a.slt b then b else a)⟩
  case immediate =>
    exact ⟨scalarAI_ready h (· + RIimm x), scalarAI_ready h (· &&& RIimmZ x), scalarAI_ready h (· ||| RIimmZ x),
      scalarAI_ready h (· ^^^ RIimmZ x), shiftI_ready h (· <<< ·), shiftI_ready h (· >>> ·), shiftI_ready h (BitVec.sshiftRight · ·)⟩
  case lui => exact congrArg Host.Outcome.next (runReed_done h rfl)
  case branches =>
    exact ⟨branch_ready h (fun a b => decide (a = b)) decide_eq_true_iff, branch_ready h (fun a b => decide (a ≠ b)) decide_eq_true_iff,
      branch_ready h (fun a b => a.slt b) BitVec.slt_iff_toInt_lt, branch_ready h (fun a b => !a.slt b) (by simp [BitVec.slt]),
      branch_ready h (fun a b => a.ult b) BitVec.ult_iff_toNat_lt, branch_ready h (fun a b => !a.ult b) (by simp [BitVec.ult])⟩
  case jal => exact runReed_jump h rfl
  case jr => exact runReed_jump h rfl

/-! ### Control registers -/

section
variable (r : Reed) (n : Nat) (v : DWord)

/-- The control registers of R117, in the order of their numbers. -/
theorem Reed.cr_of_le (h : n ≤ 8) :
    r.cr n = some ([r.mode, r.tcfg, r.srSeed, r.srStream, r.srBase, r.prog, r.role, r.statSrc, r.statStride].getD n 0) := by
  match n, h with
  | 0, _ | 1, _ | 2, _ | 3, _ | 4, _ | 5, _ | 6, _ | 7, _ | 8, _ => rfl

theorem Reed.cr_of_gt (h : 8 < n) : r.cr n = none := by
  obtain ⟨k, rfl⟩ := Nat.exists_eq_add_of_le' (show 9 ≤ n from h)
  rfl

/-- A write of mode must leave its reserved bits 0 (R118). -/
theorem Reed.crw_mode : r.crw 0 v = if v.toNat < 8 then some { r with mode := v } else none := rfl

/-- A read-only or a reserved control register cannot be written (R118). -/
theorem Reed.crw_none (h : n = 1 ∨ 4 < n) : r.crw n v = none := by
  rcases h with rfl | h
  · rfl
  · obtain ⟨k, rfl⟩ := Nat.exists_eq_add_of_le' (show 5 ≤ n from h)
    rfl

variable {r n v} {x : RI} {s : State}

theorem execCrr_some (h : ready { d := true, imm := true } x s = true) (hv : (s.reed x.reed).cr x.imm.toNat = some v) :
    exec (.crr x) s = .next (s.setReed x.reed ((s.reed x.reed).sset x.d v).advanced) :=
  congrArg Host.Outcome.next (runReed_done h (by simp only [hv]))

theorem execCrr_none (h : ready { d := true, imm := true } x s = true) (hv : (s.reed x.reed).cr x.imm.toNat = none) :
    exec (.crr x) s = .next (s.reedExc x.reed 0x02 0 0) :=
  congrArg Host.Outcome.next (runReed_exc h (by simp only [hv]))

theorem execCrw_some (h : ready { a := true, imm := true } x s = true)
    (hv : (s.reed x.reed).crw x.imm.toNat ((s.reed x.reed).sget x.a) = some r) :
    exec (.crw x) s = .next (s.setReed x.reed r.advanced) :=
  congrArg Host.Outcome.next (runReed_done h (by simp only [hv]))

theorem execCrw_none (h : ready { a := true, imm := true } x s = true)
    (hv : (s.reed x.reed).crw x.imm.toNat ((s.reed x.reed).sget x.a) = none) :
    exec (.crw x) s = .next (s.reedExc x.reed 0x02 0 0) :=
  congrArg Host.Outcome.next (runReed_exc h (by simp only [hv]))

end

/-- Settles O9: a control register that is there is read or written, and any other is the illegal operand. -/
theorem controlRegisterInstructions : Obligations.ControlRegisterInstructions := by
  intro x s
  refine ⟨fun h => congrArg Host.Outcome.next (runReed_done h rfl),
    fun h => ⟨fun hn => execCrr_some h (Reed.cr_of_le _ _ hn), fun hn => execCrr_none h (Reed.cr_of_gt _ _ hn)⟩,
    fun h => ⟨fun hn => ?mode, fun hn => execCrw_some h (hn ▸ rfl), fun hn => execCrw_some h (hn ▸ rfl),
      fun hn => execCrw_some h (hn ▸ rfl), fun hn => execCrw_none h (Reed.crw_none _ _ _ hn)⟩,
    fun h => stoppedOn_reedExc s x.reed 0x02 0 0 h (by decide)⟩
  case mode =>
    split
    · next hv => exact execCrw_some h (hn ▸ (Reed.crw_mode _ _).trans (if_pos hv))
    · next hv => exact execCrw_none h (hn ▸ (Reed.crw_mode _ _).trans (if_neg hv))

end Sys2Proof.Machine

/-! PROOFS. The lane, arithmetic and mask instructions of a reed (R122 to R126, R134, R135, R185). -/
namespace Sys2Proof.Machine
open Sys2Proof.Laws

section
variable {x : RI} {u : Uses} {s t : State} {body : State → Reed → RRes}

/-- A ready instruction that completes, as the meaning of a command. -/
theorem next_runReed_done {q : Reed} (h : ready u x s = true) (hb : body s (s.reed x.reed) = .done t q) :
    (.next (runReed x u s body) : Res) = .next (t.setReed x.reed q.advanced) :=
  congrArg Host.Outcome.next (runReed_done h hb)

/-- A ready instruction that raises an exception, as the meaning of a command. -/
theorem next_runReed_exc {code detail addr : Nat} (h : ready u x s = true)
    (hb : body s (s.reed x.reed) = .exc t code detail addr) :
    (.next (runReed x u s body) : Res) = .next (t.reedExc x.reed code detail addr) :=
  congrArg Host.Outcome.next (runReed_exc h hb)

/-- A ready instruction that waits, as the meaning of a command. -/
theorem next_runReed_hold {q : Reed} {w : Wait} (h : ready u x s = true) (hb : body s (s.reed x.reed) = .hold t q w) :
    (.next (runReed x u s body) : Res) = .next (t.setReed x.reed { q with wait := w }) :=
  congrArg Host.Outcome.next (runReed_hold h hb)

end

/-- Settles O13: the body of each instruction completes, where its fn is defined. -/
theorem laneInstructions : Obligations.LaneInstructions := by
  intro x s
  refine ⟨fun h => ⟨next_runReed_done h rfl, next_runReed_done h rfl⟩,
    fun h hf => next_runReed_done h (if_neg (Nat.not_le.mpr hf)),
    fun h hf hfmt => next_runReed_done h (if_neg ?fn),
    fun h => ⟨next_runReed_done h rfl, next_runReed_done h rfl, next_runReed_done h rfl⟩,
    fun h => next_runReed_done h rfl, fun h => next_runReed_done h rfl⟩
  case fn =>
    rintro (h3 | ⟨h1, h0⟩)
    · exact Nat.not_le.mpr hf h3
    · exact h0 (hfmt h1)

/-! ### Arithmetic -/

/-- The formats of vector arithmetic (R124). -/
theorem arithFmt_iff (fmt : Nat) : arithFmt fmt = true ↔ fmt = 2 ∨ fmt = 7 := by simp [arithFmt]

theorem arithFmt_false_iff (fmt : Nat) : arithFmt fmt = false ↔ ¬(fmt = 2 ∨ fmt = 7) := by
  rw [← arithFmt_iff, Bool.not_eq_true]

section
variable {x : RI} {s : State}

/-- VOP on a format and a function that the table pairs (R124). -/
theorem execVop_done (h : ready { d := true, a := true, b := true, fmt := true, m := true, fn := true } x s = true)
    (har : x.fmt = 2 ∨ x.fmt = 7) (hfn : x.fn < 5 ∨ (x.fn < 11 ∧ x.fmt = 2) ∨ (x.fn < 13 ∧ x.b = 0 ∧ 10 < x.fn)) :
    let r := s.reed x.reed
    exec (.vop x) s = .next (s.setReed x.reed (r.vwrite x.d (r.mget x.m)
      (fun e => vop x.fn x.fmt r.ieee r.wrapMode (r.vget x.a e) (r.vget x.b e))).advanced) := by
  refine next_runReed_done h ((if_neg (by omega)).trans ((if_neg (by omega)).trans (if_neg ?_)))
  rw [arithFmt_false_iff]
  omega

theorem execVop_undefined (h : ready { d := true, a := true, b := true, fmt := true, m := true, fn := true } x s = true)
    (hfn : 13 ≤ x.fn) : exec (.vop x) s = .next (s.reedExc x.reed 1 0 0) :=
  next_runReed_exc h (if_pos hfn)

theorem execVop_badFormat (h : ready { d := true, a := true, b := true, fmt := true, m := true, fn := true } x s = true)
    (hfn : x.fn < 11) (har : ¬(x.fmt = 2 ∨ x.fmt = 7)) : exec (.vop x) s = .next (s.reedExc x.reed 2 0 0) :=
  next_runReed_exc h ((if_neg (by omega)).trans ((if_neg (by omega)).trans (if_pos (.inl ((arithFmt_false_iff _).mpr har)))))

/-- VCMP writes a mask register other than m0 (R124, R125). -/
theorem execVcmp_done (h : ready { d := true, a := true, b := true, fmt := true, m := true, fn := true } x s = true)
    (hfn : x.fn < 4) (har : x.fmt = 2 ∨ x.fmt = 7) (h0 : 0 < x.d) (h8 : x.d < 8) :
    let r := s.reed x.reed
    exec (.vcmp x) s = .next (s.setReed x.reed (r.mset x.d (maskBits (r.mget x.m) (r.mget x.d)
      (fun e => vcmp x.fn x.fmt (r.vget x.a e) (r.vget x.b e)) 32)).advanced) :=
  next_runReed_done h ((if_neg (by omega)).trans (if_neg (Bool.not_eq_false _ ▸ (arithFmt_iff _).mpr har)))

theorem execVcmp_undefined (h : ready { d := true, a := true, b := true, fmt := true, m := true, fn := true } x s = true)
    (hbad : 4 ≤ x.fn ∨ x.d = 0 ∨ 8 ≤ x.d) : exec (.vcmp x) s = .next (s.reedExc x.reed 1 0 0) :=
  next_runReed_exc h (if_pos hbad)

/-- VREDL leaves the reduction of the enabled lanes in lane 0 (R135). -/
theorem execVredl_done (h : ready { d := true, a := true, fmt := true, m := true, fn := true } x s = true) (hfn : x.fn < 3)
    (har : x.fmt = 2 ∨ x.fmt = 7) :
    let r := s.reed x.reed
    exec (.vredl x) s = .next (s.setReed x.reed (r.lane0 x.d (reduce x.fn x.fmt r.ieee r.wrapMode
      (fun e => if (r.mget x.m).getLsbD e then some (r.vget x.a e) else none))).advanced) :=
  next_runReed_done h ((if_neg (Nat.not_le.mpr hfn)).trans (if_neg (Bool.not_eq_false _ ▸ (arithFmt_iff _).mpr har)))

/-! ### Masks -/

/-- The result of MOP by its function (R124). -/
def mopResult (fn : Nat) (a b : Word) : Word :=
  if fn = 0 then a &&& b else if fn = 1 then a ||| b else if fn = 2 then a ^^^ b else ~~~ a

/-- MOP with a defined function on mask registers (R124, R125). -/
theorem execMop_done (h : ready { d := true, a := true, b := true, fn := true } x s = true) (h0 : 0 < x.d) (h8 : x.d < 8)
    (ha : x.a < 8) (hb : x.b < 8) (hfn : x.fn < 4) (hn : x.fn = 3 → x.b = 0) :
    let r := s.reed x.reed
    exec (.mop x) s = .next (s.setReed x.reed (r.mset x.d (mopResult x.fn (r.mget x.a) (r.mget x.b))).advanced) :=
  next_runReed_done h (if_neg (by omega))

end

/-- Settles O14: the lemma about each instruction; what is left are the tests of MSET and MGET. -/
theorem arithmeticAndMaskInstructions : Obligations.ArithmeticAndMaskInstructions := by
  intro x s
  refine ⟨fun h => ⟨execVop_done h, execVop_undefined h, execVop_badFormat h, execVcmp_done h, execVcmp_undefined h⟩,
    fun h => ⟨fun har => next_runReed_done h (if_neg (Bool.not_eq_false _ ▸ (arithFmt_iff _).mpr har)),
      fun har => next_runReed_exc h (if_pos ((arithFmt_false_iff _).mpr har))⟩,
    execVredl_done, fun h h0 h8 ha => ⟨fun hb => ⟨fun hf => ?and, fun hf => ?or, fun hf => ?xor⟩, fun hf hb => ?not,
      fun hf => next_runReed_exc h (if_pos (.inl hf))⟩,
    fun h => ⟨fun h0 h8 => next_runReed_done h (if_neg (by omega)), fun hd => next_runReed_exc h (if_pos hd),
      fun ha => next_runReed_done h (if_neg (Nat.not_le.mpr ha)), fun ha => next_runReed_exc h (if_pos ha)⟩⟩
  case and =>
    rw [execMop_done h h0 h8 ha hb (by omega) (by omega), hf]
    rfl
  case or =>
    rw [execMop_done h h0 h8 ha hb (by omega) (by omega), hf]
    rfl
  case xor =>
    rw [execMop_done h h0 h8 ha hb (by omega) (by omega), hf]
    rfl
  case not =>
    rw [execMop_done h h0 h8 ha (by omega) (by omega) (fun _ => hb), hf]
    rfl

end Sys2Proof.Machine

/-! PROOFS. Vector loads and stores of a reed (R132, R133). -/
namespace Sys2Proof.Machine
open Sys2Proof.Laws

/-- Where every enabled element can be accessed, none is the first that cannot. -/
theorem firstBad_none {ok : Nat → SramRes} (addr : Nat → Nat) {mask : Word} {n : Nat}
    (h : ∀ e : Nat, e < n → mask.getLsbD e = true → ok e = .ok) : firstBad ok addr mask n = none := by
  induction n with
  | zero => rfl
  | succ n ih =>
    unfold firstBad
    rw [ih fun e he => h e (Nat.lt_succ_of_lt he)]
    refine if_neg fun hbad => ?_
    obtain ⟨hm, hne⟩ := Bool.and_eq_true_iff.mp hbad
    exact of_decide_eq_true hne (h n (Nat.lt_succ_self n) hm)

section
variable {x : RI} {u : Uses} {s : State} {strided : Bool}

/-- The address that a load or a store names: s[a] + sext(imm) (R123, R132). -/
def RI.address (x : RI) (r : Reed) : Nat := (r.sget x.a + x.imm.signExtend 64).toNat

/-- The stride of a vector access: the register's in a strided form, else the element's size (R132). -/
def vstride (x : RI) (strided : Bool) (r : Reed) : Nat := if strided then (r.sget x.c).toNat else elemAlign x.fmt

/-- A strided form of INT4 is an illegal operand (R132, log entry 185). -/
theorem vload_int4 (h : ready u x s = true) (h4 : x.fmt = 0) : (.next (vload x u true s) : Res) = .next (s.reedExc x.reed 0x02 0 0) :=
  next_runReed_exc h (if_pos ⟨rfl, h4⟩)

theorem vstore_int4 (h : ready u x s = true) (h4 : x.fmt = 0) : (.next (vstore x u true s) : Res) = .next (s.reedExc x.reed 0x02 0 0) :=
  next_runReed_exc h (if_pos ⟨rfl, h4⟩)

/-- A vector load of which every enabled element can be read (R132). -/
theorem vload_done (h : ready u x s = true) (h4 : ¬(strided = true ∧ x.fmt = 0)) :
    let r := s.reed x.reed
    let base := x.address r
    let stride := vstride x strided r
    let k := r.mget x.m
    base % elemAlign x.fmt = 0 →
    (∀ e : Nat, e < 32 → k.getLsbD e = true → s.sramCheck x.reed false (elemAt x.fmt base stride e).1
      (elemAt x.fmt base stride e).2.1 (elemAlign x.fmt) = .ok) →
    (.next (vload x u strided s) : Res) = .next ((s.elemsNote x.reed x.fmt base stride k 32).setReed x.reed
      (r.vwrite x.d k (fun e => widen x.fmt (s.elemRead x.reed x.fmt base stride e))).advanced) := by
  intro r base stride k hal hok
  refine next_runReed_done h ((if_neg h4).trans ((if_neg (not_not.mpr hal)).trans ?_))
  have hfirst := firstBad_none (fun e => (elemAt x.fmt base stride e).1) hok
  dsimp only
  split
  · next hbad => cases hbad.symm.trans hfirst
  · next hbad => cases hbad.symm.trans hfirst
  · rfl

/-- A vector store of which every enabled element can be stored (R132, R133). -/
theorem vstore_done (h : ready u x s = true) (h4 : ¬(strided = true ∧ x.fmt = 0)) :
    let r := s.reed x.reed
    let base := x.address r
    let stride := vstride x strided r
    let k := r.mget x.m
    base % elemAlign x.fmt = 0 →
    (∀ e : Nat, e < 32 → k.getLsbD e = true → s.storeCheck x.reed (elemAt x.fmt base stride e).1
      (elemAt x.fmt base stride e).2.1 (elemAlign x.fmt) = .ok) →
    (.next (vstore x u strided s) : Res) = .next ((((s.elemsNote x.reed x.fmt base stride k 32).elemsWrite x.reed x.fmt base stride k
      (fun e => narrow x.fmt r.ieee (r.rnd e) (r.vget x.b e)) 32).drew x.reed
        (if 3 ≤ x.fmt ∧ x.fmt ≤ 6 ∧ r.stoch = true then popcount 32 k.toNat else 0)).setReed x.reed r.advanced) := by
  intro r base stride k hal hok
  have hdraw : (decide (3 ≤ x.fmt) && decide (x.fmt ≤ 6) && r.stoch) = true ↔ 3 ≤ x.fmt ∧ x.fmt ≤ 6 ∧ r.stoch = true := by
    simp [and_assoc]
  simp only [← hdraw]
  refine next_runReed_done h ((if_neg h4).trans ((if_neg (not_not.mpr hal)).trans ?_))
  have hfirst := firstBad_none (fun e => (elemAt x.fmt base stride e).1) hok
  dsimp only
  split
  · next hbad => cases hbad.symm.trans hfirst
  · next hbad => cases hbad.symm.trans hfirst
  · rfl

end

/-- Settles O12: each form is the one vector load or store, strided or not. -/
theorem vectorLoadsAndStores : Obligations.VectorLoadsAndStores := by
  intro x s
  have plain : ¬(false = true ∧ x.fmt = 0) := fun h => Bool.false_ne_true h.1
  exact ⟨fun h hal hok => vload_done h plain hal hok,
    fun h => ⟨fun h4 => vload_int4 h h4, fun h4 hal hok => vload_done (strided := true) h (fun h' => h4 h'.2) hal hok⟩,
    fun h hal hok => vstore_done h plain hal hok,
    fun h => ⟨fun h4 => vstore_int4 h h4, fun h4 hal hok => vstore_done (strided := true) h (fun h' => h4 h'.2) hal hok⟩⟩

end Sys2Proof.Machine

/-! PROOFS. Scalar loads and stores of a reed (R123, R142, R149). -/
namespace Sys2Proof.Machine
open Sys2Proof.Laws

/-! ### Words without errors -/

section
variable (s : State)

/-- Physical bytes none of which lies in a word with an error. -/
def State.cleanAt (ps : List Nat) : Prop := ∀ p ∈ ps, s.flipOf p = 0

variable {s} {p : Nat} {ps : List Nat}

theorem badByte_of_clean (h : s.flipOf p = 0) : s.badByte p = false := by simp [State.badByte, h]

theorem readByte_of_clean (h : s.flipOf p = 0) : s.readByte p = s.mem.byte p := by
  simp [State.readByte, readError, h]

theorem noteWord_of_clean (h : s.flipOf p = 0) : s.noteWord p = s := by
  have : syndrome (s.flipOf p) = 0 := by rw [h]; decide
  exact if_pos this

theorem anyBad_of_clean (h : s.cleanAt ps) : s.anyBad ps = false :=
  List.any_eq_false.mpr fun p hp => Bool.not_eq_true _ ▸ badByte_of_clean (h p hp)

theorem partialBad_of_clean (h : s.cleanAt ps) : s.partialBad ps = false :=
  List.any_eq_false.mpr fun p hp => by rw [badByte_of_clean (h p hp)]; exact Bool.false_ne_true

theorem readPhys_of_clean (h : s.cleanAt ps) : s.readPhys ps = ps.map s.mem.byte :=
  List.map_congr_left fun p hp => readByte_of_clean (h p hp)

theorem mem_of_mem_wordsAt (h : p ∈ wordsAt ps) : p ∈ ps := by
  cases ps with
  | nil => exact h
  | cons q qs => exact (List.mem_cons.mp h).elim (· ▸ List.mem_cons_self) (fun h' => List.mem_cons_of_mem _ (List.mem_filter.mp h').1)

theorem foldl_noteWord_of_clean (h : s.cleanAt ps) : ps.foldl (fun t p => t.noteWord p) s = s := by
  induction ps with
  | nil => rfl
  | cons q qs ih =>
    rw [List.foldl_cons, noteWord_of_clean (h q List.mem_cons_self)]
    exact ih fun p hp => h p (List.mem_cons_of_mem _ hp)

/-- A write that covers words without errors in part corrects nothing (R196). -/
theorem notePartial_of_clean (h : s.cleanAt ps) : s.notePartial ps = s := by
  unfold State.notePartial
  split
  · rfl
  · exact foldl_noteWord_of_clean fun p hp => h p (mem_of_mem_wordsAt (List.mem_filter.mp hp).1)

/-- A read of words without errors records none (R213). -/
theorem eccReedRead_of_clean {x : ReedRef} {offs : List Nat} (h : ∀ off ∈ offs, s.flipOf (reedSram x off) = 0) :
    s.eccReedRead x offs = s := by
  induction offs with
  | nil => rfl
  | cons off offs ih =>
    have : syndrome (s.flipOf (reedSram x off)) = 0 := by rw [h off List.mem_cons_self]; decide
    unfold State.eccReedRead
    dsimp only
    rw [if_pos this]
    exact ih fun o ho => h o (List.mem_cons_of_mem _ ho)

end

/-! ### Bytes of a reed's SRAM -/

section
variable {s : State} {x : ReedRef} {a n : Nat}

/-- The physical bytes of `n` bytes of reed SRAM. -/
def sramBytes (x : ReedRef) (a n : Nat) : List Nat := (List.range n).map (fun i => reedSram x (a + i))

theorem cleanAt_sramBytes (h : clean s x a n) : s.cleanAt (sramBytes x a n) := by
  intro p hp
  obtain ⟨i, hi, rfl⟩ := List.mem_map.mp hp
  exact h i (List.mem_range.mp hi)

/-- Offsets of one word share its error pattern. -/
theorem flipOf_reedSram_word {b c : Nat} (h : b / 8 = c / 8) : s.flipOf (reedSram x b) = s.flipOf (reedSram x c) := by
  have : reedSram x b / 8 = reedSram x c / 8 := by unfold reedSram sramBase; omega
  unfold State.flipOf
  rw [this]

/-- Every word of an access holds one of its bytes. -/
theorem noteRead_of_clean (hn : 0 < n) (h : clean s x a n) : s.noteRead x a n = s := by
  refine eccReedRead_of_clean fun off hoff => ?_
  obtain ⟨i, hi, rfl⟩ := List.mem_map.mp hoff
  have hi := List.mem_range.mp hi
  by_cases h0 : i = 0
  · exact (flipOf_reedSram_word (by omega)).trans (h 0 (by omega))
  · exact (flipOf_reedSram_word (by omega)).trans (h ((a / 8 + i) * 8 - a) (by omega))

theorem ownRange_of_owned (h : owned s x a n) : s.ownRange x a n = .ok := by
  refine if_pos (List.all_eq_true.mpr fun i hi => decide_eq_true ?_)
  exact h.2 i (List.mem_range.mp hi)

theorem bits_bank_lt (a : Nat) : bits a 21 19 < 8 := Nat.mod_lt _ (by decide)

theorem ownRange_of_banks (h : ∀ b : Nat, b < 8 → s.reedBank x b = (0, 1)) : s.ownRange x a n = .ok :=
  if_pos (List.all_eq_true.mpr fun _ _ => decide_eq_true (h _ (bits_bank_lt _)))

/-- Where the reed owns every bank, an exception counts no refused access (R198). -/
theorem noteExc_of_banks (h : ∀ b : Nat, b < 8 → s.reedBank x b = (0, 1)) : s.noteExc x 4 a n = s := by
  unfold State.noteExc
  rw [if_neg (by decide), if_neg]
  rintro ⟨_, _, hany⟩
  obtain ⟨i, _, hi⟩ := List.any_eq_true.mp hany
  exact of_decide_eq_true hi (h _ (bits_bank_lt _))

/-- The little-endian value of bytes in a row. -/
theorem leOf_map_byte (m : Memory) (p n : Nat) : leOf ((List.range n).map (fun i => m.byte (p + i))) = m.le p n := by
  induction n generalizing p with
  | zero => rfl
  | succ n ih =>
    rw [List.range_succ_eq_map, List.map_cons, List.map_map, leOf, Memory.le, ← ih (p + 1)]
    simp only [Function.comp_def, Nat.add_zero, Nat.succ_eq_add_one, Nat.add_assoc, Nat.add_comm 1]

theorem reedSram_add (x : ReedRef) (a i : Nat) : reedSram x (a + i) = reedSram x a + i := (Nat.add_assoc _ _ _).symm

theorem sramRead_of_clean (h : clean s x a n) : s.sramRead x a n = s.mem.le (reedSram x a) n := by
  have hread := readPhys_of_clean (cleanAt_sramBytes h)
  unfold sramBytes at hread
  unfold State.sramRead
  rw [hread, List.map_map, ← leOf_map_byte]
  simp only [Function.comp_def, reedSram_add]

end

/-! ### What a store writes -/

theorem byte_setLe (m : Memory) (p : Nat) {n i : Nat} (v : Nat) (h : i < n) : (m.setLe p n v).byte (p + i) = BitVec.ofNat 8 (v / 256 ^ i) := by
  induction n generalizing m p v i with
  | zero => exact absurd h (Nat.not_lt_zero i)
  | succ n ih =>
    unfold Memory.setLe
    cases i with
    | zero => rw [byte_setLe_other _ _ _ _ _ (by omega), Nat.add_zero, byte_setByte_same, Nat.pow_zero, Nat.div_one]
    | succ i =>
      rw [Nat.add_comm i 1, ← Nat.add_assoc, ih _ _ _ (Nat.lt_of_succ_lt_succ h), Nat.div_div_eq_div_mul, Nat.pow_add, Nat.pow_one]

section
variable {s : State} {p n : Nat}

/-- Fresh check bits of a word without an error change nothing that is read. -/
theorem settle_of_clean (h : s.flipOf p = 0) : (s.settle p).mem = s.mem ∧ (∀ q : Nat, (s.settle p).flipOf q = s.flipOf q) ∧
    { s.settle p with mem := s.mem, flip := s.flip } = s := by
  refine ⟨by simp [State.settle, h, readError], fun q => ?_, rfl⟩
  unfold State.flipOf at h ⊢
  refine (get_set (fun _ => 0) s.flip (p / 8) (q / 8) 0).trans ?_
  split
  · next hq => rw [← hq, h]
  · rfl

/-- A little-endian number written to bytes in a row of words without errors. -/
theorem writePhys_of_clean (v : Nat) (h : s.cleanAt ((List.range n).map (p + ·))) :
    let t := s.writePhys ((List.range n).map (p + ·)) (leBytes n v)
    t.mem = s.mem.setLe p n v ∧ (∀ q : Nat, t.flipOf q = s.flipOf q) ∧ { t with mem := s.mem, flip := s.flip } = s := by
  induction n generalizing s p v with
  | zero => exact ⟨rfl, fun _ => rfl, rfl⟩
  | succ n ih =>
    have hrow : (List.range (n + 1)).map (p + ·) = p :: (List.range n).map (p + 1 + ·) := by
      rw [List.range_succ_eq_map, List.map_cons, List.map_map]
      simp only [Function.comp_def, Nat.succ_eq_add_one, Nat.add_assoc, Nat.add_comm 1, Nat.add_zero]
    rw [hrow] at h ⊢
    obtain ⟨hmem, hflip, hframe⟩ := settle_of_clean (h p List.mem_cons_self)
    let s1 : State := { s.settle p with mem := (s.settle p).mem.setByte p (BitVec.ofNat 8 v) }
    have hclean : s1.cleanAt ((List.range n).map (p + 1 + ·)) := fun q hq => (hflip q).trans (h q (List.mem_cons_of_mem _ hq))
    obtain ⟨jmem, jflip, jframe⟩ := ih (s := s1) (v / 256) hclean
    refine ⟨jmem.trans (congrArg (fun m : Memory => (m.setByte p _).setLe (p + 1) n (v / 256)) hmem),
      fun q => (jflip q).trans (hflip q), ?_⟩
    exact (congrArg (fun u : State => { u with mem := s.mem, flip := s.flip }) jframe).trans hframe

end

/-! ### The checks of an access -/

section
variable {s : State} {x : ReedRef} {a n : Nat}

theorem sramCheck_load_ok (ho : owned s x a n) (hc : clean s x a n) (hal : a % n = 0) : s.sramCheck x false a n n = .ok := by
  have hrange : ¬ (2 ^ 22 < a + n ∨ a % n ≠ 0) := not_or.mpr ⟨Nat.not_lt.mpr ho.1, not_not.mpr hal⟩
  have hbad := anyBad_of_clean (cleanAt_sramBytes hc)
  unfold sramBytes at hbad
  unfold State.sramCheck
  simp only [hrange, ownRange_of_owned ho, hbad, if_false, ne_eq, not_true_eq_false, Bool.false_and, Bool.false_eq_true]

/-- A store that nothing holds back (R142). -/
theorem storeCheck_ok (ho : owned s x a n) (hc : clean s x a n) (hal : a % n = 0) (hs : storable s x a n) :
    s.storeCheck x a n n = .ok := by
  obtain ⟨hw, ha, hsrc⟩ := hs
  have hrange : ¬ (2 ^ 22 < a + n ∨ a % n ≠ 0) := not_or.mpr ⟨Nat.not_lt.mpr ho.1, not_not.mpr hal⟩
  have hbad := partialBad_of_clean (cleanAt_sramBytes hc)
  unfold sramBytes at hbad
  have hpermitted : (s.permittedSrcs x).any (fun p => decide (a < p.1 + p.2) && decide (p.1 < a + n)) = false :=
    List.any_eq_false.mpr fun p hp => by have := hsrc p hp; simp; omega
  have hissued : (s.reed x).a.writes.any (fun w => decide (a < w.src + 4096) && decide (w.src < a + n)) = false := by
    refine List.any_eq_false.mpr fun w hw => ?_
    have := hsrc (w.src, 4096) (List.mem_append_left _ (List.mem_map_of_mem hw))
    simp
    omega
  have hcheck : s.sramCheck x true a n n = .ok := by
    unfold State.sramCheck
    simp only [hrange, ownRange_of_owned ho, hw, ha, hissued, hbad, if_false, ne_eq, not_true_eq_false, Bool.and_false, Bool.or_self,
      Bool.false_eq_true, if_true]
  unfold State.storeCheck
  simp only [hcheck, hpermitted, Bool.false_eq_true, if_false]

/-- An access past the end of the SRAM or off its alignment (R149). -/
theorem sramCheck_range (store : Bool) (h : 2 ^ 22 < a + n ∨ a % n ≠ 0) : s.sramCheck x store a n n = .exc 0x04 := if_pos h

/-- A store that touches the queue region of an enabled engine (R142). -/
theorem sramCheck_queue (hb : ∀ b : Nat, b < 8 → s.reedBank x b = (0, 1))
    (h : queueHit (s.reed x).w (s.qbase x false) a n = true ∨ queueHit (s.reed x).a (s.qbase x true) a n = true) :
    s.sramCheck x true a n n = .exc 0x04 := by
  by_cases hr : 2 ^ 22 < a + n ∨ a % n ≠ 0
  · exact sramCheck_range true hr
  · have hq : (queueHit (s.reed x).w (s.qbase x false) a n || queueHit (s.reed x).a (s.qbase x true) a n) = true :=
      Bool.or_eq_true_iff.mpr h
    unfold State.sramCheck
    simp only [hr, ownRange_of_banks hb, hq, if_false, ne_eq, not_true_eq_false, Bool.and_self, if_true]

theorem storeCheck_exc {c : Nat} (h : s.sramCheck x true a n n = .exc c) : s.storeCheck x a n n = .exc c := by
  unfold State.storeCheck
  rw [h]

end

/-! ### Loads and stores -/

section
variable {x : RI} {s : State} {n : Nat}

/-- A load whose access proceeds. -/
theorem load_done (h : ready { d := true, a := true, imm := true } x s = true) (f : Nat → DWord) :
    let r := s.reed x.reed
    let a := x.address r
    s.sramCheck x.reed false a n n = .ok → (.next (load x s n f) : Res) =
      .next ((s.noteRead x.reed a n).setReed x.reed (r.sset x.d (f (s.sramRead x.reed a n))).advanced) := by
  intro r a hc
  refine next_runReed_done h ?_
  dsimp only
  split
  · next hx => cases hx.symm.trans hc
  · next hx => cases hx.symm.trans hc
  · rfl

/-- A load whose access is refused. -/
theorem load_exc (h : ready { d := true, a := true, imm := true } x s = true) (f : Nat → DWord) (c : Nat) :
    let a := x.address (s.reed x.reed)
    s.sramCheck x.reed false a n n = .exc c → (.next (load x s n f) : Res) =
      .next ((s.noteExc x.reed c a n).reedExc x.reed c 0 (a % 2 ^ 48)) := by
  intro a hc
  refine next_runReed_exc h ?_
  dsimp only
  split
  · next hx =>
    cases hx.symm.trans hc
    rfl
  · next hx => cases hx.symm.trans hc
  · next hx => cases hx.symm.trans hc

/-- A store whose access proceeds. -/
theorem store_done (h : ready { a := true, b := true, imm := true } x s = true) :
    let r := s.reed x.reed
    let a := x.address r
    s.storeCheck x.reed a n n = .ok → (.next (store x s n) : Res) =
      .next (((s.noteStore x.reed a n).sramWrite x.reed a n (r.sget x.b).toNat).setReed x.reed r.advanced) := by
  intro r a hc
  refine next_runReed_done h ?_
  dsimp only
  split
  · next hx => cases hx.symm.trans hc
  · next hx => cases hx.symm.trans hc
  · rfl

/-- A store whose access is refused. -/
theorem store_exc (h : ready { a := true, b := true, imm := true } x s = true) (c : Nat) :
    let a := x.address (s.reed x.reed)
    s.storeCheck x.reed a n n = .exc c → (.next (store x s n) : Res) =
      .next ((s.noteExc x.reed c a n).reedExc x.reed c 0 (a % 2 ^ 48)) := by
  intro a hc
  refine next_runReed_exc h ?_
  dsimp only
  split
  · next hx =>
    cases hx.symm.trans hc
    rfl
  · next hx => cases hx.symm.trans hc
  · next hx => cases hx.symm.trans hc

/-- An aligned load of words without errors reads memory (R123). -/
theorem load_clean (h : ready { d := true, a := true, imm := true } x s = true) (f : Nat → DWord) (hn : 0 < n) :
    let r := s.reed x.reed
    let a := x.address r
    owned s x.reed a n → clean s x.reed a n → a % n = 0 →
      (.next (load x s n f) : Res) = .next (s.setReed x.reed (r.sset x.d (f (s.mem.le (reedSram x.reed a) n))).advanced) := by
  intro r a ho hc hal
  rw [load_done h f (sramCheck_load_ok ho hc hal), noteRead_of_clean hn hc, sramRead_of_clean hc]

/-- An aligned store to words without errors writes its bytes alone (R123, R142). -/
theorem store_clean (h : ready { a := true, b := true, imm := true } x s = true) :
    let r := s.reed x.reed
    let a := x.address r
    owned s x.reed a n → clean s x.reed a n → a % n = 0 → storable s x.reed a n →
      ∃ t : State, (.next (store x s n) : Res) = .next t ∧ stored x.reed a n (r.sget x.b).toNat s t ∧ t.reed x.reed = r.advanced := by
  intro r a ho hc hal hs
  have hclean : s.cleanAt ((List.range n).map (reedSram x.reed a + ·)) := by
    simpa only [sramBytes, reedSram_add] using cleanAt_sramBytes hc
  have hnote : s.noteStore x.reed a n = s := notePartial_of_clean (cleanAt_sramBytes hc)
  have hwrite : s.sramWrite x.reed a n (r.sget x.b).toNat =
      s.writePhys ((List.range n).map (reedSram x.reed a + ·)) (leBytes n (r.sget x.b).toNat) := by
    simp only [State.sramWrite, reedSram_add]
  obtain ⟨hmem, hflip, hframe⟩ := writePhys_of_clean (r.sget x.b).toNat hclean
  rw [store_done h (storeCheck_ok ho hc hal hs), hnote, hwrite]
  refine ⟨_, rfl, ⟨fun i hi => ?bytes, fun p hp => ?outside, hflip, fun y hy => ?reeds, ?frame⟩, reed_setReed_same ..⟩
  case bytes => rw [setReed_mem, hmem, reedSram_add, byte_setLe _ _ _ hi]
  case outside => rw [setReed_mem, hmem, byte_setLe_other _ _ _ _ _ hp]
  case reeds =>
    rw [reed_setReed_other _ hy]
    have h := congrArg (fun u : State => u.reed y) hframe
    exact h
  case frame => exact congrArg (fun u : State => { u with reeds := s.reeds }) hframe

/-- An access that is refused at a reed that owns its banks is not counted (R149, R198). -/
theorem load_refused (h : ready { d := true, a := true, imm := true } x s = true) (f : Nat → DWord)
    (hb : ∀ b : Nat, b < 8 → s.reedBank x.reed b = (0, 1)) :
    let a := x.address (s.reed x.reed)
    2 ^ 22 < a + n ∨ a % n ≠ 0 → (.next (load x s n f) : Res) = .next (s.reedExc x.reed 0x04 0 (a % 2 ^ 48)) := by
  intro a hr
  rw [load_exc h f 4 (sramCheck_range false hr), noteExc_of_banks hb]

theorem store_refused (h : ready { a := true, b := true, imm := true } x s = true)
    (hb : ∀ b : Nat, b < 8 → s.reedBank x.reed b = (0, 1)) :
    let r := s.reed x.reed
    let a := x.address r
    2 ^ 22 < a + n ∨ a % n ≠ 0 ∨ (queueHit r.w (s.qbase x.reed false) a n = true ∨ queueHit r.a (s.qbase x.reed true) a n = true) →
      (.next (store x s n) : Res) = .next (s.reedExc x.reed 0x04 0 (a % 2 ^ 48)) := by
  intro r a hr
  have hcheck : s.sramCheck x.reed true a n n = .exc 4 :=
    (or_assoc.mpr hr).elim (sramCheck_range true) (sramCheck_queue hb)
  rw [store_exc h 4 (storeCheck_exc hcheck), noteExc_of_banks hb]

end

/-- Settles O11: the access of 8 bytes and that of 4, served or refused. -/
theorem scalarLoadsAndStores : Obligations.ScalarLoadsAndStores := by
  intro x s
  refine ⟨fun h => ⟨load_clean h _ (by decide), load_clean h _ (by decide)⟩,
    fun h => ⟨store_clean h, store_clean h⟩,
    fun hb => ⟨fun h => ⟨load_refused h _ hb, load_refused h _ hb⟩, fun h => ⟨store_refused h hb, store_refused h hb⟩⟩⟩

end Sys2Proof.Machine

/-! PROOFS. The tongue instructions of a reed and the release of a barrier (R139, R140, R143). -/
namespace Sys2Proof.Machine
open Sys2Proof.Laws

/-- The map with every listed value changed under its own key. -/
def SMap.mapVals {α : Type} (g : Nat → α → α) (m : SMap α) : SMap α := List.map (fun e => (e.1, g e.1 e.2)) m

theorem find_mapVals {α : Type} (g : Nat → α → α) (m : SMap α) (k : Nat) :
    SMap.find? (SMap.mapVals g m) k = (SMap.find? m k).map (g k) := by
  induction m with
  | nil => rfl
  | cons e m ih =>
    obtain ⟨j, v⟩ := e
    by_cases h : j = k
    · subst h
      simp [SMap.mapVals, SMap.find?]
    · simpa [SMap.mapVals, SMap.find?, h] using ih

/-- A change that leaves the default alone is read back at every key. -/
theorem get_mapVals {α : Type} (d : Nat → α) (g : Nat → α → α) (m : SMap α) (k : Nat) (hd : g k (d k) = d k) :
    SMap.get d (SMap.mapVals g m) k = g k (SMap.get d m k) := by
  unfold SMap.get
  rw [find_mapVals]
  cases SMap.find? m k with
  | none => exact hd.symm
  | some v => rfl

/-! ### Barriers -/

/-- What a barrier release does to the reed of a number: one in scope that waits at the barrier goes past it. -/
def State.barPass (s : State) (x : ReedRef) (sc q : Nat) (r : Reed) : Reed :=
  if s.inScope x sc q && decide (r.wait = .bar sc) then r.passBar sc else r

/-- A release that takes place changes the reeds alone, each by `barPass` (R143). -/
theorem releaseBar_eq {s : State} {x : ReedRef} {sc : Nat} (hw : (s.reed x).wait = .bar sc) (hr : s.barReady x sc = true) :
    s.releaseBar x = { s with reeds := SMap.mapVals (s.barPass x sc) s.reeds } := by
  have hf : (fun f : Nat × Reed => if s.inScope x sc f.1 && decide (f.2.wait = .bar sc) then (f.1, f.2.passBar sc) else f) =
      fun f => (f.1, s.barPass x sc f.1 f.2) := by
    funext f
    unfold State.barPass
    split <;> rfl
  unfold State.releaseBar
  rw [hw]
  dsimp only
  rw [if_pos hr, hf]
  rfl

/-- A reed of blank state waits at no barrier. -/
theorem barPass_blank (s : State) (x : ReedRef) (sc q : Nat) : s.barPass x sc q (Reed.blank q) = Reed.blank q := by
  have hb : (Reed.blank q).wait ≠ .bar sc := nofun
  exact if_neg (by simp [hb])

theorem reed_releaseBar {s : State} {x : ReedRef} {sc : Nat} (hw : (s.reed x).wait = .bar sc) (hr : s.barReady x sc = true)
    (y : ReedRef) : (s.releaseBar x).reed y = s.barPass x sc (reedNo y) (s.reed y) := by
  rw [releaseBar_eq hw hr]
  exact get_mapVals _ _ _ _ (barPass_blank s x sc _)

/-! ### The engines -/

section
variable {x : RI} {s : State}

/-- TGO on an idle engine whose queue region is the reed's (R139). -/
theorem execTgo_done (h : ready { a := true, fn := true } x s = true) (hf : x.fn < 2) :
    let r := s.reed x.reed
    let isA := decide (x.fn = 1)
    let e := r.eng isA
    let n := (r.sget x.a).toNat
    e.err = 0 → e.active = false → s.qbase x.reed isA + 4096 * e.slots ≤ 2 ^ 22 →
      (∀ b : Nat, b < 8 → s.reedBank x.reed b = (0, 1)) →
      exec (.tgo x) s = .next ((s.setFld (Blk.reed.at x.reed.die (17 * x.reed.k + x.reed.r) (engCtrl isA)) 0 0 1).setReed
        x.reed (r.setEng isA { enable := true, slots := e.slots, look := e.look, cfgPend := e.cfgPend, active := true,
                               list := n, desc := n }).advanced) := by
  intro r isA e n herr hact hq hb
  refine next_runReed_done h ((if_neg (Nat.not_le.mpr hf)).trans ((if_neg (not_not_intro herr)).trans
    ((if_neg fun hc => ?active).trans (if_neg ?queue))))
  case active => exact absurd (hact.symm.trans hc.1) nofun
  case queue =>
    rintro (hl | hany)
    · exact absurd hl (Nat.not_lt.mpr hq)
    · obtain ⟨i, -, hi⟩ := List.any_eq_true.mp hany
      exact of_decide_eq_true hi (hb _ (bits_bank_lt _))

/-- The oldest landed tiles are released (R139). -/
theorem execTrel_done (h : ready { a := true, fn := true } x s = true) (hf : x.fn < 2) :
    let r := s.reed x.reed
    let isA := decide (x.fn = 1)
    let e := r.eng isA
    let n := (r.sget x.a).toNat
    (isA = true → s.hornOwnsA x.reed = false) → n ≤ e.landedPrefix → (isA = false → e.col = 0) →
      exec (.trel x) s = .next ((s.releaseTiles x.reed isA n).setReed x.reed ((s.releaseTiles x.reed isA n).reed x.reed).advanced) := by
  intro r isA e n hhorn hn hcol
  refine next_runReed_done h ((if_neg (Nat.not_le.mpr hf)).trans ((if_neg fun hc => ?horn).trans
    ((if_neg (Nat.not_lt.mpr hn)).trans (if_neg fun hc => hc.2.2 (hcol hc.1)))))
  case horn => exact absurd ((hhorn hc.1).symm.trans hc.2) nofun

/-- TWAIT on a tile that has been issued waits for it, takes its slot, or stops on its poison (R101, R139, R140). -/
theorem execTwait_issued (h : ready { d := true, a := true, fn := true } x s = true) (hf : x.fn < 2) {t : Tile} :
    let r := s.reed x.reed
    let isA := decide (x.fn = 1)
    let e := r.eng isA
    let n := (r.sget x.a).toNat
    (isA = true → s.hornOwnsA x.reed = false) → n < e.slots → e.tiles[n]? = some t →
      exec (.twait x) s = .next (s.finish x.reed r.ibuf.length (if t.landed = false then .hold s r .tile
        else if t.poison then .exc s 0x07 0 0 else .done s (r.sset x.d (BitVec.ofNat 64 t.slot)))) := by
  intro r isA e n hhorn hn ht
  refine congrArg Host.Outcome.next ((runReed_ready s x _ _ h).trans (congrArg _ ((if_neg (Nat.not_le.mpr hf)).trans
    ((if_neg fun hc => ?horn).trans ((if_neg (Nat.not_le.mpr hn)).trans ?tile)))))
  case horn => exact absurd ((hhorn hc.1).symm.trans hc.2) nofun
  case tile => rw [ht]

/-- BAR of a reed outside groups, where no reed is over: it fences, and then it waits at its barrier (R139, R143). -/
theorem execBar_arrives (h : ready { fn := true } x s = true) (hf : x.fn < 3) (hp : s.inPart (s.reed x.reed) = false)
    (ho : s.reeds.all (fun f => !f.2.over) = true) :
    exec (.bar x) s = .next (s.setReed x.reed { s.reed x.reed with wait := if s.fenceDone x.reed = true then .bar x.fn else .fence }) := by
  have hover : s.reeds.any (fun f => f.2.over && s.inScope x.reed x.fn f.1) = false := by
    refine List.any_eq_false.mpr fun f hf => ?_
    have hfo : f.2.over = false := by simpa using List.all_eq_true.mp ho f hf
    simp [hfo]
  refine next_runReed_hold h ((if_neg (Nat.not_le.mpr hf)).trans ?_)
  cases hd : s.fenceDone x.reed with
  | false => exact if_pos rfl
  | true => exact (if_neg nofun).trans (if_neg (by simp [hp, hover]))

end

/-- Settles O18: each clause from the lemma about its instruction; a released barrier changes each reed by `barPass`. -/
theorem tongueInstructions : Obligations.TongueInstructions := by
  refine ⟨fun x s => ⟨fun h hf => ⟨execTgo_done h hf, execTrel_done h hf⟩,
    fun h hf hhorn hn => ⟨fun t ht hl hp => ?landed, fun t ht hl => ?waiting, fun t ht hl hp => ?poisoned⟩,
    fun h ha => next_runReed_done h (congrArg (RRes.done s) ?tput), fun h hf => next_runReed_done h (if_neg (Nat.not_le.mpr hf)),
    fun h => ?fence, fun h hf hp ho => ?bar⟩, fun x s sc hw hr => ⟨_, rfl, ?frame, fun y hy hin => ?passed, fun y hout => ?outside⟩⟩
  case landed =>
    rw [execTwait_issued h hf hhorn hn ht, if_neg (by simp [hl]), if_neg (by simp [hp])]
    rfl
  case waiting =>
    rw [execTwait_issued h hf hhorn hn ht, if_pos hl]
    rfl
  case poisoned =>
    rw [execTwait_issued h hf hhorn hn ht, if_neg (by simp [hl]), if_pos hp]
    rfl
  case tput => exact congrArg (fun a : Engine => { s.reed x.reed with a := a }) (if_pos ha)
  case fence =>
    split
    · next hd => exact next_runReed_done h (if_pos hd)
    · next hd => exact next_runReed_hold h (if_neg hd)
  case bar =>
    rw [execBar_arrives h hf hp ho]
    split <;> rfl
  case frame => rw [releaseBar_eq hw hr]
  case passed =>
    have hpass : (s.releaseBar x).reed y = (s.reed y).passBar sc := by
      rw [reed_releaseBar hw hr, State.barPass, if_pos (by simp [hin, hy])]
    rw [hpass]
    exact ⟨rfl, rfl, by simp [Reed.passBar, SMap.upd]⟩
  case outside =>
    rw [reed_releaseBar hw hr, State.barPass, if_neg (by simp [hout])]

end Sys2Proof.Machine

/-! PROOFS. Retirement, step records, chain links, missed markers and use-count decay (R42, R45, R58, R112, R321, R625). -/
namespace Sys2Proof.Machine
open Sys2Proof.Laws

/-! ### Fields of a record in little-endian bytes (R9, R58) -/

theorem length_leBytes (n v : Nat) : (leBytes n v).length = n := by
  induction n generalizing v with
  | zero => rfl
  | succ n ih => exact congrArg (· + 1) (ih _)

theorem leOf_leBytes (n v : Nat) : leOf (leBytes n v) = v % 256 ^ n := by
  induction n generalizing v with
  | zero => simp [leBytes, leOf, Nat.mod_one]
  | succ n ih =>
    calc leOf (leBytes (n + 1) v) = v % 256 + 256 * (v / 256 % 256 ^ n) := by rw [leBytes, leOf, ih, BitVec.toNat_ofNat]
      _ = v % 256 ^ (n + 1) := by rw [Nat.pow_succ', Nat.mod_mul (a := 256)]

theorem leOf_leBytes_of_lt {n v : Nat} (h : v < 256 ^ n) : leOf (leBytes n v) = v := by
  rw [leOf_leBytes, Nat.mod_eq_of_lt h]

theorem take_leBytes_append (n v : Nat) (l : List Byte) : (leBytes n v ++ l).take n = leBytes n v :=
  List.take_left' (length_leBytes n v)

theorem drop_leBytes_append {n k : Nat} (h : n ≤ k) (v : Nat) (l : List Byte) : (leBytes n v ++ l).drop k = l.drop (k - n) := by
  rw [List.drop_append, length_leBytes, List.drop_of_length_le (by rwa [length_leBytes]), List.nil_append]

theorem Step.length_record (e : Step) (f d u : Nat) (drop : Bool) : (e.record f d u drop).length = 32 := by
  simp [Step.record, length_leBytes]

/-- Each field of a record is read back from its place (R58). -/
theorem Step.record_fields (e : Step) (f d u : Nat) (drop : Bool) :
    let b := e.record f d u drop
    b.take 8 = leBytes 8 e.breath ∧ (b.drop 8).take 4 = leBytes 4 e.desc.stepId ∧ (b.drop 12).take 2 = leBytes 2 e.desc.group ∧
      (b.drop 14).take 1 = leBytes 1 e.desc.die ∧ (b.drop 16).take 4 = leBytes 4 (min f (2 ^ 32 - 1)) ∧
      (b.drop 24).take 4 = leBytes 4 (min (max d (ceilDiv e.progBytes 1024)) (2 ^ 32 - 1)) ∧
      (b.drop 28).take 2 = leBytes 2 (min u 65535) ∧ (b.drop 30).take 1 = leBytes 1 (min e.overBreaths 255) := by
  intro b
  have hb : b = leBytes 8 e.breath ++ (leBytes 4 e.desc.stepId ++ (leBytes 2 e.desc.group ++ (leBytes 1 e.desc.die ++
      (leBytes 1 (e.recFlags drop) ++ (leBytes 4 (min f (2 ^ 32 - 1)) ++ (leBytes 4 e.desc.predNs ++
        (leBytes 4 (min (max d (ceilDiv e.progBytes 1024)) (2 ^ 32 - 1)) ++ (leBytes 2 (min u 65535) ++
          (leBytes 1 (min e.overBreaths 255) ++ [0]))))))))) := by
    simp only [b, Step.record, List.append_assoc]
  rw [hb]
  clear hb b
  refine ⟨?_, ?_, ?_, ?_, ?_, ?_, ?_, ?_⟩ <;>
    simp only [drop_leBytes_append, take_leBytes_append, Nat.reduceLeDiff, Nat.reduceSub, List.drop_zero, le_refl]

/-! ### A step of no group -/

section
variable {s : State} {e : Step} {die slot : Nat}

theorem groupOf_eq_self (h : e.desc.group = 0) : s.groupOf e = [e] := if_pos h

/-- A chain that has not failed leaves its group alone (R627). -/
theorem chainFail_self (h : e.chain = [] ∨ e.fault = false) : s.chainFail [e] = s := by
  refine if_neg ?_
  rcases h with h | h <;> simp [h]

theorem execStepRetire_alone (hin : s.stepIn die slot = some e) (hof : s.stepOf e.uid = some e) (hg : s.groupOf e = [e])
    (hd : s.stepDone e = true) (hl : e.lastLink = true) (hc : e.chain = [] ∨ e.fault = false) (f d u : Nat) :
    exec (.stepRetire die slot [(f, d, u)]) s = .next (s.retire e.uid f d u false) := by
  have hgo : ([e].all (fun g => s.stepDone g) && ([e].all (fun g => g.lastLink) || [e].any (fun g => g.fault))) = true := by
    simp [hd, hl]
  refine congrArg Host.Outcome.next ?_
  rw [hin]
  dsimp only
  rw [hg, if_pos hgo, chainFail_self hc, List.filterMap_cons, hof]
  rfl

theorem execStepRetire_running (hin : s.stepIn die slot = some e) (hg : s.groupOf e = [e]) (hd : s.stepDone e = false)
    (ms : List (Nat × Nat × Nat)) : exec (.stepRetire die slot ms) s = .next s := by
  refine congrArg Host.Outcome.next ?_
  rw [hin]
  dsimp only
  rw [hg, if_neg (by simp [hd])]

theorem execChainLinkStart_next (hin : s.stepIn die slot = some e) (hg : s.groupOf e = [e]) (hc : e.chain ≠ []) (hl : e.lastLink = false)
    (hs : e.stopping = false) (hd : s.stepDone e = true) (hf : e.fault = false) :
    exec (.chainLinkStart die slot) s = .next (s.nextLink e) := by
  refine congrArg Host.Outcome.next ?_
  rw [hin]
  dsimp only
  rw [hg, if_neg (by simp [hc, hl, hs, hd, State.linkDone]), if_neg (by simp [hf])]
  rfl

end

/-! ### Use counts (R321) -/

/-- A Serpent whose use counts are halved. -/
def Serpent.halved (x : Serpent) : Serpent :=
  { x with cache := x.cache.map (fun e => { e with use := e.use / 2 }), pool := x.pool.map (fun e => (e.1, (e.2.1 / 2, e.2.2))) }

theorem serp_decayCounts (s : State) (c d : Nat) : (s.decayCounts c).serp d = if c = d then (s.serp d).halved else s.serp d := by
  refine (get_set _ _ _ _ _).trans ?_
  split
  · next h => rw [h]; rfl
  · rfl

@[simp] theorem decayCounts_breath (s : State) (c : Nat) : (s.decayCounts c).breath = s.breath := rfl

/-- The four chanters whose use counts USE_COUNT_DECAY halves, once in a breath. -/
def State.decayAll (s : State) : State :=
  (List.range 4).foldl (fun (t : State) c => t.decayCounts c) { s with breath := { s.breath with decayed := s.breath.number } }

theorem decayAll_breath (s : State) : s.decayAll.breath = { s.breath with decayed := s.breath.number } := by
  simp [State.decayAll, List.range, List.range.loop]

theorem serp_decayAll (s : State) {c : Nat} (hc : c < 4) : s.decayAll.serp c = (s.serp c).halved := by
  simp only [State.decayAll, List.range, List.range.loop, List.foldl, serp_decayCounts]
  interval_cases c <;> rfl

theorem execUseCountDecay_halves {s : State} (h0 : s.breath.number ≠ 0) (hn : s.breath.number % 4096 = 0)
    (hd : s.breath.decayed ≠ s.breath.number) : exec .useCountDecay s = .next s.decayAll :=
  congrArg Host.Outcome.next (if_neg (by simp [h0, hn, hd]))

/-- Settles O25: each clause from the lemma about its command, the fields of a record from `record_fields`. -/
theorem stepRetires : Obligations.StepRetires := by
  refine ⟨⟨fun die slot f d u e s hin hof hg hd hl hc => execStepRetire_alone hin hof (groupOf_eq_self hg) hd hl hc f d u,
    fun die slot e s hin hd hg => execStepRetire_running hin hg hd [], fun e f d u drop hb hi hg hdie => ?record,
    fun die slot e s hin hg hc hl hs hd hf => execChainLinkStart_next hin hg hc hl hs hd hf,
    fun s hr => ⟨congrArg Host.Outcome.next (if_neg (by rw [brthA, hr]; nofun)), fun info =>
      congrArg Host.Outcome.next (if_neg (by rw [brthA, hr]; nofun))⟩⟩,
    fun die s h8 h4 hm => congrArg Host.Outcome.next (if_neg ?fresh), fun s h0 hn hd => ?decays,
    fun s hn => congrArg Host.Outcome.next (if_pos (.inr (.inl hn)))⟩
  case record =>
    obtain ⟨hbreath, hid, hgroup, hdie', hfinish, hdram, hstall, hover⟩ := e.record_fields f d u drop
    refine ⟨e.length_record f d u drop, ?_, ?_, ?_, ?_, ?_, ?_, ?_, ?_⟩
    · rw [hbreath, leOf_leBytes_of_lt (by omega)]
    · rw [hid, leOf_leBytes_of_lt (by omega)]
    · rw [hgroup, leOf_leBytes_of_lt (by omega)]
    · rw [hdie', leOf_leBytes_of_lt (by omega)]
    · rw [hfinish, leOf_leBytes_of_lt (by omega)]
    · rw [hdram, leOf_leBytes_of_lt (by omega)]
    · rw [hstall, leOf_leBytes_of_lt (by omega)]
    · rw [hover, leOf_leBytes_of_lt (by omega)]
  case fresh =>
    rintro (h | h | h)
    · omega
    · exact h4 h
    · exact hm (List.contains_iff_mem.mp h)
  case decays =>
    refine ⟨_, execUseCountDecay_halves h0 hn hd, ?_, ?_, fun c hc => ?_⟩
    · rw [decayAll_breath]
    · rw [decayAll_breath]
    · rw [serp_decayAll s hc]
      exact ⟨rfl, rfl⟩

end Sys2Proof.Machine

/-! PROOFS. A save of a pre-empted step keeps the addresses of the step's images in the step (R594, R604). -/
namespace Sys2Proof.Machine

/-- A step of consort 0 of chanter 0 that is being pre-empted: it runs on no reed, so that its save writes no image, and it names
one already. -/
def staleStep : Step := { uid := 1, desc := { die := 0, mask := 1 }, breath := 0, stopping := true, preBy := 0, images := [4096] }

/-- The device after reset, with that step alone. -/
def staleState : State := { State.reset with steps := [staleStep] }

/-- The images that the steps of a result name. -/
def imagesOf : Res → List (List Nat)
  | .next t => t.steps.map Step.images
  | _ => []

/-- What the save clause of O45 says of that step: it retires pre-empted, and the images it names stay. -/
def staleClaim : State :=
  let s1 := staleState.noteSave staleStep
  let s2 := ((s1.modStep 1 (fun g => { g with preempted := true, progress := s1.unitProgress staleStep })).retire 1 0 0 0 false).cntAdd
    .part 0 0 0x048 1
  let st := Blk.part.at 0 0 0x144
  (s2.setFld st 15 0 (s2.fld st 15 0 ||| 1)).preClose 0

theorem staleStep_in : staleState.stepIn 0 0 = some staleStep := by decide +kernel
theorem staleStep_stopped : staleState.preStopped staleStep = true := by decide +kernel

/-- No reed of the step is left to save. -/
theorem staleStep_saveReeds : staleState.saveReeds staleStep = [] := by decide +kernel
theorem staleStep_jobs : staleState.saveJobs staleStep = .ok [] := by
  rw [State.saveJobs, staleStep_saveReeds]
  rfl

/-- The model's save has the step name the images it has written: none. -/
theorem staleState_images : imagesOf (exec (.contextSaveDone 0 0 0 0 0) staleState) = [[]] := by decide +kernel
theorem staleClaim_images : imagesOf (.next staleClaim) = [[4096]] := by decide +kernel

/-- Refutes O45: its clause of a save that succeeds gives the retired step `preempted` and `progress` and leaves `images` as it was,
but CONTEXT_SAVE_DONE also has the step name the images that the save has written (R594). -/
theorem not_preemptionAndBuckets : ¬ Obligations.PreemptionAndBuckets := by
  rintro ⟨-, -, hsave, -⟩
  obtain ⟨-, -, hok, -⟩ := hsave 0 0 0 0 0 staleStep staleState staleStep_in
  have heq : exec (.contextSaveDone 0 0 0 0 0) staleState = .next staleClaim := hok [] rfl staleStep_stopped staleStep_jobs
  have himages := congrArg imagesOf heq
  rw [staleState_images, staleClaim_images] at himages
  exact absurd himages (by decide)

end Sys2Proof.Machine

/-! PROOFS. The canonical form of a state's maps is kept by the operations that reed instructions use (log entry 4). -/
namespace Sys2Proof.Machine
open Sys2Proof.Laws

theorem State.canonical_iff (s : State) : s.canonical = true ↔
    s.mem.wf = true ∧ s.hostMem.wf = true ∧ SMap.wf regReset s.regs = true ∧ SMap.wf (fun _ => 0) s.cnt = true ∧
      SMap.wf (fun _ => 0) s.flip = true := by
  simp only [State.canonical, Bool.and_eq_true, and_assoc]

/-- The parts of a state that `canonical` speaks of decide it. -/
theorem canonical_of_parts {s t : State} (h : s.canonical = true) (hmem : t.mem.wf = true) (hhost : t.hostMem = s.hostMem)
    (hregs : SMap.wf regReset t.regs = true) (hcnt : SMap.wf (fun _ => 0) t.cnt = true) (hflip : SMap.wf (fun _ => 0) t.flip = true) :
    t.canonical = true := by
  obtain ⟨-, hh, -⟩ := s.canonical_iff.mp h
  exact t.canonical_iff.mpr ⟨hmem, hhost ▸ hh, hregs, hcnt, hflip⟩

section
variable {s : State}

theorem canonical_foldl (h : s.canonical = true) {α : Type} {f : State → α → State}
    (hf : ∀ (t : State) (a : α), t.canonical = true → (f t a).canonical = true) (l : List α) : (l.foldl f s).canonical = true :=
  List.foldlRecOn (motive := fun t : State => t.canonical = true) l f h fun t ht a _ => hf t a ht

/-! ### Registers and counters -/

theorem canonical_setReed (h : s.canonical = true) (x : ReedRef) (r : Reed) : (s.setReed x r).canonical = true := h

theorem canonical_setReg (h : s.canonical = true) (a : Nat) (w : Word) : (s.setReg a w).canonical = true := by
  obtain ⟨hm, -, hr, hc, hf⟩ := s.canonical_iff.mp h
  exact canonical_of_parts h hm rfl (wf_set _ _ a w hr) hc hf

theorem canonical_setFld (h : s.canonical = true) (a hi lo v : Nat) : (s.setFld a hi lo v).canonical = true :=
  canonical_setReg h a _

theorem canonical_raise (h : s.canonical = true) (a n : Nat) : (s.raise a n).canonical = true := canonical_setFld h _ n n 1

theorem canonical_cntAdd (h : s.canonical = true) (b : Blk) (die i off n : Nat) : (s.cntAdd b die i off n).canonical = true := by
  obtain ⟨hm, -, hr, hc, hf⟩ := s.canonical_iff.mp h
  have hs1 (v : Nat) : ({ s with cnt := SMap.set (fun _ => 0) s.cnt (b.at die i off) v } : State).canonical = true :=
    canonical_of_parts h hm rfl hr (wf_set _ _ _ _ hc) hf
  unfold State.cntAdd
  dsimp only
  split
  · exact canonical_setFld (hs1 _) _ _ _ _
  · exact hs1 _

/-! ### Fault records -/

theorem canonical_ibi (h : s.canonical = true) (code : Nat) : (s.ibi code).canonical = true := by
  unfold State.ibi
  split <;> exact h

theorem canonical_faultPost (h : s.canonical = true) (r : FaultRec) : (s.faultPost r).canonical = true := by
  unfold State.faultPost
  extract_lets r' s0 s1
  have h0 : s0.canonical = true := by
    unfold s0
    split <;> exact h
  have h1 : s1.canonical = true := canonical_cntAdd h0 ..
  split
  · exact h0
  · split
    · exact canonical_setFld (canonical_cntAdd h1 ..) ..
    · have h2 : ({ s1 with faults := s1.faults ++ [r'] } : State).canonical = true := h1
      exact canonical_ibi (canonical_setFld h2 ..) 1

/-! ### Errors of memory words -/

theorem canonical_eccRecord (h : s.canonical = true) (b : Blk) (die i bank row word syn : Nat) (byScrub : Bool) :
    (s.eccRecord b die i bank row word syn byScrub).canonical = true := by
  unfold State.eccRecord
  extract_lets cls ue s0 key s1 hiA keep top
  have h0 : s0.canonical = true := canonical_cntAdd h ..
  have h1 : s1.canonical = true := by
    unfold s1
    split <;> exact h0
  split
  · exact h1
  · split
    · exact canonical_setReg h1 ..
    · exact canonical_setReg (canonical_setReg h1 ..) ..

theorem canonical_eccReedRead (h : s.canonical = true) (x : ReedRef) (offs : List Nat) :
    (s.eccReedRead x offs).canonical = true := by
  induction offs generalizing s with
  | nil => exact h
  | cons off offs ih =>
    refine ih ?_
    split
    · exact h
    · exact canonical_eccRecord h ..

theorem canonical_noteWord (h : s.canonical = true) (p : Nat) : (s.noteWord p).canonical = true := by
  unfold State.noteWord
  extract_lets syn c st s1
  have h1 : s1.canonical = true := canonical_raise (canonical_cntAdd h ..) ..
  split
  · exact h
  · split
    · split
      · split
        · exact h1
        · exact canonical_faultPost h1 _
      · exact canonical_cntAdd h ..
    · exact canonical_eccRecord h ..

theorem canonical_noteWordsOf (h : s.canonical = true) (ps : List Nat) :
    (ps.foldl (fun (t : State) p => t.noteWord p) s).canonical = true :=
  canonical_foldl h (fun _ p ht => canonical_noteWord ht p) ps

theorem canonical_noteWords (h : s.canonical = true) (ps : List Nat) : (s.noteWords ps).canonical = true := by
  unfold State.noteWords
  split
  · exact h
  · exact canonical_noteWordsOf h _

theorem canonical_notePartial (h : s.canonical = true) (ps : List Nat) : (s.notePartial ps).canonical = true := by
  unfold State.notePartial
  split
  · exact h
  · exact canonical_noteWordsOf h _

/-! ### Writes of memory -/

theorem canonical_settle (h : s.canonical = true) (p : Nat) : (s.settle p).canonical = true := by
  obtain ⟨hm, -, hr, hc, hf⟩ := s.canonical_iff.mp h
  refine canonical_of_parts h ?_ rfl hr hc (wf_set (fun _ => 0) s.flip (p / 8) 0 hf)
  show Memory.wf (if _ then _ else _) = true
  split
  · exact hm
  · exact memory_wf_setLe _ _ _ _ hm

theorem canonical_setByte (h : s.canonical = true) (p : Nat) (b : Byte) :
    ({ s with mem := s.mem.setByte p b } : State).canonical = true := by
  obtain ⟨hm, -, hr, hc, hf⟩ := s.canonical_iff.mp h
  exact canonical_of_parts h (memory_wf_setByte _ p b hm) rfl hr hc hf

theorem canonical_writePhys (h : s.canonical = true) (ps : List Nat) (bs : List Byte) : (s.writePhys ps bs).canonical = true := by
  induction ps generalizing s bs with
  | nil => exact h
  | cons p ps ih =>
    cases bs with
    | nil => exact h
    | cons b bs => exact ih (canonical_setByte (canonical_settle h p) p b) bs

theorem canonical_sramWrite (h : s.canonical = true) (x : ReedRef) (a n v : Nat) : (s.sramWrite x a n v).canonical = true :=
  canonical_writePhys h _ _

/-! ### Exceptions of a reed -/

theorem canonical_stepFault (h : s.canonical = true) (uid src code detail : Nat) :
    (s.stepFault uid src code detail).canonical = true := h

theorem canonical_stopReed (h : s.canonical = true) (x : ReedRef) (code detail addr : Nat) :
    (s.stopReed x code detail addr).canonical = true := by
  unfold State.stopReed
  extract_lets r pg es s1 s2 s3 s4
  have h3 : s3.canonical = true := canonical_setReg (canonical_setReg (canonical_setReg h ..) ..) ..
  exact canonical_setReed (canonical_stepFault h3 ..) ..

theorem canonical_breakBars (h : s.canonical = true) (n : Nat) : (s.breakBars n).canonical = true := by
  induction n generalizing s with
  | zero => exact h
  | succ n ih => exact ih (canonical_foldl h (fun _ q ht => canonical_stopReed ht (reedOfNo q) 0x08 0 0) s.brokenBars)

theorem canonical_reedExc (h : s.canonical = true) (x : ReedRef) (code detail addr : Nat) :
    (s.reedExc x code detail addr).canonical = true := canonical_breakBars (canonical_stopReed h ..) 8

theorem canonical_endReed (h : s.canonical = true) (x : ReedRef) : (s.endReed x).canonical = true :=
  canonical_breakBars (canonical_setReed h ..) 8

theorem canonical_fetchExc (h : s.canonical = true) (x : ReedRef) : (s.fetchExc x).canonical = true := by
  unfold State.fetchExc
  split <;> exact canonical_reedExc h ..

end

/-! ### The frame of an instruction -/

/-- The state that the result of an instruction's body carries. -/
def RRes.state : RRes → State
  | .done t _ => t
  | .jump t _ _ => t
  | .exc t _ _ _ => t
  | .hold t _ _ => t

/-- The result of an instruction's body keeps the canonical form. -/
def RRes.Canonical (o : RRes) : Prop := o.state.canonical = true

theorem RRes.canonical_done {t : State} {r : Reed} (h : t.canonical = true) : (RRes.done t r).Canonical := h

theorem RRes.canonical_ite {c : Prop} [Decidable c] {o p : RRes} (ho : o.Canonical) (hp : p.Canonical) :
    (if c then o else p).Canonical := by
  split
  · exact ho
  · exact hp

theorem canonical_finish {s : State} (h : s.canonical = true) (x : ReedRef) (count : Nat) {o : RRes} (ho : o.Canonical) :
    (s.finish x count o).canonical = true := by
  cases o with
  | done t r => exact ho
  | jump t r target =>
    show (if _ then _ else _ : State).canonical = true
    split
    · exact ho
    · exact canonical_reedExc h ..
  | exc t code detail addr => exact canonical_reedExc ho ..
  | hold t r w => exact ho

theorem canonical_runReed {s : State} (h : s.canonical = true) {x : RI} {u : Uses} {body : State → Reed → RRes}
    (hb : (body s (s.reed x.reed)).Canonical) : (runReed x u s body).canonical = true := by
  unfold runReed
  dsimp only
  split
  · exact h
  · split
    · exact canonical_fetchExc h _
    · split
      · exact canonical_reedExc h ..
      · exact canonical_finish h _ _ hb

end Sys2Proof.Machine

/-! PROOFS. Every step of a reed instruction keeps the state's maps in their canonical form (log entry 4). -/
namespace Sys2Proof.Machine
open Sys2Proof.Laws

section
variable {s : State}

/-! ### What an access of the core counts and writes -/

theorem canonical_drew (h : s.canonical = true) (x : ReedRef) (n : Nat) : (s.drew x n).canonical = true := by
  unfold State.drew
  split
  · exact h
  · exact canonical_cntAdd h ..

theorem canonical_noteRead (h : s.canonical = true) (x : ReedRef) (a n : Nat) : (s.noteRead x a n).canonical = true :=
  canonical_eccReedRead h x _

theorem canonical_noteStore (h : s.canonical = true) (x : ReedRef) (a n : Nat) : (s.noteStore x a n).canonical = true :=
  canonical_notePartial h _

theorem canonical_noteExc (h : s.canonical = true) (x : ReedRef) (code a n : Nat) : (s.noteExc x code a n).canonical = true := by
  unfold State.noteExc
  split
  · exact canonical_noteRead h ..
  · split
    · exact canonical_cntAdd h ..
    · exact h

theorem canonical_elemWrite (h : s.canonical = true) (x : ReedRef) (fmt base stride e v : Nat) :
    (s.elemWrite x fmt base stride e v).canonical = true := by
  unfold State.elemWrite
  split
  split <;> exact canonical_sramWrite h ..

theorem canonical_elemsWrite (h : s.canonical = true) (x : ReedRef) (fmt base stride : Nat) (mask : Word) (f : Nat → Nat) (n : Nat) :
    (s.elemsWrite x fmt base stride mask f n).canonical = true := by
  induction n with
  | zero => exact h
  | succ n ih =>
    unfold State.elemsWrite
    dsimp only
    split
    · exact canonical_elemWrite ih ..
    · exact ih

theorem canonical_elemsNote (h : s.canonical = true) (x : ReedRef) (fmt base stride : Nat) (mask : Word) (n : Nat) :
    (s.elemsNote x fmt base stride mask n).canonical = true := canonical_eccReedRead h x _

theorem canonical_noteArrays (h : s.canonical = true) (x : ReedRef) (t src stride n : Nat) :
    (noteArrays s x t src stride n).canonical = true := by
  induction n with
  | zero => exact h
  | succ n ih => exact canonical_noteRead ih ..

theorem canonical_releaseTiles (h : s.canonical = true) (x : ReedRef) (isA : Bool) (n : Nat) :
    (s.releaseTiles x isA n).canonical = true := by
  unfold State.releaseTiles
  extract_lets r e note s1
  split
  · exact canonical_raise (canonical_setReed h ..) ..
  · exact canonical_setReed h ..

/-! ### Scalar instructions -/

variable {x : RI}

theorem canonical_scalarAB (h : s.canonical = true) (f : DWord → DWord → DWord) : (scalarAB x s f).canonical = true :=
  canonical_runReed h h

theorem canonical_scalarAI (h : s.canonical = true) (f : DWord → DWord) : (scalarAI x s f).canonical = true :=
  canonical_runReed h h

theorem canonical_shiftI (h : s.canonical = true) (f : DWord → Nat → DWord) : (shiftI x s f).canonical = true :=
  canonical_runReed h (RRes.canonical_ite h h)

theorem canonical_branch (h : s.canonical = true) (taken : DWord → DWord → Bool) : (branch x s taken).canonical = true :=
  canonical_runReed h (RRes.canonical_ite h h)

/-! ### Loads and stores -/

theorem canonical_load (h : s.canonical = true) (n : Nat) (f : Nat → DWord) : (load x s n f).canonical = true := by
  refine canonical_runReed h ?_
  dsimp only
  split
  · exact canonical_noteExc h ..
  · exact h
  · exact canonical_noteRead h ..

theorem canonical_store (h : s.canonical = true) (n : Nat) : (store x s n).canonical = true := by
  refine canonical_runReed h ?_
  dsimp only
  split
  · exact canonical_noteExc h ..
  · exact h
  · exact canonical_sramWrite (canonical_noteStore h ..) ..

theorem canonical_vload (h : s.canonical = true) (u : Uses) (strided : Bool) : (vload x u strided s).canonical = true := by
  refine canonical_runReed h (RRes.canonical_ite h (RRes.canonical_ite h ?_))
  dsimp only
  split
  · exact canonical_noteExc h ..
  · exact h
  · exact canonical_elemsNote h ..

theorem canonical_vstore (h : s.canonical = true) (u : Uses) (strided : Bool) : (vstore x u strided s).canonical = true := by
  refine canonical_runReed h (RRes.canonical_ite h (RRes.canonical_ite h ?_))
  dsimp only
  split
  · exact canonical_noteExc h ..
  · exact h
  · exact canonical_drew (canonical_elemsWrite (canonical_elemsNote h ..) ..) ..

/-! ### VRED, TLOAD and TSWEEP -/

theorem canonical_vredLoop (h : s.canonical = true) (base n fuel e : Nat) (r : Reed) : (vredLoop x base n fuel e s r).Canonical := by
  induction fuel generalizing e s r with
  | zero => exact h
  | succ fuel ih =>
    refine RRes.canonical_ite h ?_
    dsimp only
    split
    · exact canonical_setReed (canonical_noteExc h ..) ..
    · exact h
    · exact RRes.canonical_ite (canonical_noteRead h ..) (ih (canonical_noteRead h ..) ..)

/-- A beat that is done keeps the canonical form. -/
def BeatRes.Canonical : BeatRes → Prop
  | .ok t _ => t.canonical = true
  | _ => True

theorem BeatRes.canonical_ite {c : Prop} [Decidable c] {o p : BeatRes} (ho : o.Canonical) (hp : p.Canonical) :
    (if c then o else p).Canonical := by
  split
  · exact ho
  · exact hp

/-- A row of the W stream that cannot be consumed leaves no beat done. -/
theorem canonical_wRow {r : Reed} {t : Nat} {b : BeatRes} (h : wRow r t = .inl b) : b.Canonical := by
  unfold wRow at h
  dsimp only at h
  split at h
  · split at h <;> (cases h; trivial)
  · split at h
    · cases h; trivial
    · split at h <;> cases h
      trivial

theorem canonical_saBeat (h : s.canonical = true) (y : ReedRef) (r : Reed) (row : Nat) : (saBeat s y r row).Canonical := by
  unfold saBeat
  dsimp only
  split
  · next b hb => exact canonical_wRow hb
  · exact BeatRes.canonical_ite (canonical_releaseTiles (canonical_setReed h ..) ..) h

theorem canonical_swBeat (h : s.canonical = true) (y : ReedRef) (r : Reed) (row j n src stride : Nat) :
    (swBeat s y r row j n src stride).Canonical := by
  unfold swBeat
  dsimp only
  split
  · trivial
  · trivial
  · exact canonical_foldl h (fun _ _ ht => canonical_noteRead ht ..) _

/-- What a block of a sweep comes to keeps the canonical form. -/
def BlockRes.Canonical : BlockRes → Prop
  | .ok t _ => t.canonical = true
  | .stall t _ _ _ => t.canonical = true
  | .exc t _ _ _ _ => t.canonical = true

theorem BlockRes.canonical_ite {c : Prop} [Decidable c] {o p : BlockRes} (ho : o.Canonical) (hp : p.Canonical) :
    (if c then o else p).Canonical := by
  split
  · exact ho
  · exact hp

theorem canonical_sweepBlock (h : s.canonical = true) (y : ReedRef) (n row0 src stride fuel b j : Nat) (r : Reed) :
    (sweepBlock y n row0 src stride fuel b j s r).Canonical := by
  induction fuel generalizing b j s r with
  | zero => exact h
  | succ fuel ih =>
    have hbeat : (if tSw r.tcfg.toNat then swBeat s y r (row0 + j) j n src stride else saBeat s y r (row0 + j)).Canonical :=
      BeatRes.canonical_ite (canonical_swBeat h ..) (canonical_saBeat h ..)
    unfold sweepBlock
    dsimp only
    split
    · next s1 r1 hb =>
      rw [hb] at hbeat
      exact BlockRes.canonical_ite hbeat (ih hbeat ..)
    · exact h
    · exact h
    · exact canonical_noteExc h ..

theorem canonical_sweepLoop (h : s.canonical = true) (y : ReedRef) (n row0 src stride fuel j : Nat) (r : Reed) :
    (sweepLoop y n row0 src stride fuel j s r).Canonical := by
  induction fuel generalizing j s r with
  | zero => exact h
  | succ fuel ih =>
    have hblock := canonical_sweepBlock h y n row0 src stride 8 r.sub (j + r.sub) r.openBlock
    refine RRes.canonical_ite h ?_
    dsimp only
    split
    · next s1 r1 hb =>
      rw [hb] at hblock
      exact RRes.canonical_ite (canonical_cntAdd hblock ..) (ih (canonical_cntAdd hblock ..) ..)
    · next s1 r1 rows w hb =>
      rw [hb] at hblock
      exact hblock
    · next s1 r1 c d a hb =>
      rw [hb] at hblock
      exact canonical_setReed hblock ..

/-! ### Instructions with bodies of their own -/

/-- The result of a command keeps the canonical form. -/
def ResCanonical : Res → Prop
  | .next t => t.canonical = true
  | _ => True

theorem canonical_crr (h : s.canonical = true) : ResCanonical (exec (.crr x) s) := by
  refine canonical_runReed h ?_
  split <;> exact h

theorem canonical_crw (h : s.canonical = true) : ResCanonical (exec (.crw x) s) := by
  refine canonical_runReed h ?_
  split <;> exact h

theorem canonical_endProg (h : s.canonical = true) : ResCanonical (exec (.endProg x) s) := by
  show (ite _ _ (ite _ _ (ite _ _ _)) : State).canonical = true
  split
  · exact h
  · split
    · exact canonical_fetchExc h _
    · split
      · exact canonical_reedExc h ..
      · exact canonical_endReed h _

theorem canonical_tload (h : s.canonical = true) : ResCanonical (exec (.tload x) s) := by
  refine canonical_runReed h (RRes.canonical_ite h ?_)
  dsimp only
  split
  · exact canonical_noteExc h ..
  · exact RRes.canonical_ite h (canonical_cntAdd (canonical_noteArrays h ..) ..)

theorem canonical_tgo (h : s.canonical = true) : ResCanonical (exec (.tgo x) s) := by
  refine canonical_runReed h (RRes.canonical_ite h (RRes.canonical_ite h (RRes.canonical_ite h
    (RRes.canonical_ite ?_ (canonical_setFld h ..)))))
  show (ite _ _ _ : State).canonical = true
  split
  · exact canonical_cntAdd h ..
  · exact h

theorem canonical_twait (h : s.canonical = true) : ResCanonical (exec (.twait x) s) := by
  refine canonical_runReed h (RRes.canonical_ite h (RRes.canonical_ite h (RRes.canonical_ite h ?_)))
  split
  · exact RRes.canonical_ite h (RRes.canonical_ite h h)
  · exact RRes.canonical_ite h (RRes.canonical_ite h (RRes.canonical_ite h h))

/-- Every instruction of a reed keeps the canonical form, by its row of the opcode table. -/
theorem canonical_exec {c : Instr} {p : Nat × RI} (hp : reedParts c = some p) (h : s.canonical = true) :
    ResCanonical (exec c s) := by
  unfold reedParts at hp
  split at hp
  -- NOP
  · exact canonical_runReed h h
  -- ADD to MAX
  iterate 13 exact canonical_scalarAB h _
  -- ADDI to XORI
  iterate 4 exact canonical_scalarAI h _
  -- SHLI to SRAI
  iterate 3 exact canonical_shiftI h _
  -- LUI
  · exact canonical_runReed h h
  -- CRR
  · exact canonical_crr h
  -- CRW
  · exact canonical_crw h
  -- BEQ to BGEU
  iterate 6 exact canonical_branch h _
  -- JAL, JR
  iterate 2 exact canonical_runReed h h
  -- END
  · exact canonical_endProg h
  -- TRAP, BRK
  iterate 2 exact canonical_runReed h h
  -- LD
  · exact canonical_load h _ _
  -- ST
  · exact canonical_store h _
  -- LW
  · exact canonical_load h _ _
  -- SW
  · exact canonical_store h _
  -- VLD
  · exact canonical_vload h _ _
  -- VST
  · exact canonical_vstore h _ _
  -- VLDS
  · exact canonical_vload h _ _
  -- VSTS
  · exact canonical_vstore h _ _
  -- VOP
  · exact canonical_runReed h (RRes.canonical_ite h (RRes.canonical_ite h (RRes.canonical_ite h h)))
  -- VFMA
  · exact canonical_runReed h (RRes.canonical_ite h h)
  -- VCMP
  · exact canonical_runReed h (RRes.canonical_ite h (RRes.canonical_ite h h))
  -- VSEL
  · exact canonical_runReed h h
  -- VFN
  · exact canonical_runReed h (RRes.canonical_ite h h)
  -- VCVT
  · exact canonical_runReed h (RRes.canonical_ite h (RRes.canonical_done (canonical_drew h ..)))
  -- VBCAST to VIDX
  iterate 3 exact canonical_runReed h h
  -- VRAND
  · exact canonical_runReed h (RRes.canonical_done (canonical_drew h ..))
  -- VPERM
  · exact canonical_runReed h h
  -- VREDL
  · exact canonical_runReed h (RRes.canonical_ite h (RRes.canonical_ite h h))
  -- VRED
  · exact canonical_runReed h (RRes.canonical_ite h (RRes.canonical_ite h (RRes.canonical_ite h (canonical_vredLoop h ..))))
  -- VAR, VAW
  iterate 2 exact canonical_runReed h (RRes.canonical_ite h h)
  -- VMOV
  · exact canonical_runReed h h
  -- MOP to TCFG
  iterate 4 exact canonical_runReed h (RRes.canonical_ite h h)
  -- TLOAD
  · exact canonical_tload h
  -- TSWEEP
  · exact canonical_runReed h (RRes.canonical_ite h (RRes.canonical_ite h (RRes.canonical_ite h (RRes.canonical_ite h
      (canonical_sweepLoop h ..)))))
  -- TCLR
  · exact canonical_runReed h (RRes.canonical_ite h (RRes.canonical_ite h h))
  -- TGO
  · exact canonical_tgo h
  -- TWAIT
  · exact canonical_twait h
  -- TREL
  · exact canonical_runReed h (RRes.canonical_ite h (RRes.canonical_ite h (RRes.canonical_ite h (RRes.canonical_ite h
      (RRes.canonical_done (canonical_releaseTiles h ..))))))
  -- TPUT
  · exact canonical_runReed h h
  -- TSTAT, FENCE
  iterate 2 exact canonical_runReed h (RRes.canonical_ite h h)
  -- BAR
  · exact canonical_runReed h (RRes.canonical_ite h (RRes.canonical_ite h (RRes.canonical_ite h h)))
  -- No instruction of a reed
  · cases hp

end

/-- Settles O60: the step is the instruction on the state without its front command, whose maps are the same. -/
theorem canonicalReedSteps : Obligations.CanonicalReedSteps := by
  intro c q p s t hq hp h hstep
  have hexec : step s = exec c { s with pending := q } := by
    unfold step
    rw [hq]
  have hkeep : ResCanonical (exec c { s with pending := q }) := canonical_exec hp h
  rw [← hexec, hstep] at hkeep
  exact hkeep

end Sys2Proof.Machine

/-! PROOFS. The handover, the clearing and the secure map of memory banks (R197 to R208). -/
namespace Sys2Proof.Machine
open Sys2Proof.Laws

/-! ### What a bank's ownership register reads -/

section
variable (s : State) (m : MemRef) (n : Nat) (busy : Bool) (st o : Nat)

@[simp] theorem bankState_setBank : (s.setBank m n busy st o).bankState m n = st % 4 :=
  (fld_setFld_other _ _ _ _ _ _ _ (by omega)).trans (fld_setFld_same _ _ _ _ _ (by decide))

@[simp] theorem bankOwner_setBank : (s.setBank m n busy st o).bankOwner m n = o % 256 :=
  fld_setFld_same _ _ _ _ _ (by decide)

@[simp] theorem busy_setBank : (s.setBank m n busy st o).rbit (m.own n) 31 = busy := by
  unfold State.setBank State.rbit
  rw [fld_setFld_other _ _ _ _ _ _ _ (by omega), fld_setFld_other _ _ _ _ _ _ _ (by omega),
    fld_setFld_same _ _ _ _ _ (by decide)]
  cases busy <;> rfl

@[simp] theorem mem_setBank : (s.setBank m n busy st o).mem = s.mem := rfl
@[simp] theorem mem_setHandover (h : Option Handover) : (s.setHandover m n h).mem = s.mem := rfl
@[simp] theorem bankState_setHandover (h : Option Handover) : (s.setHandover m n h).bankState m n = s.bankState m n := rfl
@[simp] theorem bankOwner_setHandover (h : Option Handover) : (s.setHandover m n h).bankOwner m n = s.bankOwner m n := rfl
@[simp] theorem rbit_setHandover (h : Option Handover) (a i : Nat) : (s.setHandover m n h).rbit a i = s.rbit a i := rfl

@[simp] theorem handoverOf_setHandover (h : Option Handover) : (s.setHandover m n h).handoverOf m n = h :=
  get_set_same ..

/-! ### What zeroing a bank does to memory -/

theorem byte_zeroBank (a : Nat) (h1 : m.phys (n * m.bankBytes) ≤ a) (h2 : a < m.phys (n * m.bankBytes) + m.bankBytes) :
    (s.zeroBank m n).mem.byte a = 0 := byte_dropRange_inside s.mem _ _ a h1 h2

theorem sameMemOutside_zeroBank : sameMemOutside (m.phys (n * m.bankBytes)) m.bankBytes s (s.zeroBank m n) :=
  fun a h => byte_dropRange_outside s.mem _ _ a h

theorem bellows_phys (die off : Nat) : (MemRef.bellows die).phys off = bellowsSram die off := rfl

theorem bellows_rows (die : Nat) : (MemRef.bellows die).rows = 16384 := rfl

theorem bellows_bankBytes (die : Nat) : (MemRef.bellows die).bankBytes = 2097152 := by
  unfold MemRef.bankBytes
  rw [bellows_rows]

/-- Banks are whole words: they start at a multiple of 8 and their length is one. -/
theorem bank_words : m.phys (n * m.bankBytes) % 8 = 0 ∧ m.bankBytes % 8 = 0 := by
  refine ⟨?_, by unfold MemRef.bankBytes; omega⟩
  cases m <;> simp only [MemRef.phys, MemRef.bankBytes, MemRef.rows, reedSram, bellowsSram, sramBase] <;> omega

theorem flipOf_zeroBank (a : Nat) (h1 : m.phys (n * m.bankBytes) ≤ a) (h2 : a < m.phys (n * m.bankBytes) + m.bankBytes) :
    (s.zeroBank m n).flipOf a = 0 := by
  obtain ⟨hb, hl⟩ := bank_words m n
  unfold State.flipOf SMap.get State.zeroBank
  dsimp only
  rw [SMap.dropRange, find_keep, if_neg]
  · rfl
  · simp only [Bool.not_eq_true', Bool.not_eq_false, Bool.and_eq_true, decide_eq_true_eq]
    omega

end

/-! ### The write of an ownership register (R197, R201, R219) -/

section
variable {who : Requester} {m : MemRef} {n : Nat} {v : Word} {s : State}

theorem execBankHandoverGo_eq (hw : s.writable who (m.own n) = true) (hn : n < m.banks) :
    exec (.bankHandoverGo who m n v) s = .next (s.writeBankOwn who m n v) :=
  congrArg Host.Outcome.next ((gate_writable s who _ _ hw).trans (if_pos hn))

theorem writeBankOwn_reserved (h : m.ownerOk (fieldW v 15 8) = false) :
    s.writeBankOwn who m n v = (s.noteReserved who m.blk (m.own n) v).err who m.blk (m.own n) .valueWrite :=
  if_pos h

theorem writeBankOwn_rejected (h : m.ownerOk (fieldW v 15 8) = true) (hgo : v.getLsbD 0 = true)
    (hr : s.goRefused m n (fieldW v 15 8) = true) : s.writeBankOwn who m n v =
      ((s.noteReserved who m.blk (m.own n) v).setFld (m.own n) 30 30 1).err who m.blk (m.own n) .valueWrite :=
  (if_neg (by simp [h])).trans (if_pos (by simp [hgo, hr]))

theorem writeBankOwn_go (h : m.ownerOk (fieldW v 15 8) = true) (hgo : v.getLsbD 0 = true)
    (hr : s.goRefused m n (fieldW v 15 8) = false) :
    let s1 := s.writeFields who m.blk (m.own n) (m.own n) v
    s.writeBankOwn who m n v = s1.handoverGo m n (s1.fld (m.own n) 15 8) (s1.rbit (m.own n) 1) :=
  (if_neg (by simp [h])).trans ((if_neg (by simp [hr])).trans (if_pos hgo))

end

section
variable (s : State) (m : MemRef) (n next : Nat) (clear : Bool)

theorem bankOwner_lt : s.bankOwner m n < 256 := Nat.mod_lt _ (by decide)

/-- The owner stands until the bank has drained (R200). -/
theorem bankOwner_handoverGo : (s.handoverGo m n next clear).bankOwner m n = s.bankOwner m n := by
  unfold State.handoverGo
  rw [bankOwner_setHandover, bankOwner_setBank, Nat.mod_eq_of_lt (bankOwner_lt s m n)]

theorem bankState_handoverGo : (s.handoverGo m n next clear).bankState m n = 1 := by
  unfold State.handoverGo
  rw [bankState_setHandover, bankState_setBank]

theorem busy_handoverGo : (s.handoverGo m n next clear).rbit (m.own n) 31 = true := by
  unfold State.handoverGo
  rw [rbit_setHandover, busy_setBank]

theorem handoverOf_handoverGo : (s.handoverGo m n next clear).handoverOf m n =
    some (.toOwner next (handoverClears m (s.bankOwner m n) next clear)) := handoverOf_setHandover ..

@[simp] theorem mem_handoverGo : (s.handoverGo m n next clear).mem = s.mem := rfl

end

/-! ### The end of the drain and of the clear (R200, R202) -/

section
variable {s : State} {m : MemRef} {n o : Nat} {c : Bool}

theorem bankDrained_inFlight (h : s.bankInFlight m n = true) : s.bankDrained m n = s := if_pos (.inr h)

theorem bankDrained_owned (h : s.handoverOf m n = some (.toOwner o false)) (hs : s.bankState m n = 1)
    (hf : s.bankInFlight m n = false) : s.bankDrained m n = (s.setBank m n false 0 o).setHandover m n none := by
  unfold State.bankDrained
  rw [if_neg (by simp [hs, hf]), h]

theorem bankDrained_clearing (h : s.handoverOf m n = some (.toOwner o true)) (hs : s.bankState m n = 1)
    (hf : s.bankInFlight m n = false) : s.bankDrained m n = s.setBank m n true 2 o := by
  unfold State.bankDrained
  rw [if_neg (by simp [hs, hf]), h]

/-- What the register of a bank reads that has passed to its new owner (R200, R219). -/
theorem setBank_owned (t : State) (ho : o < 256) : let u := (t.setBank m n false 0 o).setHandover m n none
    u.bankState m n = 0 ∧ u.bankOwner m n = o ∧ u.rbit (m.own n) 31 = false ∧ u.handoverOf m n = none := by
  intro u
  refine ⟨?_, ?_, ?_, handoverOf_setHandover ..⟩
  · rw [bankState_setHandover, bankState_setBank]
  · rw [bankOwner_setHandover, bankOwner_setBank, Nat.mod_eq_of_lt ho]
  · rw [rbit_setHandover, busy_setBank]

theorem bankCleared_owned (h : s.handoverOf m n = some (.toOwner o c)) (hs : s.bankState m n = 2) :
    s.bankCleared m n = ((s.zeroBank m n).setBank m n false 0 o).setHandover m n none := by
  unfold State.bankCleared
  rw [if_neg (by simp [hs]), h]

end

/-- Settles O26: the write of the register by its three outcomes, and the ends of the drain and of the clear. -/
theorem bankHandover : Obligations.BankHandover := by
  refine ⟨fun who m n v s hw hn => ?go, fun m n o c s ho hh => ⟨fun _ hf => ?flight, fun hs hf => ?drained, fun hs => ?cleared⟩⟩
  case go =>
    intro s1 noted next owner
    rw [execBankHandoverGo_eq hw hn]
    refine ⟨fun hr => congrArg _ (writeBankOwn_reserved hr), fun hok hgo =>
      ⟨fun hr => congrArg _ (writeBankOwn_rejected hok hgo hr), fun hr =>
        ⟨_, congrArg _ (writeBankOwn_go hok hgo hr), bankState_handoverGo .., busy_handoverGo .., bankOwner_handoverGo ..,
          handoverOf_handoverGo .., fun a => ?_⟩⟩⟩
    exact congrArg (Memory.byte · a) ((mem_handoverGo ..).trans (writeFields_mem s who m.blk (m.own n) (m.own n) v))
  case flight => exact congrArg Host.Outcome.next (bankDrained_inFlight hf)
  case drained =>
    cases c with
    | false =>
      obtain ⟨hst, hown, hbusy, hnone⟩ := setBank_owned (m := m) (n := n) s ho
      exact ⟨_, congrArg Host.Outcome.next (bankDrained_owned hh hs hf), hst, hown, hbusy, hnone, fun _ => rfl⟩
    | true =>
      refine ⟨_, congrArg Host.Outcome.next (bankDrained_clearing hh hs hf), bankState_setBank .., ?_, busy_setBank .., hh,
        fun _ => rfl⟩
      rw [bankOwner_setBank, Nat.mod_eq_of_lt ho]
  case cleared =>
    obtain ⟨hst, hown, -, hnone⟩ := setBank_owned (m := m) (n := n) (s.zeroBank m n) ho
    exact ⟨_, congrArg Host.Outcome.next (bankCleared_owned hh hs), hst, hown, hnone, sameMemOutside_zeroBank s m n,
      fun a h1 h2 => ⟨byte_zeroBank s m n a h1 h2, flipOf_zeroBank s m n a h1 h2⟩⟩

/-! ### The secure map (R205 to R208) -/

section
variable {who : Requester} {die n : Nat} {hi : Bool} {v : Word} {s : State}

/-- The secure map that a write of one half asks for (R205). -/
def State.secureMapAfter (s : State) (die : Nat) (hi : Bool) (v : Word) : Nat :=
  if hi then s.secureMap die % 2 ^ 32 + 2 ^ 32 * v.toNat else s.secureMap die / 2 ^ 32 * 2 ^ 32 + v.toNat

theorem execSbankMaskWrite_eq (hd : die = 4 ∨ die = 5)
    (hw : s.writable who (Blk.sec.at die die (if hi then 0x204 else 0x200)) = true) :
    exec (.sbankMaskWrite who die hi v) s = .next (s.writeSecureMap who die hi v) :=
  congrArg Host.Outcome.next ((gate_writable s who _ _ hw).trans (if_pos (decide_eq_true hd)))

theorem writeSecureMap_refused (hb : s.bootDone = false) (h : 4 < popcount 64 (s.secureMapAfter die hi v)) :
    s.writeSecureMap who die hi v = s.refuseWrite who .sec die die (if hi then 0x204 else 0x200) v := if_pos ⟨hb, h⟩

theorem writeSecureMap_applied (h : s.bootDone = true ∨ popcount 64 (s.secureMapAfter die hi v) ≤ 4) :
    let s1 := s.writeAt who .sec die die (if hi then 0x204 else 0x200) v
    s.writeSecureMap who die hi v =
      ((List.range 64).foldl (fun t n => t.mapBank die (s.secureMap die) (s1.secureMap die) n) s1).secureStatus die := by
  refine if_neg ?_
  rintro ⟨hb, hp⟩
  exact h.elim (fun h => Bool.false_ne_true (hb.symm.trans h)) (Nat.not_le.mpr hp)

/-- A SECURE bank whose wipe completes: zeroed, and SECURE or FIFE's by the map (R207, R208). -/
theorem wipeBank_secure (hs : s.bankState (.bellows die) n = 3) (hw : s.rbit ((MemRef.bellows die).own n) 31 = true) :
    s.wipeBank die n = ((s.zeroBank (.bellows die) n).setHandover (.bellows die) n none).setBank (.bellows die) n false
      (if (s.secureMap die).testBit n then 3 else 0) (if (s.secureMap die).testBit n then 0 else 2) := by
  unfold State.wipeBank
  dsimp only
  rw [if_neg (by simp [hs, hw])]
  split <;> rfl

theorem wipeBank_sec (s : State) (die n : Nat) : (s.wipeBank die n).sec = s.sec := by
  unfold State.wipeBank
  dsimp only
  split
  · rfl
  · split <;> rfl

theorem secureStatus_sec (s : State) (die : Nat) : (s.secureStatus die).sec = s.sec := by
  unfold State.secureStatus
  exact setReg_sec s _ _

theorem wipeDone_sec (s : State) (die : Nat) : (s.wipeDone die).sec = s.sec := by
  unfold State.wipeDone
  rw [secureStatus_sec]
  exact foldl_keeps State.sec _ (fun t n => wipeBank_sec t die n) _ s

/-- Without an unlock that waits for the wipes, their end opens no debug (R780). -/
theorem unlockOpen_none (h : s.sec.unlocking = none) : s.unlockOpen = s := by
  unfold State.unlockOpen
  rw [h]

theorem execSecureWipeDone_eq (hd : die = 4 ∨ die = 5) (h : s.sec.unlocking = none) :
    exec (.secureWipeDone die) s = .next (s.wipeDone die) :=
  congrArg Host.Outcome.next ((if_pos (decide_eq_true hd)).trans (unlockOpen_none ((wipeDone_sec s die).symm ▸ h)))

end


/-- Settles O27: the write of the map by its two outcomes, the bank that a wipe leaves, and the wipe of every bank. -/
theorem secureBanks : Obligations.SecureBanks := by
  refine ⟨fun who die hi v s hd hw => ?map, fun die n s hs hw => ?wipe, fun die s hd h => execSecureWipeDone_eq hd h⟩
  case map =>
    intro old new s1
    rw [execSbankMaskWrite_eq hd hw]
    exact ⟨fun hb h => congrArg _ (writeSecureMap_refused hb h), fun h => congrArg _ (writeSecureMap_applied h)⟩
  case wipe =>
    rw [wipeBank_secure hs hw, ← bellows_phys, ← bellows_bankBytes die]
    refine ⟨fun a h1 h2 => ?_, fun a h => ?_, busy_setBank .., ?_, ?_⟩
    · rw [mem_setBank, mem_setHandover]
      exact byte_zeroBank s (.bellows die) n a h1 h2
    · rw [mem_setBank, mem_setHandover]
      exact sameMemOutside_zeroBank s (.bellows die) n a h
    · rw [bankState_setBank]
      split <;> rfl
    · rw [bankOwner_setBank]
      split <;> rfl

end Sys2Proof.Machine

/-! PROOFS. Error correction, the grants of port 1 and the scrubber of memory banks (R194, R210 to R214, R220). -/
namespace Sys2Proof.Machine
open Sys2Proof.Laws

/-! ### Rewriting a word with fresh check bits (R196, R210, R213) -/

/-- The bytes of a little-endian value are the bytes that it was read from. -/
theorem ofNat_le_div (m : Memory) (p : Nat) {n i : Nat} (h : i < n) : BitVec.ofNat 8 (m.le p n / 256 ^ i) = m.byte (p + i) := by
  induction n generalizing p i with
  | zero => exact absurd h (Nat.not_lt_zero i)
  | succ n ih =>
    unfold Memory.le
    cases i with
    | zero =>
      apply BitVec.eq_of_toNat_eq
      have := (m.byte p).isLt
      simp only [Nat.pow_zero, Nat.div_one, Nat.add_zero, BitVec.toNat_ofNat]
      omega
    | succ i =>
      have hdiv : ((m.byte p).toNat + 256 * m.le (p + 1) n) / 256 = m.le (p + 1) n := by
        have := (m.byte p).isLt
        omega
      rw [Nat.pow_succ', ← Nat.div_div_eq_div_mul, hdiv, ih (p + 1) (Nat.lt_of_succ_lt_succ h)]
      congr 1
      omega

/-- A byte of a little-endian value with some of its bits inverted. -/
theorem ofNat_xor_div (x e i : Nat) :
    BitVec.ofNat 8 ((x ^^^ e) / 256 ^ i) = BitVec.ofNat 8 (x / 256 ^ i) ^^^ BitVec.ofNat 8 (e / 256 ^ i) := by
  rw [show 256 = 2 ^ 8 from rfl, ← Nat.pow_mul, Nat.xor_div_two_pow, BitVec.ofNat_xor]

section
variable (s : State) (p q : Nat)

theorem settle_frame : { s.settle p with mem := s.mem, flip := s.flip } = s := rfl

theorem flipOf_settle : (s.settle p).flipOf q = if p / 8 = q / 8 then 0 else s.flipOf q :=
  get_set (fun _ => 0) s.flip (p / 8) (q / 8) 0

/-- The word that is rewritten holds what a read of it delivers (R213). -/
theorem byte_settle_word {i : Nat} (h : i < 8) : (s.settle p).mem.byte (p / 8 * 8 + i) =
    s.mem.byte (p / 8 * 8 + i) ^^^ BitVec.ofNat 8 (readError (s.flipOf p) / 256 ^ i) := by
  unfold State.settle
  dsimp only
  split
  · next he => simp [he]
  · rw [byte_setLe _ _ _ h, ofNat_xor_div, ofNat_le_div _ _ h]

theorem byte_settle_other (h : p / 8 ≠ q / 8) : (s.settle p).mem.byte q = s.mem.byte q := by
  unfold State.settle
  dsimp only
  split
  · rfl
  · exact byte_setLe_other _ _ _ _ _ (by omega)

/-- Every byte reads as before: the error moves from the check of the read into the word (R210, R213). -/
theorem readByte_settle : (s.settle p).readByte q = s.readByte q := by
  by_cases h : p / 8 = q / 8
  · have hq : p / 8 * 8 + q % 8 = q := by omega
    have hflip : s.flipOf q = s.flipOf p := by unfold State.flipOf; rw [h]
    have hword := byte_settle_word s p (Nat.mod_lt q (by decide))
    rw [hq] at hword
    rw [readByte_of_clean ((flipOf_settle s p q).trans (if_pos h)), hword]
    unfold State.readByte
    rw [hflip, Nat.pow_mul]
  · unfold State.readByte
    rw [flipOf_settle, if_neg h, byte_settle_other s p q h]

end

section
variable {m : MemRef} {off : Nat} {s : State}

theorem writeBack_correctable (h : s.flipOf (m.phys off) ≠ 0) (hb : s.badByte (m.phys off) = false) :
    s.writeBack m off = s.settle (m.phys off) := if_neg (by simp [h, hb])

theorem writeBack_idle (h : s.flipOf (m.phys off) = 0 ∨ s.badByte (m.phys off) = true) : s.writeBack m off = s := if_pos h.symm

end

/-! ### The rotation of port 1 (R193, R194) -/

/-- The first waiting requester of a rotation. -/
theorem find_rotation {k last i : Nat} {w : List Nat} (hi : i < k) (hw : w.contains ((last + i) % k) = true)
    (hfree : ∀ j : Nat, j < i → w.contains ((last + j) % k) = false) :
    ((List.range k).map (fun j => (last + j) % k)).find? (fun q => w.contains q) = some ((last + i) % k) := by
  have : (List.range k).find? ((fun q => w.contains q) ∘ fun j => (last + j) % k) = some i :=
    List.find?_range_eq_some.mpr ⟨hw, List.mem_range.mpr hi, fun j hj => by simpa using hfree j hj⟩
  rw [List.find?_map, this, Option.map_some]

/-- The requesters of port 1 of a memory's banks (R194). -/
def MemRef.requesters : MemRef → Nat
  | .reed _ => 4
  | .bellows _ => 3

/-- The counter of the cycles that a memory's requesters wait for port 1 (R193). -/
def MemRef.waitCount : MemRef → Nat
  | .reed _ => 0x068
  | .bellows _ => 0x0F0

/-- A state after port 1 of a bank has been granted: the wait is counted and the requester noted, one above its number. -/
def State.granted (s : State) (m : MemRef) (n cycles g : Nat) : State :=
  let s1 := s.cntAdd m.blk m.die m.inst m.waitCount cycles
  { s1 with portLast := SMap.set (fun _ => 0) s1.portLast (m.own n) (g + 1) }

section
variable {m : MemRef} {n i cycles : Nat} {w : List Nat} {s : State}

/-- The grant goes to the first waiting requester after the one served last. -/
theorem execBankPort1Grant_first (hi : i < m.requesters)
    (hw : w.contains ((SMap.get (fun _ => 0) s.portLast (m.own n) + i) % m.requesters) = true)
    (hfree : ∀ j : Nat, j < i → w.contains ((SMap.get (fun _ => 0) s.portLast (m.own n) + j) % m.requesters) = false) :
    exec (.bankPort1Grant m n w cycles) s =
      .next (s.granted m n cycles ((SMap.get (fun _ => 0) s.portLast (m.own n) + i) % m.requesters)) := by
  have hfind := find_rotation hi hw hfree
  refine congrArg Host.Outcome.next ?_
  cases m <;> exact hfind ▸ rfl

theorem portLast_granted (g : Nat) : SMap.get (fun _ => 0) (s.granted m n cycles g).portLast (m.own n) = g + 1 := by
  simp [State.granted]

theorem count_granted (g : Nat) : (s.granted m n cycles g).count (m.at m.waitCount) =
    min (s.count (m.at m.waitCount) + cycles) cntMax := (count_cntAdd s ..).trans (if_pos rfl)

theorem granted_mem (g : Nat) : (s.granted m n cycles g).mem = s.mem := cntAdd_mem ..

theorem granted_flip (g : Nat) : (s.granted m n cycles g).flip = s.flip := cntAdd_flip ..

end

/-! ### The scrubber (R214, R221) -/

section
variable {m : MemRef} {s : State}

theorem execScrubPassStart_idle (h : s.rbit m.scrubCtrl 16 = false ∨ s.passDue m = false) :
    exec (.scrubPassStart m) s = .next s := congrArg Host.Outcome.next (if_pos h)

/-- The row that a scrubber reads next, from the rows that the pass has left. -/
theorem scrubRow_eq {left total : Nat} (h0 : 0 < left) (h : left ≤ total) : (total - left % total) % total = total - left := by
  rcases Nat.lt_or_eq_of_le h with hlt | rfl
  · rw [Nat.mod_eq_of_lt hlt, Nat.mod_eq_of_lt (by omega)]
  · rw [Nat.mod_self, Nat.sub_zero, Nat.mod_self, Nat.sub_self]

/-- A row of a bank that is not being cleared or wiped is scrubbed. -/
theorem execScrubRowRead_scrubs {ups : List (Nat × Nat)} (h0 : 0 < s.scrubRows m) (h : s.scrubRows m ≤ m.banks * m.rows)
    (hen : s.rbit m.scrubCtrl 16 = true) :
    let row := m.banks * m.rows - s.scrubRows m
    s.bankState m (row / m.rows) ≠ 2 → ¬(s.bankState m (row / m.rows) = 3 ∧ s.rbit (m.own (row / m.rows)) 31 = true) →
    exec (.scrubRowRead m ups) s = .next (((s.setScrub m (s.scrubRows m - 1)).strike m row ups).scrubWords m (row * 128) 16) := by
  intro row hc hw
  refine congrArg Host.Outcome.next ((if_neg (by simp [Nat.ne_of_gt h0, hen])).trans ?_)
  rw [scrubRow_eq h0 h]
  exact if_neg (not_or.mpr ⟨hc, hw⟩)

/-! ### The error record (R220) -/

/-- A 1 in `valid` clears the register that holds it, and no byte of memory changes. -/
theorem execEccAddrClear_clears {who : Requester} (hw : s.writable who m.eccHi = true) :
    ∃ t : State, exec (.eccAddrClear who m 0x80000000) s = .next t ∧ t.reg m.eccHi = 0 ∧ t.mem = s.mem := by
  cases m with
  | reed x =>
    exact ⟨_, congrArg Host.Outcome.next (gate_writable s who _ _ hw), reg_setReg_same .., writeFields_mem ..⟩
  | bellows d =>
    have hne : (MemRef.bellows d).at 0x500 ≠ (MemRef.bellows d).eccHi := mt (at_inj ..).mp (by decide)
    exact ⟨_, congrArg Host.Outcome.next (gate_writable s who _ _ hw),
      (reg_setReg_other _ _ _ _ hne).trans (reg_setReg_same ..), writeFields_mem ..⟩

end

/-- Settles O28: the rewritten word by what a read of it delivers; the grant, the pass, the row and the record by their
commands' lemmas. -/
theorem memoryErrorsAndPorts : Obligations.MemoryErrorsAndPorts := by
  refine ⟨fun m off s _ => ⟨fun h _ hb => ?rewrite, fun h => congrArg Host.Outcome.next (writeBack_idle h)⟩, fun who m n s => ?_⟩
  case rewrite =>
    exact ⟨_, congrArg Host.Outcome.next (writeBack_correctable h hb), (flipOf_settle ..).trans (if_pos rfl),
      readByte_settle s _, settle_frame ..⟩
  intro k last wait late left
  refine ⟨fun w cycles i hi hw hfree => ?grant, fun hen hdue => ?due, fun h => execScrubPassStart_idle h, rfl,
    fun ups h0 h hen => execScrubRowRead_scrubs h0 h hen, fun hw => ?clear⟩
  case grant =>
    refine ⟨s.granted m n cycles ((last + i) % k), ?_, portLast_granted _, ?_,
      fun a => congrArg (Memory.byte · a) (granted_mem _), granted_flip _⟩
    · cases m <;> exact execBankPort1Grant_first hi hw hfree
    · cases m <;> exact count_granted _
  case due =>
    refine congrArg Host.Outcome.next ((if_neg (by simp [hen, hdue])).trans ?_)
    cases m <;> rfl
  case clear =>
    obtain ⟨t, ht, hreg, hmem⟩ := execEccAddrClear_clears hw
    exact ⟨t, ht, hreg, fun a => congrArg (Memory.byte · a) hmem⟩

end Sys2Proof.Machine

/-! PROOFS. The ring of a Horn and its jobs (R269 to R296). -/
namespace Sys2Proof.Machine
open Sys2Proof.Laws

section
variable {die k pos slot op : Nat} {n : Option Nat} {x : ReedRef} {d : HDesc} {jb : HornJob} {s t : State}

/-- A command to the Horn of a consort that exists is carried out. -/
theorem next_of_consOk (hd : die < 4) (hk : k < 8) {u : State} (h : t = u) :
    (.next (if consOk die k then t else s) : Res) = .next u :=
  congrArg _ ((if_pos (by simp [consOk, hd, hk])).trans h)

/-- A command to a position of the Horn of a consort that exists is carried out. -/
theorem next_of_position (hd : die < 4) (hk : k < 8) (hp : pos < 16) {u : State} (h : t = u) :
    (.next (if consOk die k ∧ pos < 16 then t else s) : Res) = .next u :=
  congrArg _ ((if_pos (by simp [consOk, hd, hk, hp])).trans h)

/-! ### Serving the ring (R271, R273) -/

/-- The descriptor at the front of the ring served next, of the op of the command and past its checks, is run. -/
theorem hornServe_front {bs : List Byte} {s0 : State} (hjob : (s.horn die k).job = none)
    (hen : s.rbit (hornReg die k 0x008) 0 = true) (hnext : s.hornNext die k = some pos) (hreed : s.reedAt die k pos = some x)
    (hread : (s.ringSeen die k x 0x404 4).hornRead die k x (s.ringBase die k + 64 * (s.ringWord die k x 0x404 % 16)) 64 = .ok (bs, s0))
    (hop : (hdescOf (leOf bs)).op = op) (hcheck : (s0.hornBusy die k true pos).hornCheck x (hdescOf (leOf bs)) = none) :
    s.hornServe die k op n =
      (s0.hornBusy die k true pos).hornRun die k pos (s.ringWord die k x 0x404 % 16) x (hdescOf (leOf bs)) n := by
  simp [State.hornServe, hjob, hen, hnext, hreed, hread, hop, hcheck]

theorem hornServe_job (hjob : (s.horn die k).job = some jb) (hop : jb.d.op = op) :
    s.hornServe die k op n = s.hornResume die k n jb := by
  simp [State.hornServe, hjob, hop]

theorem hornRun_start (hop : d.op ≤ 2) : s.hornRun die k pos slot x d n = s.hornStart die k pos slot x d n := if_pos hop

theorem hornRun_append (hop : d.op = 3) (h : s.hornAppend die k x d = .ok t) :
    s.hornRun die k pos slot x d n = t.hornDone die k pos := by
  simp [State.hornRun, hop, h]

theorem hornRun_backward (hop : d.op = 4) (h : s.hornBackward die k x d = .ok t) :
    s.hornRun die k pos slot x d n = t.hornDone die k pos := by
  simp [State.hornRun, hop, h]

/-! ### A job in progress (R280 to R283) -/

/-- The results of a job that no pre-emption has asked to stop are written, and its descriptor is counted done. -/
theorem hornFinish_done (hstop : jb.stopping = false) (hout : s.hornOutput die k x jb.d (s.horn die k).rows = .ok t) :
    s.hornFinish die k x jb = t.hornDone die k jb.pos := by
  simp [State.hornFinish, hout, hstop]

theorem hornGo_finish {qs : List (List Word)} {fuel : Nat} (h : jb.d.pages ≤ jb.page) :
    s.hornGo die k x qs (fuel + 1) jb = s.hornFinish die k x jb := by
  simp [State.hornGo, h, Nat.not_lt.mpr h]

theorem blockGo_finish (h : jb.d.total ≤ jb.page) : ∀ m : Nat, s.blockGo die k x m jb = s.hornFinish die k x jb
  | 0 => if_pos h
  | _ + 1 => if_pos h

/-- The rows that the next block or part of a job leaves. -/
def State.foldBlock (s : State) (die k : Nat) (x : ReedRef) (jb : HornJob) : HornRes (State × List HRow) :=
  if jb.d.op = 1 then s.denseBlock die k x jb.d jb.page else s.mergeBlock die k x jb.d jb.page

/-- One block or part that is not the last is folded, and the job is kept with the next one. -/
theorem blockGo_one {rows : List HRow} (hstop : jb.stopping = false) (h : jb.page + 1 < jb.d.total)
    (hfold : s.foldBlock die k x jb = .ok (t, rows)) :
    s.blockGo die k x 1 jb =
      (t.setHorn die k { t.horn die k with rows := rows }).hornKeep die k { jb with page := jb.page + 1 } := by
  have hnow : ¬jb.d.total ≤ jb.page := by omega
  unfold State.foldBlock at hfold
  simp [State.blockGo, hnow, Nat.not_le.mpr h, hstop, hfold]

theorem hornResume_paged {q : List (List Word) × State} (hreed : s.reedAt die k jb.pos = some x) (hop : jb.d.op = 0)
    (hq : s.hornQueries die k x jb.d = .ok q) :
    s.hornResume die k n jb = s.hornGo die k x q.1 (hornFuel s x jb.d) jb := by
  simp [State.hornResume, hreed, hop, hq]

theorem hornResume_blocks (hreed : s.reedAt die k jb.pos = some x) (hop : jb.d.op ≠ 0) :
    s.hornResume die k n jb = s.blockGo die k x (n.getD (jb.d.total + 1)) jb := by
  simp [State.hornResume, hreed, hop]

/-! ### Posts, pre-emptions and resets (R271, R293, R296) -/

/-- A post is seen, and an overrun halts the ring. -/
theorem hornPost_eq (hreed : s.reedAt die k pos = some x) :
    let s1 := (s.ringSeen die k x 0x400 4).setHorn die k
      { s.horn die k with seen := SMap.set (fun _ => 0) (s.horn die k).seen pos (s.ringWord die k x 0x400 % 2 ^ 24) }
    s.hornPost die k pos = if 16 < s1.ringLeft die k pos ∧ s1.ringHalted die k pos = false then
      s1.hornFail die k pos (s1.ringWord die k x 0x404 % 16) 0x04 else s1 := by
  simp only [State.hornPost, hreed]

theorem hornPreempt_idle (hjob : (s.horn die k).job = none) (hp : pos ∉ (s.horn die k).stopped) :
    s.hornPreempt die k pos = s.setHorn die k { s.horn die k with stopped := pos :: (s.horn die k).stopped } := by
  simp [State.hornPreempt, State.hornHalted, hjob, hp]

theorem hornPreempt_job (hjob : (s.horn die k).job = some jb) (hp : jb.pos = pos) :
    s.hornPreempt die k pos = s.hornResume die k (some 0) { jb with stopping := true } := by
  simp [State.hornPreempt, hjob, hp]

/-- A walk over the positions that a word of one set bit names takes one step. -/
theorem foldl_getLsbD_twoPow {α : Type} (f : α → Nat → α) (a : α) (hp : pos < 16) :
    (List.range 16).foldl (fun t i => if (BitVec.ofNat 32 (2 ^ pos)).getLsbD i then f t i else t) a = f a pos := by
  have hbit : ∀ i ∈ List.range 16, (BitVec.ofNat 32 (2 ^ pos)).getLsbD i = (i == pos) := by
    intro i hi
    have h32 : i < 32 := Nat.lt_trans (List.mem_range.mp hi) (by decide)
    rw [BitVec.getLsbD_ofNat, Nat.testBit_two_pow, Bool.eq_iff_iff]
    simpa [h32] using eq_comm
  rw [← List.foldl_filter, List.filter_congr hbit, List.filter_beq,
    List.count_eq_one_of_mem List.nodup_range (List.mem_range.mpr hp)]
  rfl

theorem execHornRingReset_eq {who : Requester} {v : Word} (hd : die < 4) (hk : k < 8)
    (hw : s.writable who (Blk.horn.at die k 0x10C) = true) :
    exec (.hornRingReset who die k v) s =
      .next ((List.range 16).foldl (fun t p => if v.getLsbD p then t.ringReset1 who die k p else t)
        (s.writeAt who .horn die k 0x10C v)) :=
  congrArg Host.Outcome.next ((gate_writable s who _ _ hw).trans (if_pos (by simp [consOk, hd, hk])))

theorem ringReset1_reed {who : Requester} (hreed : s.reedAt die k pos = some x) :
    s.ringReset1 who die k pos =
      if (s.reed x).busy = true then s.refuseAt who .horn die k 0x10C else s.ringInit die k pos := by
  simp only [State.ringReset1, hreed]

end

/-- Settles O31: the descriptor served next, the job in progress, the post, the pre-emption and the reset by their lemmas. -/
theorem hornCompletes : Obligations.HornCompletes := by
  refine ⟨fun die k s hd hk => ⟨?serve, ?job, fun pos x hp hreed => next_of_position hd hk hp (hornPost_eq hreed)⟩,
    fun die k pos s hd hk hp => ⟨fun hjob hnot => next_of_position hd hk hp (hornPreempt_idle hjob hnot),
      fun jb hjob hpos => next_of_position hd hk hp (hornPreempt_job hjob hpos), fun who v hw => ?reset⟩⟩
  case serve =>
    intro op pos x bs s0 t n hjob hen hnext hreed slot hread d s1 hop hcheck
    have hserve (m : Option Nat) : s.hornServe die k op m = s1.hornRun die k pos slot x d m :=
      hornServe_front hjob hen hnext hreed hread hop hcheck
    have hstart (m : Option Nat) (h2 : op ≤ 2) : s.hornServe die k op m = s1.hornStart die k pos slot x d m :=
      (hserve m).trans (hornRun_start (hop.trans_le h2))
    refine ⟨?_, ?_, ?_, ?_, ?_⟩
    · rintro rfl
      exact next_of_consOk hd hk (hstart none (by decide))
    · rintro rfl
      exact next_of_consOk hd hk (hstart n (by decide))
    · rintro rfl
      exact next_of_consOk hd hk (hstart n (by decide))
    · rintro rfl happend
      exact next_of_consOk hd hk ((hserve none).trans (hornRun_append hop happend))
    · rintro rfl hback
      exact next_of_consOk hd hk ((hserve none).trans (hornRun_backward hop hback))
  case job =>
    intro jb x t n hjob hstop hreed
    have hblocks {op : Nat} (m : Option Nat) (hop : jb.d.op = op) (h0 : op ≠ 0) :
        s.hornServe die k op m = s.blockGo die k x (m.getD (jb.d.total + 1)) jb :=
      (hornServe_job hjob hop).trans (hornResume_blocks hreed (hop.trans_ne h0))
    refine ⟨fun hall hout => ?finish, fun rows hmore => ?block⟩
    case finish =>
      have hdone := hornFinish_done hstop hout
      have hlast {op : Nat} (hop : jb.d.op = op) (h0 : op ≠ 0) : s.hornServe die k op n = t.hornDone die k jb.pos :=
        (hblocks n hop h0).trans ((blockGo_finish hall _).trans hdone)
      refine ⟨fun q hop hq => next_of_consOk hd hk ?_, fun hop => next_of_consOk hd hk (hlast hop (by decide)),
        fun hop => next_of_consOk hd hk (hlast hop (by decide))⟩
      have hpages : jb.d.pages ≤ jb.page := by simpa [HDesc.total, hop] using hall
      rw [hornServe_job hjob hop, hornResume_paged hreed hop hq]
      exact (hornGo_finish hpages).trans hdone
    case block =>
      intro u
      have hgo (h : s.foldBlock die k x jb = .ok (t, rows)) : s.blockGo die k x 1 jb = u := blockGo_one hstop hmore h
      refine ⟨fun hop hfold => next_of_consOk hd hk ((hblocks (some 1) hop (by decide)).trans (hgo ?_)),
        fun hop hfold => next_of_consOk hd hk ((hblocks (some 1) hop (by decide)).trans (hgo ?_))⟩
      · exact (if_pos hop).trans hfold
      · exact (if_neg (by simp [hop])).trans hfold
  case reset =>
    intro s1
    rw [execHornRingReset_eq hd hk hw]
    refine ⟨?_, ?_⟩
    · rintro rfl x hreed
      exact congrArg _ ((foldl_getLsbD_twoPow _ s1 hp).trans (ringReset1_reed hreed))
    · rintro rfl
      simp [s1]

end Sys2Proof.Machine

/-! PROOFS. The descriptors of a Serpent, its flash rows, migrations and cache regions (R308 to R316, R324, R325, R332, R339). -/
namespace Sys2Proof.Machine
open Sys2Proof.Laws

/-- A command to a unit of a chanter is carried out where the die is a chanter. -/
theorem next_of_chanter {die : Nat} (hd : die < 4) {s t u : State} (h : t = u) :
    (.next (if isChanter die then t else s) : Res) = .next u :=
  congrArg _ ((if_pos (decide_eq_true hd)).trans h)

section
variable {die op v : Nat} {r : URun} {d : SDesc} {w : VSlot} {j : SJob} {s t u : State}

/-! ### Serving the next descriptor (R309, R316, R332) -/

/-- Each of the six commands of a Serpent's list serves the op of its own. -/
theorem exec_serpOp {c : Instr} (hd : die < 4)
    (hc : (op, c) ∈ [(0, Instr.serpGather die), (1, .serpPoolSum die), (2, .serpPoolMean die), (3, .serpPoolMax die),
      (4, .serpUpdateOverwrite die), (5, .serpUpdateScatterAdd die)]) :
    exec c s = .next (s.serpServe die op) := by
  simp only [List.mem_cons, List.not_mem_nil, or_false, Prod.mk.injEq] at hc
  obtain ⟨rfl, rfl⟩ | ⟨rfl, rfl⟩ | ⟨rfl, rfl⟩ | ⟨rfl, rfl⟩ | ⟨rfl, rfl⟩ | ⟨rfl, rfl⟩ := hc <;>
    exact next_of_chanter hd rfl

/-- A list that goes on, with no descriptor in progress, begins its next descriptor at the command of the descriptor's op. -/
theorem serpServe_begin (hrun : s.runOf die 8 = some r) (hend : r.ended = false) (hhold : r.hold = false)
    (hnext : s.nextDesc die 3 4 r = .ok v) (hop : dfld v 0 1 = op) (hjob : (s.serp die).job = none) :
    s.serpServe die op = s.serpGo die r v {} := by
  simp [State.serpServe, hrun, hend, hhold, hnext, hop, hjob]

/-- The state in which a descriptor goes over its indices: what reading it met is noted, its step is marked where it updates,
and its access to the version is recorded (R318, R477). -/
def State.serpBegun (s : State) (die v : Nat) (r : URun) (d : SDesc) (w : VSlot) : State :=
  let s0 := s.noteIns die r.part [(r.list + 64 * r.idx, 64), (dfld v 16 8, 4 * (d.bags + 1)), (dfld v 8 8, 8 * d.idx.length)]
  (if decide (4 ≤ d.op) then s0.stepUpdates r.uid else s0).recordAccess die w.id w.version r.uid (decide (4 ≤ d.op))

section
variable (hdesc : s.serpDesc die r.part v = .ok d) (hver : s.boundVer 0 die (dfld v 2 2) r.uid = some w)
include hdesc hver

theorem serpGo_otherPart (hpart : w.tablePart ≠ r.part) : s.serpGo die r v j = s.serpFail die r v 6 := by
  simp [State.serpGo, hdesc, hver, hpart]

theorem serpGo_notOpen (hpart : w.tablePart = r.part) (hop : 4 ≤ d.op) (hopen : w.isOpen = false) :
    s.serpGo die r v j = s.serpFail die r v 1 := by
  simp [State.serpGo, hdesc, hver, hpart, hop, hopen]

/-- A descriptor that may use its version, and whose indices all resolve, is completed. -/
theorem serpGo_done (hpart : w.tablePart = r.part) (hopen : decide (4 ≤ d.op) = true → w.isOpen = true)
    (hcross : s.crossStep die w.id w.version r.uid (decide (4 ≤ d.op)) = false)
    (hwalk : (s.serpBegun die v r d w).serpWalk die r.part d w (s.hosted die) (d.idx.length + 1) {} = .done t j) :
    s.serpGo die r v {} = t.serpFinish die r d w (s.hosted die) j := by
  have hmay : (decide (4 ≤ d.op) && !w.isOpen) = false := by
    cases h : decide (4 ≤ d.op)
    · rfl
    · rw [hopen h]; rfl
  unfold State.serpBegun at hwalk
  unfold State.serpGo
  simp only [hdesc, hver, hpart, hmay, hcross, ne_eq, not_true_eq_false, Bool.false_eq_true, if_false, if_true]
  rw [hwalk]

end

/-! ### Completing a descriptor (R313 to R316) -/

/-- The output rows of a gather, or of a pooling without weights. -/
theorem serpFinish_rows {qs : List Nat} (hop : d.op < 4) (hflag : bit d.flags 1 = false ∨ d.op = 0)
    (hout : (s.noteIns die r.part [(dfld d.v 24 8, 0)]).serpOutput die r.part d w qs j.rows [] = .ok u) :
    s.serpFinish die r d w qs j = (u.setSJob die none).runNext die 8 (bit d.flags 4) := by
  have hweights : ¬ (bit d.flags 1 = true ∧ d.op ≠ 0) := fun h => hflag.elim (fun hf => by simp [hf] at h) h.2
  simp only [State.serpFinish, Nat.not_le.mpr hop, hweights, if_false]
  exact hout ▸ rfl

/-- A Serpent without quarter 0 writes no status. -/
theorem serpFinish_noStatus {qs : List Nat} (hop : 4 ≤ d.op) (h0 : 0 ∉ qs) :
    s.serpFinish die r d w qs j = (s.setSJob die none).runNext die 8 (bit d.flags 4) := by
  simp [State.serpFinish, hop, h0]

/-- The Serpent with quarter 0 writes the status of an update, a free value. -/
theorem serpFinish_status {qs : List Nat} (hop : 4 ≤ d.op) (h0 : 0 ∈ qs)
    (hout : (s.free 64).2.uout 8 die r.part 3 4 8 (dfld d.v 40 8) (leBytes 8 (s.free 64).1) = .ok u) :
    s.serpFinish die r d w qs j = (u.setSJob die none).runNext die 8 (bit d.flags 4) := by
  simp [State.serpFinish, hop, h0, hout]

/-! ### Rows from flash and held updates (R308, R325, R331) -/

section
variable {q row : Nat} (hrun : s.runOf die 8 = some r) (hjob : (s.serp die).job = some j)
  (hnext : s.nextDesc die 3 4 r = .ok v)
include hrun hjob hnext

theorem serpFlash_uncorrectable (hneed : j.need = some (q, row)) :
    s.serpFlash die true = (s.serpCnt die 0x068 1).serpFail die r v 5 := by
  simp [State.serpFlash, hrun, hjob, hneed, hnext]

/-- The row is read from the object of the quarter's header, or from the one that a moved quarter is served from. -/
theorem serpFlash_arrives {obj : Nat} (hneed : j.need = some (q, row))
    (hver : s.boundVer 0 die (dfld v 2 2) r.uid = some w)
    (hobj : (w.moved q = none ∧ ∃ h : QHead, s.quarterHead die r.part w q = .ok h ∧ h.obj = obj) ∨
      ∃ n : Nat, w.moved q = some (obj, n)) :
    s.serpFlash die false = (s.serpCnt die 0x068 1).serpGo die r v
      { j with need := none, fetched := ((q, row), s.flashBytes obj (row * w.qBytes) w.qBytes) :: j.fetched } := by
  obtain ⟨hmoved, h, hhead, rfl⟩ | ⟨n, hmoved⟩ := hobj
  · simp [State.serpFlash, hrun, hjob, hneed, hnext, hver, hmoved, hhead]
  · simp [State.serpFlash, hrun, hjob, hneed, hnext, hver, hmoved]

theorem execMigrationUpdateRelease_held (hheld : j.held = true) :
    exec (.migrationUpdateRelease die) s = .next (s.serpGo die r v j) := by
  change execMigrationUpdateRelease die s = _
  simp [execMigrationUpdateRelease, hrun, hjob, hheld, hnext]

end

/-! ### Migrations and cache regions (R324, R339) -/

/-- The Serpent after its `n`-th tag commits to a cache set: the row holds the buffered updates (R324). -/
def Serpent.committed (x : Serpent) (n a b : Nat) (t : Tag) : Serpent :=
  { x with tags := x.tags.eraseIdx n, order := x.order + 1, cache := x.cache ++
    [⟨a, b, t.table, t.version, t.quarter, t.row, t.upd.foldl (fun d u => applyUpd u.1 d u.2) t.data, 1, x.order + 1⟩] }

/-- A row that has no DRAM source cannot have become uncorrectable. -/
theorem migCommit_cache {n a b : Nat} {g : Tag} (htag : (s.serp die).tags[n]? = some g) (hsrc : g.src = none)
    (hdest : g.dest = .cache a b) :
    s.migCommit die n = (s.setSerp die ((s.serp die).committed n a b g)).serpCnt die 0x058 1 := by
  simp [State.migCommit, htag, hsrc, hdest, Serpent.committed]

theorem execSerpCreg_eq {who : Requester} {i : Nat} {value : Word} (hd : die < 4) (hi : i < 16)
    (hw : s.writable who (Blk.serp.at die die (0x140 + 4 * i)) = true) :
    exec (.serpCreg who die i value) s = .next (s.writeCreg who die i value) :=
  congrArg Host.Outcome.next ((gate_writable s who _ _ hw).trans (if_pos ⟨decide_eq_true hd, hi⟩))

section
variable {who : Requester} {i : Nat} {value : Word}

theorem writeCreg_refused (hbad : cregBad (fun k => (s.writeAt who .serp die die (0x140 + 4 * i) value).reg
      (Blk.serp.at die die (0x140 + 4 * k))) = true) :
    s.writeCreg who die i value = s.refuseWrite who .serp die die (0x140 + 4 * i) value := if_pos hbad

/-- A region that is written for the first time since the last edge waits for the next one. -/
theorem writeCreg_waits (hbad : cregBad (fun k => (s.writeAt who .serp die die (0x140 + 4 * i) value).reg
      (Blk.serp.at die die (0x140 + 4 * k))) = false)
    (hfrozen : s.frozen (Blk.serp.at die die (0x140 + 4 * i)) = false)
    (hclean : i / 2 ∉ ((s.writeAt who .serp die die (0x140 + 4 * i) value).serp die).dirty) :
    let s1 := s.writeAt who .serp die die (0x140 + 4 * i) value
    s.writeCreg who die i value =
      s1.setSerp die { s1.serp die with dirty := (i / 2) :: (s1.serp die).dirty } := by
  intro s1
  have hnot : ¬ (s1.serp die).dirty.contains (i / 2) = true := by simpa using hclean
  exact (if_neg (Bool.eq_false_iff.mp hbad)).trans ((if_neg (Bool.eq_false_iff.mp hfrozen)).trans
    (congrArg (fun l => s1.setSerp die { s1.serp die with dirty := l }) (if_neg hnot)))

end

end

/-- Settles O32: the descriptor begun at the command of its op, by its outcome, and the other commands by their lemmas. -/
theorem serpentDescriptors : Obligations.SerpentDescriptors := by
  refine ⟨fun die op v c r d w s hd hc hrun hend hhold hnext hop hjob hdesc hdop hver => ?descriptor,
    fun who die s hd => ⟨fun r j q row v w h hrun hjob hneed hnext hver => ?flash,
      fun r j v hrun hjob hheld hnext => execMigrationUpdateRelease_held hrun hjob hnext hheld,
      fun n a b t htag hsrc hdest => next_of_chanter hd (migCommit_cache htag hsrc hdest),
      fun i v hi hw => ?creg⟩⟩
  case descriptor =>
    intro upd s0 s1
    rw [exec_serpOp hd hc, serpServe_begin hrun hend hhold hnext hop hjob]
    subst hdop
    refine ⟨fun hpart => congrArg _ (serpGo_otherPart hdesc hver hpart),
      fun hpart hupd hopen => congrArg _ (serpGo_notOpen hdesc hver hpart (of_decide_eq_true hupd) hopen),
      fun hpart hopen hcross t j hwalk => ?_⟩
    rw [serpGo_done hdesc hver hpart hopen hcross hwalk]
    exact ⟨fun h4 hflag u hout => congrArg _ (serpFinish_rows h4 hflag hout),
      fun h4 h0 => congrArg _ (serpFinish_noStatus h4 h0),
      fun h4 h0 u hout => congrArg _ (serpFinish_status h4 h0 hout)⟩
  case flash =>
    exact ⟨next_of_chanter hd (serpFlash_uncorrectable hrun hjob hnext hneed),
      fun hmoved hhead => next_of_chanter hd (serpFlash_arrives hrun hjob hnext hneed hver (.inl ⟨hmoved, h, hhead, rfl⟩)),
      fun obj n hmoved => next_of_chanter hd (serpFlash_arrives hrun hjob hnext hneed hver (.inr ⟨n, hmoved⟩))⟩
  case creg =>
    intro s1 bad
    rw [execSerpCreg_eq hd hi hw]
    exact ⟨fun hbad => congrArg _ (writeCreg_refused hbad),
      fun hbad hfrozen hclean => congrArg _ (writeCreg_waits hbad hfrozen hclean)⟩

end Sys2Proof.Machine

/-! PROOFS. Version directories: publishing a version and the retire reports (R327 to R337, R365, R375, R405, R449 to R452). -/
namespace Sys2Proof.Machine
open Sys2Proof.Laws

/-- A command to a unit of a bellows is carried out where the die is a bellows. -/
theorem next_of_bellows {die : Nat} (hd : die = 4 ∨ die = 5) {s t u : State} (h : t = u) :
    (.next (if isBellows die then t else s) : Res) = .next u :=
  congrArg _ ((if_pos (decide_eq_true hd)).trans h)

/-! ### Publishing (R328, R336) -/

section
variable (s : State) (kind die id lo : Nat)

@[simp] theorem dir_setDir_same (d : Dir) : (s.setDir kind die d).dir kind die = d := get_set_same ..

/-- The number of pending versions leaves the other fields of VER_STATUS as they are. -/
theorem fld_setDir_verStatus (d : Dir) {hi lo' : Nat} (h : hi < 16) :
    (s.setDir kind die d).fld ((verBlk kind).at die die 0x10C) hi lo' = s.fld ((verBlk kind).at die die 0x10C) hi lo' :=
  fld_setFld_other _ _ _ _ _ _ _ (.inr h)

/-- Breaths from now to the target of a publish. -/
def State.verAhead (s : State) (lo : Nat) : Nat := (lo + 2 ^ 16 - s.breath.number % 2 ^ 16) % 2 ^ 16

/-- The slots of an id, and those pending, leave room for one more. -/
def Dir.hasRoom (d : Dir) (id : Nat) : Prop :=
  d.slots.countP (fun v => decide (v.id = id)) < 4 ∧ d.slots.countP (fun (v : VSlot) => decide (v.st = VState.pending)) < 16

variable {s kind die id lo} {desc : Option Nat}

theorem publishResult_noSlot (h : 4 ≤ (s.dir kind die).slots.countP (fun v => decide (v.id = id))) :
    s.publishResult kind die id lo desc = 3 := if_pos h

theorem publishResult_queueFull (h : (s.dir kind die).slots.countP (fun v => decide (v.id = id)) < 4)
    (hq : 16 ≤ (s.dir kind die).slots.countP (fun (v : VSlot) => decide (v.st = VState.pending))) :
    s.publishResult kind die id lo desc = 4 := (if_neg (Nat.not_le.mpr h)).trans (if_pos hq)

/-- With room in the directory, the target decides, and then the descriptor. -/
theorem publishResult_room (h : (s.dir kind die).hasRoom id) :
    s.publishResult kind die id lo desc = if s.verAhead lo = 0 ∨ 2 ^ 15 ≤ s.verAhead lo then 2 else
      if 1024 < s.verAhead lo then 5 else if desc = none then 1 else 0 :=
  (if_neg (Nat.not_le.mpr h.1)).trans (if_neg (Nat.not_le.mpr h.2))

theorem publishResult_late (h : (s.dir kind die).hasRoom id) (hn : s.verAhead lo = 0 ∨ 2 ^ 15 ≤ s.verAhead lo) :
    s.publishResult kind die id lo desc = 2 := (publishResult_room h).trans (if_pos hn)

theorem publishResult_early (h : (s.dir kind die).hasRoom id) (h1 : 1024 < s.verAhead lo) (h2 : s.verAhead lo < 2 ^ 15) :
    s.publishResult kind die id lo desc = 5 :=
  (publishResult_room h).trans ((if_neg (by omega)).trans (if_pos h1))

/-- A target 1 to 1,024 breaths ahead leaves the descriptor to decide. -/
theorem publishResult_inTime (h : (s.dir kind die).hasRoom id) (h1 : 0 < s.verAhead lo) (h2 : s.verAhead lo ≤ 1024) :
    s.publishResult kind die id lo desc = if desc = none then 1 else 0 :=
  (publishResult_room h).trans ((if_neg (by omega)).trans (if_neg (by omega)))

/-- A publish that is not accepted changes VER_STATUS alone. -/
theorem publish_of_result_ne (h : s.publishResult kind die id lo desc ≠ 0) : s.publish kind die id lo desc =
    s.setFld ((verBlk kind).at die die 0x10C) 2 0 (s.publishResult kind die id lo desc) := by
  cases desc with
  | none => rfl
  | some x => exact if_pos h

/-- The slot of a version that has just been published. -/
def State.pendingSlot (s : State) (id lo x : Nat) : VSlot :=
  { id := id, st := .pending, version := x % 2 ^ 32, desc := x, target := s.breath.number + s.verAhead lo }

theorem publish_of_result_zero {x : Nat} (h : s.publishResult kind die id lo (some x) = 0) :
    s.publish kind die id lo (some x) = (s.setFld ((verBlk kind).at die die 0x10C) 2 0 0).setDir kind die
      { s.dir kind die with slots := (s.dir kind die).slots ++ [s.pendingSlot id lo x] } := by
  simp only [State.publish, h, ne_eq, not_true_eq_false, if_false, State.pendingSlot, State.verAhead]

theorem publish_refused {n : Nat} (h : s.publishResult kind die id lo desc = n) (h0 : n ≠ 0) (h8 : n < 8) :
    (s.publish kind die id lo desc).fld ((verBlk kind).at die die 0x10C) 2 0 = n ∧
      (s.publish kind die id lo desc).dirs = s.dirs := by
  subst h
  rw [publish_of_result_ne h0]
  exact ⟨(fld_setFld_same _ _ _ _ _ (by decide)).trans (Nat.mod_eq_of_lt h8), setFld_dirs ..⟩

theorem publish_accepted {x : Nat} (h : s.publishResult kind die id lo (some x) = 0) :
    (s.publish kind die id lo (some x)).fld ((verBlk kind).at die die 0x10C) 2 0 = 0 ∧
      ((s.publish kind die id lo (some x)).dir kind die).slots = (s.dir kind die).slots ++ [s.pendingSlot id lo x] := by
  rw [publish_of_result_zero h, dir_setDir_same, fld_setDir_verStatus _ _ _ _ (by decide)]
  exact ⟨fld_setFld_same _ _ _ _ _ (by decide), rfl⟩

@[simp] theorem publish_mem : (s.publish kind die id lo desc).mem = s.mem := by
  unfold State.publish
  cases desc with
  | none => rfl
  | some x => simp only []; split <;> rfl

end

/-! ### The write of VER_PUBLISH (R335, R365, R405) -/

section
variable {who : Requester} {die : Nat} {v : Word} {s : State}

theorem execSerpVerPublish_eq (hd : die < 4) (hw : s.writable who (Blk.serp.at die die 0x108) = true) :
    exec (.serpVerPublish who die v) s =
      .next ((s.writeAt who .serp die die 0x108 v).publishTable die (fieldW v 25 16) (fieldW v 15 0)) :=
  (congrArg Host.Outcome.next (gate_writable s who _ _ hw)).trans (next_of_chanter hd rfl)

theorem execPanpVerPublish_eq (hd : die < 4) (hw : s.writable who (Blk.panp.at die die 0x108) = true) :
    exec (.panpVerPublish who die v) s =
      .next ((s.writeAt who .panp die die 0x108 v).publishIndex die (fieldW v 21 16) (fieldW v 15 0)) :=
  (congrArg Host.Outcome.next (gate_writable s who _ _ hw)).trans (next_of_chanter hd rfl)

/-- A vocabulary version of a Mouthpiece has an id below 16. -/
theorem execMouthVerPublish_eq (hd : die = 4 ∨ die = 5) (hw : s.writable who (Blk.mouth.at die die 0x108) = true) :
    exec (.mouthVerPublish who die v) s = .next (((s.writeAt who .mouth die die 0x108 v).noteVer 2 die 128).publish 2 die
      (fieldW v 27 16) (fieldW v 15 0) ((s.readVerDesc 2 die 128).bind (fun x =>
        if decide (fieldW v 27 16 < 16) && vocabDescOk (fieldW v 27 16) x then some x else none))) := by
  simp only [Bool.and_eq_true, decide_eq_true_eq]
  exact (congrArg Host.Outcome.next (gate_writable s who _ _ hw)).trans (next_of_bellows hd rfl)

theorem execKeywVerPublish_eq (hd : die = 4 ∨ die = 5) (hw : s.writable who (Blk.keyw.at die die 0x108) = true) :
    exec (.keywVerPublish who die v) s = .next (((s.writeAt who .keyw die die 0x108 v).noteVer 3 die 64).publish 3 die
      (fieldW v 27 16) (fieldW v 15 0) ((s.readVerDesc 3 die 64).bind (fun x =>
        if gramDescOk (fieldW v 27 16) x then some x else none))) :=
  (congrArg Host.Outcome.next (gate_writable s who _ _ hw)).trans (next_of_bellows hd rfl)

end

/-! ### Retire reports (R337, R375, R449, R451) -/

section
variable {kind die : Nat} {s : State}

theorem retirePop_empty (h : (s.dir kind die).retire = []) : s.retirePop kind die = { s with readData := 0 } := by
  simp [State.retirePop, h]

theorem retirePop_oldest {w : Word} {ws : List Word} (h : (s.dir kind die).retire = w :: ws) : s.retirePop kind die =
    { ((s.setDir kind die { s.dir kind die with retire := ws }).sweepDir kind die).reported kind die w with
      readData := w.toNat } := by
  simp [State.retirePop, h]

/-- Each read of a retire register is of the directory of its unit's kind. -/
theorem exec_retirePop {c : Instr}
    (hc : (kind, die, c) ∈ (List.range 4).flatMap (fun d => [(0, d, Instr.serpRetirePop d), (1, d, .panpRetirePop d)]) ++
      [(2, 4, .mouthRetirePop 4), (2, 5, .mouthRetirePop 5), (3, 4, .keywRetirePop 4), (3, 5, .keywRetirePop 5)]) :
    exec c s = .next (s.retirePop kind die) := by
  simp only [List.mem_append, List.mem_flatMap, List.mem_range, List.mem_cons, List.not_mem_nil, or_false, Prod.mk.injEq] at hc
  obtain ⟨d, hd, ⟨rfl, rfl, rfl⟩ | ⟨rfl, rfl, rfl⟩⟩ | ⟨rfl, rfl, rfl⟩ | ⟨rfl, rfl, rfl⟩ | ⟨rfl, rfl, rfl⟩ |
    ⟨rfl, rfl, rfl⟩ := hc
  · exact next_of_chanter hd rfl
  · exact next_of_chanter hd rfl
  all_goals rfl

end

/-- Settles O33: the publish by its result, the four registers, and the report read by what the directory holds. -/
theorem versions : Obligations.Versions := by
  refine ⟨fun kind die id lo desc s => ?publish, fun who die v s => ?write, fun kind die c s hc => ?retire⟩
  case publish =>
    intro d n held pend t result
    refine ⟨fun hheld hpend h0 h1 x hx => ?_, fun hheld => publish_refused (publishResult_noSlot hheld) (by decide) (by decide),
      fun hheld hpend => publish_refused (publishResult_queueFull hheld hpend) (by decide) (by decide), fun hheld hpend => ?_,
      fun a => congrArg (Memory.byte · a) publish_mem⟩
    · subst hx
      exact publish_accepted ((publishResult_inTime ⟨hheld, hpend⟩ h0 h1).trans (if_neg (by simp)))
    · have hroom : (s.dir kind die).hasRoom id := ⟨hheld, hpend⟩
      exact ⟨fun hn => publish_refused (publishResult_late hroom hn) (by decide) (by decide),
        fun h1 h2 => publish_refused (publishResult_early hroom h1 h2) (by decide) (by decide),
        fun h0 h1 hx => publish_refused ((publishResult_inTime hroom h0 h1).trans (if_pos hx)) (by decide) (by decide)⟩
  case write =>
    exact ⟨execSerpVerPublish_eq, execPanpVerPublish_eq, execMouthVerPublish_eq, execKeywVerPublish_eq⟩
  case retire =>
    rw [exec_retirePop hc]
    exact ⟨fun h => congrArg _ (retirePop_empty h), fun w ws h => congrArg _ (retirePop_oldest h)⟩

end Sys2Proof.Machine

/-! PROOFS. The descriptor lists of a Panpipe and of a Piccolo (R348, R355 to R373, R387 to R399). -/
namespace Sys2Proof.Machine

section
variable {die op v e : Nat} {r : URun} {w : VSlot} {l : PLog} {c : Instr} {s t : State}

/-! ### Serving the Panpipe's next descriptor (R355, R360, R364, R371, R372) -/

/-- Each of the six commands of a Panpipe's list serves the op of its own. -/
theorem exec_panpOp (hd : die < 4)
    (hc : (op, c) ∈ [(0, Instr.panpSearch die), (1, .panpExactSearch die), (2, .panpInsert die), (3, .panpDelete die),
      (4, .panpCompare die), (5, .panpMerge die)]) :
    exec c s = .next (s.panpServe die op) := by
  simp only [List.mem_cons, List.not_mem_nil, or_false, Prod.mk.injEq] at hc
  obtain ⟨rfl, rfl⟩ | ⟨rfl, rfl⟩ | ⟨rfl, rfl⟩ | ⟨rfl, rfl⟩ | ⟨rfl, rfl⟩ | ⟨rfl, rfl⟩ := hc <;>
    exact next_of_chanter hd rfl

/-- A list that goes on, with no tile awaited, runs its next descriptor at the command of the descriptor's op. -/
theorem panpServe_begin (hrun : s.runOf die 9 = some r) (hend : r.ended = false) (hhold : r.hold = false)
    (hneed : (s.panp die).need = none) (hnext : s.nextDesc die 3 4 r = .ok v) (hop : dfld v 0 1 = op) :
    s.panpServe die op = s.panpGo die r v := by
  simp [State.panpServe, hrun, hend, hhold, hneed, hnext, hop]

section
variable (hfields : panpFieldsOk v = true) (hver : s.boundVer 1 die (dfld v 2 1) r.uid = some w)
  (hpart : dfld w.desc 12 1 = r.part)
include hfields hver hpart

/-- The list goes on past a descriptor that is carried out, and the tiles kept for it are dropped. -/
theorem panpGo_ok
    (h : (s.noteIns die r.part [(r.list + 64 * r.idx, 64)]).panpRun die r.part w r.uid v = .ok t l) :
    s.panpGo die r v = ((t.setPanp die { t.panp die with tiles := [], need := none }).unitBusy .panp die 0x118
      false).runNext die 9 (bit (dfld v 1 1) 3) := by
  simp [State.panpGo, hfields, hver, hpart, h]

theorem panpGo_fail
    (h : (s.noteIns die r.part [(r.list + 64 * r.idx, 64)]).panpRun die r.part w r.uid v = .fail e l) :
    s.panpGo die r v = (s.noteIns die r.part [(r.list + 64 * r.idx, 64)]).panpFail die r v e l := by
  simp [State.panpGo, hfields, hver, hpart, h]

/-- A descriptor that needs a record tile from flash waits for it and has done nothing yet (R348). -/
theorem panpGo_need {a b n : Nat}
    (h : (s.noteIns die r.part [(r.list + 64 * r.idx, 64)]).panpRun die r.part w r.uid v = .need a b n l) :
    s.panpGo die r v = (s.setPanp die { s.panp die with need := some (a, b, n) }).unitBusy .panp die 0x118 true := by
  simp [State.panpGo, hfields, hver, hpart, h]

end

/-! ### A record tile from flash (R348) -/

section
variable {qi obj tile : Nat} (hrun : s.runOf die 9 = some r) (hneed : (s.panp die).need = some (qi, obj, tile))
  (hnext : s.nextDesc die 3 4 r = .ok v)
include hrun hneed hnext

theorem panpTile_uncorrectable :
    s.panpTile die true = (s.panpCnt die 0x050 1).panpFail die r v 5 ((s.panpCnt die 0x050 1).panpSoFar die r v) := by
  simp [State.panpTile, hrun, hneed, hnext]

theorem panpTile_arrives :
    let s1 := s.panpCnt die 0x050 1
    s.panpTile die false = (s1.setPanp die { s1.panp die with
      need := none, tiles := ((qi, obj, tile), s.flashBytes obj (4096 * tile) 4096) :: (s1.panp die).tiles }).panpGo die r v := by
  simp [State.panpTile, hrun, hneed, hnext]

end

/-! ### Serving the Piccolo's next descriptor (R387 to R399) -/

/-- Each of the four commands of a Piccolo's list serves the op of its own. -/
theorem exec_piccOp (hd : die < 4)
    (hc : (op, c) ∈ [(0, Instr.piccTopk die), (1, .piccThreshold die), (2, .piccMerge die), (3, .piccSort die)]) :
    exec c s = .next (s.piccServe die op) := by
  simp only [List.mem_cons, List.not_mem_nil, or_false, Prod.mk.injEq] at hc
  obtain ⟨rfl, rfl⟩ | ⟨rfl, rfl⟩ | ⟨rfl, rfl⟩ | ⟨rfl, rfl⟩ := hc <;> exact next_of_chanter hd rfl

/-- A Piccolo without its enable bit, or held by a pre-emption, starts no descriptor (R398). -/
theorem piccServe_stopped (hrun : s.runOf die 10 = some r)
    (hstop : s.rbit (Blk.picc.at die die 0x008) 0 = false ∨ r.hold = true) : s.piccServe die op = s := by
  simp only [State.piccServe, hrun]
  exact if_pos (.inr hstop.symm)

section
variable (hrun : s.runOf die 10 = some r) (hend : r.ended = false) (hhold : r.hold = false)
  (hen : s.rbit (Blk.picc.at die die 0x008) 0 = true) (hnext : s.nextDesc die 2 3 r = .ok v) (hop : dfld v 0 1 = op)
include hrun hend hhold hen hnext hop

/-- A descriptor that is carried out is counted in PICC_PROGRESS, and the list goes on. -/
theorem piccServe_ok (h : s.piccRun die r.part ⟨v⟩ = .ok t) : s.piccServe die op =
    (t.setReg (Blk.picc.at die die 0x104) (BitVec.ofNat 32 ((r.idx + 1) % 2 ^ 16))).runNext die 10 (bit v 10) := by
  simp [State.piccServe, picc, hrun, hend, hhold, hen, hnext, hop, h]

theorem piccServe_error (h : s.piccRun die r.part ⟨v⟩ = .error e) : s.piccServe die op = s.piccFail die r e := by
  simp [State.piccServe, picc, hrun, hend, hhold, hen, hnext, hop, h]

end

end

/-- Settles O34: the descriptor begun at the command of its op, by how its run ends, and the tile from flash by whether it can
be corrected. -/
theorem searchUnits : Obligations.SearchUnits := by
  refine ⟨⟨fun die op v c r w s hd hc hrun hend hhold hneed hnext hop hfields hver hpart => ?panpipe,
    fun die v qi obj tile r s hd hrun hneed hnext => ⟨next_of_chanter hd (panpTile_uncorrectable hrun hneed hnext),
      next_of_chanter hd (panpTile_arrives hrun hneed hnext)⟩⟩,
    fun die op v c r s hd hc hrun hend => ?piccolo⟩
  case panpipe =>
    intro s0 res
    rw [exec_panpOp hd hc, panpServe_begin hrun hend hhold hneed hnext hop]
    have hres : s0.panpRun die r.part w r.uid v = res := by subst hop; rfl
    exact ⟨fun t l h => congrArg _ (panpGo_ok hfields hver hpart (hres.trans h)),
      fun e l h => congrArg _ (panpGo_fail hfields hver hpart (hres.trans h)),
      fun a b n l h => congrArg _ (panpGo_need hfields hver hpart (hres.trans h))⟩
  case piccolo =>
    rw [exec_piccOp hd hc]
    exact ⟨fun hstop => congrArg _ (piccServe_stopped hrun hstop), fun hen hhold hnext hop =>
      ⟨fun t h => congrArg _ (piccServe_ok hrun hend hhold hen hnext hop h),
        fun e h => congrArg _ (piccServe_error hrun hend hhold hen hnext hop h)⟩⟩

end Sys2Proof.Machine

/-! PROOFS. The generators' checks and their known-answer tests (R465, R467). -/
namespace Sys2Proof.Machine
open Sys2Proof.Laws

/-- Each consort has a generator, and each bellows has one. -/
theorem sngThere_iff {die i : Nat} : sngThere die i = true ↔ (die < 4 ∧ i < 8) ∨ ((die = 4 ∨ die = 5) ∧ i = die) := by
  simp [sngThere, isBellows]

/-- A count and an interrupt of a block change CNT_OVF and INT_STATUS of its page and no other register of the page. -/
theorem reg_raise_cntAdd (s : State) (b : Blk) (die i n k : Nat) {off o : Nat} (hoff : off < 4096) (hint : 0x010 ≠ o)
    (hovf : 0x028 ≠ o) :
    ((s.cntAdd b die i off n).raise (b.at die i 0) k).reg (b.at die i o) = s.reg (b.at die i o) := by
  rw [reg_raise_other _ _ _ _ (by rwa [inPage_at _ _ _ _ _ (by decide), Ne, at_inj]), cntAdd_reg_same _ _ _ _ _ _ _ hoff hovf]

theorem RegsOnly.count {s t : State} (h : RegsOnly s t) (a : Nat) : t.count a = s.count a :=
  field_of_regs s (State.count · a) t h rfl

/-- Writes of registers, a count and an interrupt change the registers and the counters alone. -/
theorem frame_raise_cntAdd {s u : State} (h : RegsOnly s u) (b : Blk) (die i off n a k : Nat) :
    { (u.cntAdd b die i off n).raise a k with regs := s.regs, cnt := s.cnt } = s :=
  (congrArg (fun t : State => { t with regs := s.regs, cnt := s.cnt }) (cntAdd_frame u b die i off n)).trans
    (congrArg (fun t : State => { t with cnt := s.cnt }) h)

section
variable {who : Requester} {die i : Nat} {v o1 o2 : Word} {x : DWord} {s : State}

/-! ### A check (R467) -/

/-- The state that a check computes, from its seed, stream and index. -/
def State.sngState (s : State) (die i : Nat) : DWord :=
  rngState (s.pair (Blk.sng.at die i 0x100)) (s.pair (Blk.sng.at die i 0x108)) (s.pair (Blk.sng.at die i 0x110)).toNat

/-- The registers after a check that reached the state `x`: its output, the two words of `x`, and `busy` clear. -/
def State.sngChecked (s : State) (die i : Nat) (x : DWord) : State :=
  (((s.setReg (Blk.sng.at die i 0x11C) (rngOut x)).setReg (Blk.sng.at die i 0x120) (x.setWidth 32)).setReg
    (Blk.sng.at die i 0x124) ((x >>> 32).setWidth 32)).setFld (Blk.sng.at die i 0x00C) 31 31 0

theorem sngChecked_frame : RegsOnly s (s.sngChecked die i x) :=
  ((((RegsOnly.refl s).setReg ..).setReg ..).setReg ..).setFld ..

theorem sngChecked_out : (s.sngChecked die i x).reg (Blk.sng.at die i 0x11C) = rngOut x := by
  simp [State.sngChecked, reg_setFld, reg_setReg, at_inj]

theorem sngChecked_stateLo : (s.sngChecked die i x).reg (Blk.sng.at die i 0x120) = x.setWidth 32 := by
  simp [State.sngChecked, reg_setFld, reg_setReg, at_inj]

theorem sngChecked_stateHi : (s.sngChecked die i x).reg (Blk.sng.at die i 0x124) = (x >>> 32).setWidth 32 := by
  simp [State.sngChecked, reg_setFld, at_inj]

theorem sngChecked_busy : (s.sngChecked die i x).rbit (Blk.sng.at die i 0x00C) 31 = false :=
  rbit_setFld_same _ _ _ (by decide) 0

/-- A check that ends fills its registers, is counted in CHK_CNT and raises its interrupt. -/
def State.sngCheckEnds (s : State) (die i : Nat) (x : DWord) : State :=
  ((s.sngChecked die i x).cntAdd .sng die i 0x038 1).raise (Blk.sng.at die i 0) 1

theorem sngCheckEnds_reg {o : Nat} (hint : 0x010 ≠ o) (hovf : 0x028 ≠ o) :
    (s.sngCheckEnds die i x).reg (Blk.sng.at die i o) = (s.sngChecked die i x).reg (Blk.sng.at die i o) :=
  reg_raise_cntAdd _ _ _ _ _ _ (by decide) hint hovf

theorem sngCheckEnds_busy : (s.sngCheckEnds die i x).rbit (Blk.sng.at die i 0x00C) 31 = false := by
  rw [rbit_eq_getLsbD, sngCheckEnds_reg (by decide) (by decide), ← rbit_eq_getLsbD, sngChecked_busy]

theorem sngCheckEnds_raised : (s.sngCheckEnds die i x).rbit (Blk.sng.at die i 0x010) 1 = true :=
  inPage_at .sng die i 0 0x010 (by decide) ▸ rbit_raise _ (Blk.sng.at die i 0) 1 (by decide)

theorem sngCheckEnds_count : (s.sngCheckEnds die i x).count (Blk.sng.at die i 0x038) =
    min (s.count (Blk.sng.at die i 0x038) + 1) cntMax := by
  rw [State.sngCheckEnds, count_raise, count_cntAdd, if_pos rfl, sngChecked_frame.count]

/-- The end of a check changes the registers and the counters alone. -/
theorem sngCheckEnds_frame : { s.sngCheckEnds die i x with regs := s.regs, cnt := s.cnt } = s :=
  frame_raise_cntAdd sngChecked_frame ..

section
variable (hthere : sngThere die i = true)
include hthere

/-- A write of SNG_CHK_CTRL while a check runs is refused. -/
theorem execSngChkGo_busy (hw : s.writable who (Blk.sng.at die i 0x118) = true)
    (hbusy : s.rbit (Blk.sng.at die i 0x00C) 31 = true) :
    exec (.sngChkGo who die i v) s = .next (s.refuseWrite who .sng die i 0x118 v) :=
  congrArg Host.Outcome.next ((gate_writable s who _ _ hw).trans ((if_neg (by simp [hthere])).trans (if_pos hbusy)))

/-- A write with `go` while no check runs is stored and sets `busy`. -/
theorem execSngChkGo_starts (hw : s.writable who (Blk.sng.at die i 0x118) = true)
    (hidle : s.rbit (Blk.sng.at die i 0x00C) 31 = false) (hgo : v.getLsbD 0 = true) :
    exec (.sngChkGo who die i v) s =
      .next ((s.writeAt who .sng die i 0x118 v).setFld (Blk.sng.at die i 0x00C) 31 31 1) :=
  congrArg Host.Outcome.next ((gate_writable s who _ _ hw).trans ((if_neg (by simp [hthere])).trans
    ((if_neg (by simp [sngA, hidle])).trans (if_pos hgo))))

theorem execSngChkDone_ends (hbusy : s.rbit (Blk.sng.at die i 0x00C) 31 = true) :
    exec (.sngChkDone die i) s = .next (s.sngCheckEnds die i (s.sngState die i)) :=
  congrArg Host.Outcome.next (if_neg (by simp [hthere, sngA, hbusy]))

end

theorem execSngChkDone_idle (hidle : s.rbit (Blk.sng.at die i 0x00C) 31 = false) :
    exec (.sngChkDone die i) s = .next s := congrArg Host.Outcome.next (if_pos (.inr hidle))

/-! ### The known-answer test (R465) -/

section
variable (hthere : sngThere die i = true)
include hthere

/-- The outputs of the table set `kat_done` and clear `kat_fail`. -/
theorem execSngKat_passes (hgood : o1 = 0xA3BCA2D4 ∧ o2 = 0x68A6676C) : exec (.sngKat die i o1 o2) s =
    .next ((s.setFld (Blk.sng.at die i 0x00C) 0 0 1).setFld (Blk.sng.at die i 0x00C) 1 1 0) :=
  congrArg Host.Outcome.next ((if_neg (by simp [hthere])).trans (if_pos hgood))

section
variable (hbad : ¬(o1 = 0xA3BCA2D4 ∧ o2 = 0x68A6676C))
include hbad

/-- A consort's generator that fails its test is a fault of the consort. -/
theorem execSngKat_failsOnChanter (hd : die < 4) : exec (.sngKat die i o1 o2) s =
    .next (((s.setFld (Blk.sng.at die i 0x00C) 1 0 3).raise (Blk.sng.at die i 0) 0).consortFault
      { die := die, k := i, reed := none, kind := 0x0A }) :=
  congrArg Host.Outcome.next ((if_neg (by simp [hthere])).trans ((if_neg hbad).trans (if_pos hd)))

/-- A bellows's generator that fails its test is a fault record, and FATAL where the other bellows's has failed too. -/
theorem execSngKat_failsOnBellows (hd : 4 ≤ die) :
    let s1 := (s.setFld (Blk.sng.at die i 0x00C) 1 0 3).raise (Blk.sng.at die i 0) 0
    exec (.sngKat die i o1 o2) s = .next (if s1.rbit (Blk.sng.at (9 - die) (9 - die) 0x00C) 1 = true
      then s1.goFatal { breath := 0, die := die, kind := 0x0A } else s1.faultPost { breath := 0, die := die, kind := 0x0A }) :=
  congrArg Host.Outcome.next ((if_neg (by simp [hthere])).trans ((if_neg hbad).trans (if_neg (Nat.not_lt.mpr hd))))

end

end

end

/-- Settles O37: the check by whether one runs, and the known-answer test by its outputs and by the die of the instance. -/
theorem generatorChecks : Obligations.GeneratorChecks := by
  intro who die i v o1 o2 s hc
  have hthere : sngThere die i = true := sngThere_iff.mpr hc
  refine ⟨fun hw => ⟨execSngChkGo_busy hthere hw, fun hidle hgo => ?start⟩, fun hbusy => ?done, execSngChkDone_idle,
    fun hgood => ?pass, fun hbad => ⟨execSngKat_failsOnChanter hthere hbad, execSngKat_failsOnBellows hthere hbad⟩⟩
  case start =>
    exact ⟨_, execSngChkGo_starts hthere hw hidle hgo, rbit_setFld_same _ _ _ (by decide) 1,
      ((RegsOnly.refl s).writeAt ..).setFld ..⟩
  case done =>
    exact ⟨_, execSngChkDone_ends hthere hbusy,
      (sngCheckEnds_reg (by decide) (by decide)).trans sngChecked_out,
      (sngCheckEnds_reg (by decide) (by decide)).trans sngChecked_stateLo,
      (sngCheckEnds_reg (by decide) (by decide)).trans sngChecked_stateHi,
      sngCheckEnds_busy, sngCheckEnds_raised, sngCheckEnds_count, sngCheckEnds_frame⟩
  case pass =>
    have hmem : Blk.sng.at die i 0x00C ∈ [Blk.sng.at die i 0x00C] := List.mem_singleton.mpr rfl
    exact ⟨_, execSngKat_passes hthere hgood,
      (rbit_setFld_other _ _ _ _ _ (by decide)).trans (rbit_setFld_same _ _ _ (by decide) 1),
      rbit_setFld_same _ _ _ (by decide) 0, sameRegsBut_setReg (sameRegsBut_setReg (sameRegsBut_refl _ s) hmem _) hmem _, rfl⟩

end Sys2Proof.Machine

/-! PROOFS. The comparison of two runs of a request and the publish command of the host (R330, R336, R483 to R485, R669, R670). -/
namespace Sys2Proof.Machine
open Sys2Proof.Laws

/-! ### A host command that passes the common checks (R669, R670) -/

/-- The state in which a host command of `n` payload bytes runs its own part: the bytes are counted. -/
def State.paid (s : State) (c : HCmd) (n : Nat) : State := s.cntAdd .host (fnDie c.fn) (fnDie c.fn) 0x030 n

theorem hostRun_of_check {s : State} {c : HCmd} {n : Nat} {mgmt : Bool} (k : State → State) (h : s.hostCheck c n mgmt = none) :
    s.hostRun c n mgmt k = k (s.paid c n) := by
  rw [State.hostRun, h]
  rfl

/-! ### REPRO_CHECK (R483, R484) -/

/-- The answer of a run's submission stays with firmware. -/
theorem reproSubmit_reply (s : State) (p : Repro) : (s.reproSubmit p).2.reply = s.reply := by
  rw [State.reproSubmit]
  split <;> rfl

section
variable {c : HCmd} {wd : WorkInfo} {s : State} (hcheck : s.hostCheck c 32 true = none)
include hcheck

theorem execReproCheck_badPayload (hbad : reproOk c = false) (d : Option (List Byte)) :
    exec (.reproCheck c d wd) s = .next ((s.paid c 32).answer c 0xF1 0 0) :=
  congrArg Host.Outcome.next ((hostRun_of_check _ hcheck).trans (if_pos hbad))

variable (hok : reproOk c = true)
include hok

theorem execReproCheck_unreadable : exec (.reproCheck c none wd) s = .next ((s.paid c 32).answer c 0xF2 0 0) :=
  congrArg Host.Outcome.next ((hostRun_of_check _ hcheck).trans (if_neg (by simp [hok])))

variable {d : List Byte} (hread : ¬(wd.bytes = none ∨ d.length ≠ 64))
include hread

theorem execReproCheck_refuses (hrefuse : reproRefuses d = true) : exec (.reproCheck c (some d) wd) s =
    .next { s.paid c 32 with repros := s.repros ++ [{ cmd := c, desc := reproDesc c d, work := wd, refused := true }] } := by
  refine congrArg Host.Outcome.next ((hostRun_of_check _ hcheck).trans ((if_neg (by simp [hok])).trans
    ((if_neg hread).trans ((if_pos hrefuse).trans ?_))))
  rw [State.paid, cntAdd_repros]

theorem execReproCheck_submits (hrefuse : reproRefuses d = false) {id : Nat} {t : State}
    (hsub : (s.paid c 32).reproSubmit { cmd := c, desc := reproDesc c d, work := wd } = (some id, t)) :
    exec (.reproCheck c (some d) wd) s =
      .next { t with repros := t.repros ++ [{ cmd := c, desc := reproDesc c d, work := wd, run1 := id }] } := by
  refine congrArg Host.Outcome.next ((hostRun_of_check _ hcheck).trans ((if_neg (by simp [hok])).trans
    ((if_neg hread).trans ((if_neg (by simp [hrefuse])).trans ?_))))
  rw [hsub]

end

/-! ### Run 2 and the report's command (R484, R485) -/

section
variable {fn tag : Nat} {p : Repro} {s : State} (hp : s.reproOf fn tag = some p)
include hp

theorem execReproRun2Start_waits (hrun : s.runEnded p.run1 = false) : exec (.reproRun2Start fn tag) s = .next s := by
  change execReproRun2Start fn tag s = _
  rw [execReproRun2Start, hp]
  exact congrArg Host.Outcome.next (if_pos (.inr (.inr (.inr hrun))))

theorem execReproRun2Start_submits (hready : p.refused = false ∧ p.run2 = 0 ∧ p.failed = false ∧ s.runEnded p.run1 = true)
    {id i : Nat} {t : State} (hsub : s.reproSubmit p = (some id, t)) (hi : t.reqNamed id = some i) :
    let t1 := t.modReq i (fun r => { r with quiet := true, recDone := true })
    exec (.reproRun2Start fn tag) s =
      .next { t1 with repros := t1.repros.map (fun e => if e = p then { p with run2 := id } else e) } := by
  obtain ⟨hrefused, hrun2, hfailed, hended⟩ := hready
  change execReproRun2Start fn tag s = _
  rw [execReproRun2Start, hp]
  refine congrArg Host.Outcome.next ((if_neg (by simp [hrefused, hrun2, hfailed, hended])).trans ?_)
  rw [hsub]
  simp only [hi]

theorem execReproReport_answers (x : ReproInfo) (hend : p.refused = true ∨ p.failed = true ∨ (p.run2 ≠ 0 ∧ s.runEnded p.run2 = true)) :
    exec (.reproReport fn tag x) s =
      .next (({ s with repros := s.repros.erase p } : State).answerBlock p.cmd p.report (reproBytes p x) 0) := by
  have hdone : ¬(p.refused = false ∧ p.failed = false ∧ (p.run2 = 0 ∨ s.runEnded p.run2 = false)) := by
    rcases hend with h | h | ⟨hrun2, hended⟩
    · simp [h]
    · simp [h]
    · simp [hrun2, hended]
  change execReproReport fn tag x s = _
  rw [execReproReport, hp]
  exact congrArg Host.Outcome.next (if_neg hdone)

end

/-! ### The first difference of two lists -/

theorem firstDiff_eq_none_iff {α : Type} [DecidableEq α] (l m : List α) : firstDiff l m = none ↔ l = m := by
  fun_induction firstDiff l m with
  | case1 => simp
  | case2 x xs ys ih => simp [ih]
  | case3 x xs y ys hne => simp [hne]
  | case4 l m hnil hcons =>
    simp only [reduceCtorEq, false_iff]
    rintro rfl
    cases l with
    | nil => exact hnil rfl rfl
    | cons x xs => exact hcons x xs x xs rfl rfl

/-- Two lists that agree up to `k` and not at `k` differ first at `k`. -/
theorem firstDiff_eq_some {α : Type} [DecidableEq α] {l m : List α} {k : Nat} (htake : l.take k = m.take k) (hne : l[k]? ≠ m[k]?) :
    firstDiff l m = some k := by
  induction k generalizing l m with
  | zero =>
    match l, m with
    | [], [] => exact absurd rfl hne
    | [], _ :: _ | _ :: _, [] => rfl
    | x :: xs, y :: ys => exact if_neg fun h => hne (congrArg some h)
  | succ k ih =>
    match l, m with
    | [], [] => exact absurd rfl hne
    | [], _ :: _ | _ :: _, [] => cases htake
    | x :: xs, y :: ys =>
      obtain ⟨rfl, htail⟩ := List.cons.inj htake
      rw [firstDiff, if_pos rfl, ih htail hne, Option.map_some]

/-! ### The report (R485) -/

section
variable {p : Repro} {x : ReproInfo}

theorem reproStatus_refused (h : p.refused = true) : reproStatus p x = (3, 0) := if_pos h

section
variable (hrun : p.refused = false)
include hrun

theorem reproStatus_failed (h : p.failed = true) : reproStatus p x = (2, 8) :=
  (if_neg (by simp [hrun])).trans (if_pos h)

variable (hok : p.failed = false)
include hok

theorem reproStatus_differ
    (h : p.log1.upTo (reproLimit p.log1 p.log2) ≠ p.log2.upTo (reproLimit p.log1 p.log2)) : reproStatus p x = (1, 0) :=
  (if_neg (by simp [hrun])).trans ((if_neg (by simp [hok])).trans (if_pos (by
    simpa only [ne_eq, firstDiff_eq_none_iff, Prod.ext_iff, not_and_or] using h)))

theorem reproStatus_agree
    (h : p.log1.upTo (reproLimit p.log1 p.log2) = p.log2.upTo (reproLimit p.log1 p.log2)) :
    (reproStatus p x).1 = if reproLimit p.log1 p.log2 ≠ none then 2 else if x.outputs = true then 1 else 0 := by
  have hsame : ∀ {α : Type} [DecidableEq α] (l : List α), firstDiff l l = none := fun l => (firstDiff_eq_none_iff l l).mpr rfl
  simp only [reproStatus, hrun, hok, h, hsame, Bool.false_eq_true, if_false, ne_eq, not_true_eq_false, or_self]
  split_ifs <;> rfl

end

theorem reproStatus_lt (p : Repro) (x : ReproInfo) : (reproStatus p x).1 < 4 := by
  simp only [reproStatus, apply_ite Prod.fst]
  split_ifs <;> decide

/-- The status and the cause are the first two bytes of a report, and 62 bytes follow them. -/
theorem reproBytes_head (p : Repro) (x : ReproInfo) : ∃ rest : List Byte, rest.length = 62 ∧
    reproBytes p x = leBytes 1 (reproStatus p x).1 ++ (leBytes 1 (reproStatus p x).2 ++ rest) := by
  refine ⟨_, ?_, (List.append_assoc ..).trans (List.append_assoc ..)⟩
  rw [List.length_append, List.length_replicate]
  split <;> simp only [List.length_append, length_leBytes]

theorem length_reproBytes (p : Repro) (x : ReproInfo) : (reproBytes p x).length = 64 := by
  obtain ⟨rest, hlen, h⟩ := reproBytes_head p x
  rw [h, List.length_append, List.length_append, length_leBytes, length_leBytes, hlen]

theorem reproBytes_status (p : Repro) (x : ReproInfo) : leOf ((reproBytes p x).take 1) = (reproStatus p x).1 := by
  obtain ⟨rest, -, h⟩ := reproBytes_head p x
  rw [h, take_leBytes_append, leOf_leBytes_of_lt ((reproStatus_lt p x).trans (by decide))]

theorem reproBytes_cause (p : Repro) (x : ReproInfo) : leOf (((reproBytes p x).drop 1).take 1) = (reproStatus p x).2 % 256 := by
  obtain ⟨rest, -, h⟩ := reproBytes_head p x
  rw [h, drop_leBytes_append le_rfl, List.drop_zero, take_leBytes_append, leOf_leBytes, Nat.pow_one]

/-- The first differing token of two runs that were not refused. -/
theorem reproBytes_token (hrun : p.refused = false) : leOf (((reproBytes p x).drop 4).take 4) =
    (firstDiff (p.log1.upTo (reproLimit p.log1 p.log2)).1 (p.log2.upTo (reproLimit p.log1 p.log2)).1).getD 0xFFFFFFFF % 256 ^ 4 := by
  simp only [reproBytes, hrun, Bool.false_eq_true, if_false, List.append_assoc, drop_leBytes_append, take_leBytes_append,
    Nat.reduceLeDiff, Nat.reduceSub, List.drop_zero, le_refl, leOf_leBytes]

end

/-! ### VER_PUBLISH (R330, R336, R669) -/

/-- A bad kind, id or address, or a reserved byte: VER_PUBLISH answers 1 (R669). -/
def HCmd.publishBad (c : HCmd) : Prop :=
  4 ≤ c.fld 0 1 ∨ c.fld 1 1 ≠ 0 ∨ verIdTop (c.fld 0 1) < c.fld 2 2 ∨ c.fld 8 8 % 64 ≠ 0 ∨
    (if c.fld 0 1 < 2 then 2 ^ 48 else 2 ^ 27) ≤ c.fld 8 8

theorem verIdTop_eq {kind : Nat} (h : kind < 4) : verIdTop kind = [1023, 63, 15, 4095].getD kind 0 := by
  revert kind; decide

theorem not_publishBad_iff {c : HCmd} : ¬c.publishBad ↔ c.fld 0 1 < 4 ∧ c.fld 1 1 = 0 ∧
    c.fld 2 2 ≤ [1023, 63, 15, 4095].getD (c.fld 0 1) 0 ∧ c.fld 8 8 % 64 = 0 ∧
    c.fld 8 8 < (if c.fld 0 1 < 2 then 2 ^ 48 else 2 ^ 27) := by
  simp only [HCmd.publishBad, not_or, Nat.not_le, not_not, Nat.not_lt]
  exact and_congr_right fun hkind => by rw [verIdTop_eq hkind]

section
variable {c : HCmd} {s : State} (hcheck : s.hostCheck c 16 true = none)
include hcheck

theorem execVerPublish_bad (hbad : c.publishBad) : exec (.verPublish c) s = .next ((s.paid c 16).answer c 1 0 0) :=
  congrArg Host.Outcome.next ((hostRun_of_check _ hcheck).trans (if_pos hbad))

variable (hgood : ¬c.publishBad)
include hgood

theorem execVerPublish_tooSoon (h : c.fld 4 4 = 0) : exec (.verPublish c) s = .next ((s.paid c 16).answer c 2 0 0) :=
  congrArg Host.Outcome.next ((hostRun_of_check _ hcheck).trans ((if_neg hgood).trans (if_pos h)))

theorem execVerPublish_tooLate (h : 1024 < c.fld 4 4) : exec (.verPublish c) s = .next ((s.paid c 16).answer c 5 0 0) :=
  congrArg Host.Outcome.next ((hostRun_of_check _ hcheck).trans ((if_neg hgood).trans ((if_neg (by omega)).trans (if_pos h))))

section
variable (hmin : 0 < c.fld 4 4) (hmax : c.fld 4 4 ≤ 1024) {r v : Nat} {l : List Nat} {t : State}
  (hpub : (s.paid c 16).publishEach (c.fld 0 1) (c.fld 2 2) (c.fld 4 4) (c.fld 8 8) ((s.paid c 16).verDies (c.fld 0 1)) = (r, v, l, t))
include hmin hmax hpub

/-- A publish on every die: the first result other than 0 is the answer, and the target breath where there is none. -/
theorem execVerPublish_publishes : exec (.verPublish c) s = .next (if r ≠ 0 then t.answer c r 0 0
    else ({ t with pubs := t.pubs ++ [{ kind := c.fld 0 1, id := c.fld 2 2, version := v, fn := c.fn, left := l }] } : State).answer
      c 0 0 (s.breath.number + c.fld 4 4)) := by
  refine congrArg Host.Outcome.next ((hostRun_of_check _ hcheck).trans ((if_neg hgood).trans ((if_neg hmin.ne').trans
    ((if_neg hmax.not_gt).trans ?_))))
  rw [hpub, State.paid, cntAdd_breath]

end

end

/-- Settles O41: each outcome of a comparison's commands, the bytes of its report, and each outcome of a publish. -/
theorem reproAndVersionCommands : Obligations.ReproAndVersionCommands := by
  refine ⟨⟨fun c wd s hcheck => ?check, fun fn tag p s hp => ?runs, fun p x => ?report⟩, fun c s hcheck => ?publish⟩
  case check =>
    refine ⟨execReproCheck_badPayload hcheck, execReproCheck_unreadable hcheck, fun d w hok hlen hwork => ?_⟩
    have hread : ¬(wd.bytes = none ∨ d.length ≠ 64) := by simp [hlen, hwork]
    exact ⟨execReproCheck_refuses hcheck hok hread, fun hrefuse id t hsub =>
      ⟨execReproCheck_submits hcheck hok hread hrefuse hsub,
        calc t.reply = ((s.paid c 32).reproSubmit _).2.reply := congrArg (fun q => q.2.reply) hsub.symm
          _ = (s.paid c 32).reply := reproSubmit_reply ..
          _ = s.reply := cntAdd_reply ..⟩⟩
  case runs =>
    exact ⟨fun hrefused hrun2 hfailed hended id i t => execReproRun2Start_submits hp ⟨hrefused, hrun2, hfailed, hended⟩,
      execReproRun2Start_waits hp, execReproReport_answers hp⟩
  case report =>
    refine ⟨length_reproBytes p x, fun hrefused => ?_, fun hrun hfailed => ?_, fun hrun hok => ?_⟩
    · rw [reproBytes_status, reproStatus_refused hrefused]
    · rw [reproBytes_status, reproBytes_cause, reproStatus_failed hrun hfailed]
      exact ⟨rfl, rfl⟩
    · refine ⟨fun hne => ?_, fun hagree => ?_, fun k hk htake hne => ?_, fun hagree => ?_⟩
      · rw [reproBytes_status, reproStatus_differ hrun hok hne]
      · rw [reproBytes_status, reproStatus_agree hrun hok hagree]
      · rw [reproBytes_token hrun, firstDiff_eq_some htake hne, Option.getD_some]
        exact Nat.mod_eq_of_lt hk
      · rw [reproBytes_token hrun, (firstDiff_eq_none_iff _ _).mpr hagree]
        rfl
  case publish =>
    refine ⟨fun hbad => execVerPublish_bad hcheck (not_not.mp (hbad ∘ not_publishBad_iff.mp)),
      fun hgood => execVerPublish_tooSoon hcheck (not_publishBad_iff.mpr hgood),
      fun hgood => execVerPublish_tooLate hcheck (not_publishBad_iff.mpr hgood), fun hgood hmin hmax r v l t hpub => ?_⟩
    have hgood := not_publishBad_iff.mpr hgood
    rw [execVerPublish_publishes hcheck hgood hmin hmax hpub]
    exact ⟨fun hr => congrArg _ (if_pos hr), fun hr => congrArg _ (if_neg (not_not.mpr hr))⟩

end Sys2Proof.Machine

/-! PROOFS. The submission of a request by the host (R487 to R490, R544). -/
namespace Sys2Proof.Machine
open Sys2Proof.Laws

/-! ### The lowest FREE entry (R488) -/

/-- Where an entry from `i` on is `FREE`, the search finds one that is `FREE` too and lies no higher. -/
theorem freeEntry_lowest {s : State} {n i j : Nat} (hij : i ≤ j) (hjn : j < i + n) (hfree : (s.req j).state = 0) :
    (s.req (s.freeEntry n i)).state = 0 ∧ i ≤ s.freeEntry n i ∧ s.freeEntry n i ≤ j := by
  induction n generalizing i with
  | zero => omega
  | succ n ih =>
    rw [State.freeEntry]
    split
    case isTrue hi => exact ⟨hi, le_rfl, hij⟩
    case isFalse hi =>
      have hne : i ≠ j := fun h => hi (h ▸ hfree)
      obtain ⟨hstate, hlow, hhigh⟩ := ih (by omega : i + 1 ≤ j) (by omega)
      exact ⟨hstate, by omega, hhigh⟩

/-! ### The outcomes of a submission, in the order of its checks (R490, R544) -/

/-- The submitted descriptor and its work description keep R489, R620 and R621. -/
def HCmd.submitOk (c : HCmd) (wd : WorkInfo) (w : List Byte) : Prop :=
  reqDescOk c.payload = true ∧ c.fld 40 8 % 64 = 0 ∧ workOk w (c.fld 16 4) = true ∧ wd.known = true

theorem not_submitOk_iff {c : HCmd} {wd : WorkInfo} {w : List Byte} : ¬c.submitOk wd w ↔
    reqDescOk c.payload = false ∨ c.fld 40 8 % 64 ≠ 0 ∨ workOk w (c.fld 16 4) = false ∨ wd.known = false := by
  simp only [HCmd.submitOk, not_and_or, Bool.not_eq_true, ne_eq]

section
variable {c : HCmd} {wd : WorkInfo} {p : State}

theorem submit_unreadable (hwork : wd.bytes = none) : p.submit c wd c.payload = p.answer c 0xF2 0 0 := by
  rw [State.submit, hwork]

section
variable {w : List Byte} (hwork : wd.bytes = some w)
include hwork

theorem submit_invalid (hbad : ¬c.submitOk wd w) : p.submit c wd c.payload = p.refuseReq c 1 0 := by
  rw [State.submit, hwork]
  exact if_pos (not_submitOk_iff.mp hbad)

variable (hok : c.submitOk wd w)
include hok

theorem submit_tableFull (hfull : p.admits (fnDie c.fn) (p.fnPart c.fn) = false) :
    p.submit c wd c.payload = p.refuseReq c 2 0 := by
  rw [State.submit, hwork]
  exact (if_neg (not_submitOk_iff.not_right.mp hok)).trans (if_pos hfull)

variable (hroom : p.admits (fnDie c.fn) (p.fnPart c.fn) = true)
include hroom

theorem submit_modelUnavailable (hmodel : p.modelBad (c.fld 0 2) (c.fld 2 2) = true) :
    p.submit c wd c.payload = p.refuseReq c 3 0 := by
  rw [State.submit, hwork]
  exact (if_neg (not_submitOk_iff.not_right.mp hok)).trans ((if_neg (by simp [hroom])).trans (if_pos hmodel))

variable (hmodel : p.modelBad (c.fld 0 2) (c.fld 2 2) = false)
include hmodel

/-- A turn that its session refuses, where the port's bellows holds the session. -/
theorem submit_badState (hturn : c.fld 5 1 = 1) (hhome : sesDie (c.fld 32 8 % 2 ^ 24) = fnDie c.fn) {st : Nat}
    (hrefused : p.turnRefused (c.fld 32 8) (p.fnPart c.fn) = some st) :
    p.submit c wd c.payload = (p.cntAdd .sess (fnDie c.fn) (fnDie c.fn) 0x068 1).refuseReq c 7 st := by
  rw [State.submit, hwork]
  refine (if_neg (not_submitOk_iff.not_right.mp hok)).trans ((if_neg (by simp [hroom])).trans
    ((if_neg (Bool.eq_false_iff.mp hmodel)).trans ?_))
  unfold HCmd.fld at hturn hhome hrefused
  simp only [hturn, hhome, hrefused, decide_true, and_self, if_true]

/-- A request that is no turn takes the lowest `FREE` entry. -/
theorem submit_takesEntry (hturn : c.fld 5 1 ≠ 1) :
    let i := p.freeEntry 32768 (32768 * (fnDie c.fn - 4))
    let s1 := (p.setReq i (Req.fresh (p.req i) c.payload (p.fnPart c.fn) c.fn p.breath.number c.tag)).bellCopy (fnDie c.fn) wd
    p.submit c wd c.payload = (s1.cntAdd .reqt (fnDie c.fn) (fnDie c.fn) 0x030 1).answer c 0 0 (reqId i (s1.req i)) := by
  rw [State.submit, hwork]
  refine (if_neg (not_submitOk_iff.not_right.mp hok)).trans ((if_neg (by simp [hroom])).trans
    ((if_neg (Bool.eq_false_iff.mp hmodel)).trans ?_))
  unfold HCmd.fld at hturn
  simp only [hturn, decide_false, Bool.false_eq_true, false_and, if_false, if_true]

end

end

/-- REQ_SUBMIT past the common checks is the submission of its payload. -/
theorem execReqSubmit_submits {c : HCmd} (wd : WorkInfo) {s : State} (hcheck : s.hostCheck c 64 false = none) :
    exec (.reqSubmit c wd) s = .next ((s.paid c 64).submit c wd c.payload) :=
  congrArg Host.Outcome.next (hostRun_of_check _ hcheck)

/-- Settles O38: each check of a submission in its order, then the entry it takes and what the entry holds. -/
theorem requestSubmission : Obligations.RequestSubmission := by
  intro c wd s hcheck
  have hexec {t : State} (h : (s.paid c 64).submit c wd c.payload = t) : exec (.reqSubmit c wd) s = .next t :=
    (execReqSubmit_submits wd hcheck).trans (congrArg Host.Outcome.next h)
  refine ⟨fun hwork => hexec (submit_unreadable hwork), fun w hwork => ?outcomes, fun j => freeEntry_lowest,
    fun r part fn arrival tag => ⟨rfl, rfl, rfl, rfl, rfl, rfl, rfl⟩⟩
  case outcomes =>
    refine ⟨fun hbad => hexec (submit_invalid hwork hbad), fun hok hfull => hexec (submit_tableFull hwork hok hfull),
      fun hok hroom hmodel => hexec (submit_modelUnavailable hwork hok hroom hmodel), fun hok hroom hmodel => ⟨?entry, ?turn⟩⟩
    case entry =>
      intro hturn
      have hnumber : s.breath.number = (s.paid c 64).breath.number := congrArg (·.number) (cntAdd_breath ..).symm
      rw [hnumber]
      exact hexec (submit_takesEntry hwork hok hroom hmodel hturn)
    case turn =>
      intro hturn hhome st hrefused
      rw [hhome]
      exact hexec (submit_badState hwork hok hroom hmodel hturn hhome hrefused)

end Sys2Proof.Machine

/-! PROOFS. The front of the queue (log entry 1), and what every register write and every host command passes first (R650, R669,
R670, R746, R778, R866, R877). -/
namespace Sys2Proof.Machine
open Sys2Proof.Laws

/-! ### The front of the queue -/

/-- Each arm of `exec` answers a next state. -/
theorem exec_completes (c : Instr) (s : State) : ∃ t : State, exec c s = .next t := by
  cases c with
  | _ => exact ⟨_, rfl⟩

/-- Settles O1: a step by whether the queue is empty, and every command by `exec_completes`. -/
theorem stepRunsFront : Obligations.StepRunsFront := by
  refine ⟨fun c q s => ⟨fun h => ?front, fun h => ?empty⟩, exec_completes⟩
  case front => rw [step, h]
  case empty => rw [step, h]

/-! ### Registers and counters (R746, R877) -/

/-- The largest value of a counter, as the statements write it. -/
theorem count_cntAdd_same (s : State) (b : Blk) (die i off n : Nat) :
    (s.cntAdd b die i off n).count (b.at die i off) = min (s.count (b.at die i off) + n) (2 ^ 48 - 1) :=
  (count_cntAdd s b die i off n _).trans (if_pos rfl)

/-- Settles O5: the laws of a field and of a count. -/
theorem registerAndCounterLaws : Obligations.RegisterAndCounterLaws := by
  refine ⟨fun s a hi lo v hlo hhi => ⟨fld_setFld_same s a hi lo v hhi, fun n hn => ?bits, fun b hb => ?registers, rfl⟩,
    fun s b die i off n => ⟨count_cntAdd_same s b die i off n, rbit_cntAdd s b die i off n, cntAdd_regs s b die i off n,
      fun a ha => ?counters, cntAdd_frame s b die i off n⟩⟩
  case bits => rw [reg_setFld, if_pos rfl, getLsbD_putW, if_neg (by omega)]
  case registers => rw [reg_setFld, if_neg (fun e => hb (List.mem_singleton.mpr e.symm))]
  case counters => rw [count_cntAdd, if_neg (fun e => ha (List.mem_singleton.mpr e.symm))]

/-! ### Register writes that are turned away (R650, R778, R866) -/

theorem next_gate_turnedAway {s : State} {who w : Requester} {a b : Nat} (ht : some (w, b) = some (who, a))
    (h : s.writable who a = false) (k : State → State) : (.next (s.gate w b k) : Res) = .next (s.turnedAway who a) := by
  obtain ⟨rfl, rfl⟩ := Prod.mk.inj (Option.some.inj ht)
  exact congrArg _ (gate_turnedAway s w b k h)

/-- Settles O6: the meaning of each command with a register of its own is a write behind the gate. -/
theorem writeTurnedAway : Obligations.WriteTurnedAway := by
  intro c s who a ht h
  cases c with
  | brthPeriodNext | brthGuard | runSet | runClear | planCommit | tongueFlush | excValidClear | eccAddrClear | bankHandoverGo
  | sbankMaskWrite | hornRingReset | serpVerPublish | serpCreg | panpVerPublish | mouthVerPublish | keywVerPublish | sngChkGo
  | reqtEntryWrite | sessRebuild | partPreempt | mbxSendNotice | mbxSendReply | mbxReady | ckptNow | droneFormat | consFence
  | measureNow | secBootDone | secLcReq | secSvnRaise | secRevoke | secDbgResp63 | secKeyLoad | pwrStateReq | pwrResetWarm
  | pwrResetDevice | bistGo | topRegErrClear => exact next_gate_turnedAway ht h _
  | _ => exact absurd ht nofun

/-! ### The checks of every host command (R669, R670) -/

section
variable {s : State} {h : HCmd} {n : Nat} {m : Bool}

theorem hostCheck_dupTag (hd : s.dupTag h = true) : s.hostCheck h n m = some (0xF1, 0xD0) := if_pos hd

/-- A host command whose row is `h`, `n`, `m` runs its own part behind the common checks. -/
theorem exec_hostRun {c : Instr} (hc : c.hostCmd = some (h, n, m)) : ∃ k : State → State, exec c s = .next (s.hostRun h n m k) := by
  cases c with
  | objAlloc | objFree | objQuery | modelSwap | modelUnload | reproCheck | verPublish | reqSubmit | reqCancel | reqPause | reqResume
  | reqUpdate | reqQuery | sessCreate | sessSet | sessDelete | sessQuery | sessMove | sessExport | sessImport | sessPrefix
  | sessPrefixDelete =>
    simp only [Instr.hostCmd, Option.some.injEq, Prod.mk.injEq] at hc
    obtain ⟨rfl, rfl, rfl⟩ := hc
    exact ⟨_, rfl⟩
  | _ => exact absurd hc nofun

/-- A check that fails answers, and nothing else. -/
theorem exec_of_hostCheck {c : Instr} (hc : c.hostCmd = some (h, n, m)) {st d : Nat} (hs : s.hostCheck h n m = some (st, d)) :
    exec c s = .next { s with reply := { fn := h.fn, status := st, detail := d, addr := 0 } } := by
  obtain ⟨k, hk⟩ := exec_hostRun (s := s) hc
  rw [hk, State.hostRun, hs]
  rfl

section
variable (hd : s.dupTag h = false)
include hd

theorem hostCheck_malformed (hb : h.tag = 0 ∨ h.flagsHi ≠ 0 ∨ h.len ≠ n ∨ h.addr % 8 ≠ 0) : s.hostCheck h n m = some (0xF1, 0) :=
  (if_neg (by simp [hd])).trans (if_pos hb)

variable (hb : ¬(h.tag = 0 ∨ h.flagsHi ≠ 0 ∨ h.len ≠ n ∨ h.addr % 8 ≠ 0))
include hb

theorem hostCheck_unreadable (hu : h.fault = true ∨ (s.fn h.fn).busMaster = false ∨ h.payload.length ≠ n) :
    s.hostCheck h n m = some (0xF2, 0) :=
  (if_neg (by simp [hd])).trans ((if_neg hb).trans (if_pos hu))

theorem hostCheck_unmanaged (hu : ¬(h.fault = true ∨ (s.fn h.fn).busMaster = false ∨ h.payload.length ≠ n)) (hm : m = true)
    (hf : s.manage h.fn = false) : s.hostCheck h n m = some (0xF3, 0) :=
  (if_neg (by simp [hd])).trans ((if_neg hb).trans ((if_neg hu).trans (if_pos (by simp [hm, hf]))))

end

end

/-- Settles O29: the first check that fails, by the order of the checks. -/
theorem hostCommandChecks : Obligations.HostCommandChecks := by
  intro c h n m s hc
  exact ⟨fun hd => exec_of_hostCheck hc (hostCheck_dupTag hd), fun hd hb => exec_of_hostCheck hc (hostCheck_malformed hd hb),
    fun hd hb hu => exec_of_hostCheck hc (hostCheck_unreadable hd hb hu),
    fun hd hb hu hm hf => exec_of_hostCheck hc (hostCheck_unmanaged hd hb hu hm hf)⟩

end Sys2Proof.Machine

/-! PROOFS. How the reed's exceptions and its END come about (R114, R115, R122, R147 to R149, R607). -/
namespace Sys2Proof.Machine
open Sys2Proof.Laws

/-- A fetch past the last instruction takes the instruction-fetch exception, or the one that a restored image recorded. -/
theorem fetchExc_eq (s : State) (x : ReedRef) :
    s.fetchExc x = s.reedExc x ((s.reed x).redo.getD (0x05, 0)).1 ((s.reed x).redo.getD (0x05, 0)).2 0 := by
  unfold State.fetchExc
  cases (s.reed x).redo with
  | none => rfl
  | some f => rfl

section
variable {x : RI} {s : State} {u : Uses} {body : State → Reed → RRes} (hrun : (s.reed x.reed).run = .running)
include hrun

theorem runReed_pastEnd (hpc : 8 * (s.reed x.reed).ibuf.length ≤ (s.reed x.reed).pc) :
    runReed x u s body = s.fetchExc x.reed :=
  (if_neg (not_not_intro hrun)).trans (if_pos hpc)

theorem runReed_unused (hpc : (s.reed x.reed).pc < 8 * (s.reed x.reed).ibuf.length) (hu : u.ok x = false) :
    runReed x u s body = s.reedExc x.reed 0x01 0 0 :=
  (if_neg (not_not_intro hrun)).trans ((if_neg (Nat.not_le.mpr hpc)).trans (if_pos hu))

theorem execEndProg_pastEnd (hpc : 8 * (s.reed x.reed).ibuf.length ≤ (s.reed x.reed).pc) :
    exec (.endProg x) s = .next (s.fetchExc x.reed) :=
  congrArg Host.Outcome.next ((if_neg (not_not_intro hrun)).trans (if_pos hpc))

theorem execEndProg_unused (hpc : (s.reed x.reed).pc < 8 * (s.reed x.reed).ibuf.length) (hd : x.d ≠ 0) :
    exec (.endProg x) s = .next (s.reedExc x.reed 0x01 0 0) :=
  congrArg Host.Outcome.next ((if_neg (not_not_intro hrun)).trans ((if_neg (Nat.not_le.mpr hpc)).trans
    (if_pos (by simp [Uses.ok, hd]))))

end

theorem execEndProg_ready {x : RI} {s : State} (h : ready {} x s = true) : exec (.endProg x) s = .next (s.endReed x.reed) := by
  simp only [ready, Bool.and_eq_true, decide_eq_true_eq] at h
  obtain ⟨⟨hrun, hpc⟩, hok⟩ := h
  exact congrArg Host.Outcome.next ((if_neg (not_not_intro hrun)).trans ((if_neg (Nat.not_le.mpr hpc)).trans
    (if_neg (by simp [hok]))))

/-- END where no reed waits at a barrier ends its reed alone (R115, R144). -/
theorem endReed_of_noBarWait {s : State} (h : s.noBarWait = true) (x : ReedRef) :
    s.endReed x = s.setReed x { s.reed x with run := .ended, wait := .none } :=
  breakBars_of_noBarWait (noBarWait_of_set h (setReed_reeds ..) (Reed.offBar_noWait ..)) 8

/-- The exception that TRAP and BRK name. -/
theorem execTrap_ready {x : RI} {s : State} (h : ready { imm := true } x s = true) :
    exec (.trap x) s = .next (s.reedExc x.reed 0x09 (x.imm.toNat % 256) 0) := next_runReed_exc h rfl

theorem execBrk_ready {x : RI} {s : State} (h : ready {} x s = true) : exec (.brk x) s = .next (s.reedExc x.reed 0x0A 0 0) :=
  next_runReed_exc h rfl

section
variable {x : ReedRef} {s : State} (hrun : (s.reed x).run = .running)
include hrun

theorem execFetchPastEnd_pastEnd (hpc : 8 * (s.reed x).ibuf.length ≤ (s.reed x).pc) :
    exec (.fetchPastEnd x) s = .next (s.fetchExc x) := congrArg Host.Outcome.next (if_pos ⟨hrun, hpc⟩)

theorem execIllegalInstruction_pastEnd (hpc : 8 * (s.reed x).ibuf.length ≤ (s.reed x).pc) :
    exec (.illegalInstruction x) s = .next (s.fetchExc x) :=
  congrArg Host.Outcome.next ((if_neg (not_not_intro hrun)).trans (if_pos hpc))

theorem execIllegalInstruction_inProgram (hpc : (s.reed x).pc < 8 * (s.reed x).ibuf.length) :
    exec (.illegalInstruction x) s = .next (s.reedExc x 0x01 0 0) :=
  congrArg Host.Outcome.next ((if_neg (not_not_intro hrun)).trans (if_neg (Nat.not_le.mpr hpc)))

end

theorem execFetchPastEnd_inProgram {x : ReedRef} {s : State} (hpc : (s.reed x).pc < 8 * (s.reed x).ibuf.length) :
    exec (.fetchPastEnd x) s = .next s := congrArg Host.Outcome.next (if_neg fun h => Nat.not_le.mpr hpc h.2)

/-- Settles O10: each exception from the lemma about how an instruction ends; what the stop leaves by `stoppedOn_reedExc`. -/
theorem reedExceptions : Obligations.ReedExceptions := by
  intro x s r exc
  refine ⟨fun h => execTrap_ready h, fun h => ⟨execBrk_ready h, execEndProg_ready h⟩,
    fun hrun => ⟨fun hpc => ?pastEnd, fun hpc => ?inProgram⟩, fun hidle => ?idle,
    fun hbar => ⟨fun c d a hc => stoppedOn_reedExc s x.reed c d a hbar hc, endReed_of_noBarWait hbar x.reed⟩⟩
  case pastEnd =>
    have hfetch {i : Instr} (h : Machine.exec i s = .next (s.fetchExc x.reed)) :
        Machine.exec i s = exc (r.redo.getD (0x05, 0)).1 (r.redo.getD (0x05, 0)).2 :=
      h.trans (congrArg Host.Outcome.next (fetchExc_eq s x.reed))
    exact ⟨hfetch (execFetchPastEnd_pastEnd hrun hpc), hfetch (execIllegalInstruction_pastEnd hrun hpc),
      hfetch (congrArg Host.Outcome.next (runReed_pastEnd hrun hpc)), hfetch (execEndProg_pastEnd hrun hpc)⟩
  case inProgram =>
    exact ⟨execIllegalInstruction_inProgram hrun hpc, execFetchPastEnd_inProgram hpc, execEndProg_unused hrun hpc,
      fun hc => congrArg Host.Outcome.next (runReed_unused hrun hpc (by simp [Uses.ok, hc]))⟩
  case idle =>
    exact ⟨congrArg Host.Outcome.next (if_pos hidle), congrArg Host.Outcome.next (runReed_idle s x _ _ hidle),
      congrArg Host.Outcome.next (runReed_idle s x _ _ hidle), congrArg Host.Outcome.next (runReed_idle s x _ _ hidle)⟩

end Sys2Proof.Machine

/-! PROOFS. The session directory, and the commands of the host that name or create a session (R527, R528, R535, R549, R558 to R561). -/
namespace Sys2Proof.Machine
open Sys2Proof.Laws

/-! ### The directory -/

section
variable {s t : State}

@[simp] theorem cntAdd_ses (b : Blk) (die i off n k : Nat) : (s.cntAdd b die i off n).ses k = s.ses k :=
  congrArg (SMap.get Sess.blank · k) (cntAdd_sess s b die i off n)

theorem sesNamed_of_sess (h : t.sess = s.sess) (id : Nat) : t.sesNamed id = s.sesNamed id := by
  unfold State.sesNamed State.ses
  rw [h]

theorem ses_setSes (k j : Nat) (x : Sess) : (s.setSes k x).ses j = if k = j then x else s.ses j := get_set _ _ _ _ _

end

/-! ### A free slot -/

theorem find_none_of_not_mem {α : Type} {m : SMap α} {k : Nat} (h : k ∉ m.map Prod.fst) : SMap.find? m k = none := by
  induction m with
  | nil => rfl
  | cons e m ih =>
    simp only [List.map_cons, List.mem_cons, not_or] at h
    exact (if_neg (Ne.symm h.1)).trans (ih h.2)

/-- Among more keys than a map lists, one is unlisted. -/
theorem exists_unlisted {α : Type} (m : SMap α) {n : Nat} (h : m.length < n) (k : Nat) :
    ∃ j : Nat, k ≤ j ∧ j < k + n ∧ SMap.find? m j = none := by
  have hcard : (m.map Prod.fst).toFinset.card < (Finset.Ico k (k + n)).card := by
    have := (m.map Prod.fst).toFinset_card_le
    rw [Nat.card_Ico]
    simp only [List.length_map] at this
    omega
  obtain ⟨j, hj, hn⟩ := Finset.exists_mem_notMem_of_card_lt_card hcard
  rw [Finset.mem_Ico] at hj
  exact ⟨j, hj.1, hj.2, find_none_of_not_mem fun hm => hn (List.mem_toFinset.mpr hm)⟩

/-- Where a slot from `k` on is `FREE`, the search ends at one that is. -/
theorem freeSes_free {s : State} {n k j : Nat} (hkj : k ≤ j) (hj : j < k + n) (hfree : (s.ses j).state = 0) :
    (s.ses (s.freeSes n k)).state = 0 := by
  induction n generalizing k with
  | zero => omega
  | succ n ih =>
    rw [State.freeSes]
    split
    case isTrue hk => exact hk
    case isFalse hk =>
      have hne : k ≠ j := fun h => hk (h ▸ hfree)
      exact ih (by omega) (by omega)

/-- The slot that a new session takes is `FREE`. -/
theorem takeSes_free (s : State) (die : Nat) (f : Sess → Sess) : (s.ses (s.takeSes die f).1).state = 0 := by
  obtain ⟨j, hkj, hj, hnone⟩ := exists_unlisted s.sess (Nat.lt_succ_self _) (2 ^ 23 * (die - 4))
  have hfree : (s.ses j).state = 0 := by
    unfold State.ses SMap.get
    rw [hnone]
    rfl
  exact freeSes_free hkj hj hfree

/-- The generation that a slot takes next (R528). -/
def Sess.nextGen (x : Sess) : Nat := if x.gen = 2 ^ 40 - 1 then 1 else x.gen + 1

theorem takeSes_ses (s : State) (die : Nat) (f : Sess → Sess) (j : Nat) : (s.takeSes die f).2.ses j =
    if (s.takeSes die f).1 = j then f { gen := (s.ses j).nextGen } else s.ses j := by
  refine (cntAdd_ses ..).trans ((ses_setSes ..).trans ?_)
  split
  case isTrue h =>
    rw [← h]
    exact (if_pos rfl).symm
  case isFalse h => exact (if_neg h).symm

/-! ### A command at its session's home (R528, R535, R549, R558, R559, R561) -/

section
variable {c : HCmd} {op : FwdOp} {p : State} {k : Nat}

theorem sesCheck_stale (h : p.sesNamed (c.fld 0 8) = none) : p.sesCheck c = .error 3 := by rw [State.sesCheck, h]

theorem sesCheck_otherPart (h : p.sesNamed (c.fld 0 8) = some k) (hpart : (p.ses k).part ≠ p.fnPart c.fn) :
    p.sesCheck c = .error 5 := by
  rw [State.sesCheck, h]
  exact if_pos hpart

theorem sesCheck_ok (h : p.sesNamed (c.fld 0 8) = some k) (hpart : (p.ses k).part = p.fnPart c.fn) : p.sesCheck c = .ok k := by
  rw [State.sesCheck, h]
  exact if_neg (not_not_intro hpart)

theorem sesRun_error {st : Nat} (h : p.sesCheck c = .error st) : p.sesRun c op = p.answer c st 0 0 := by rw [State.sesRun, h]

section
variable (h : p.sesCheck c = .ok k)
include h

theorem sesRun_busy (hop : op = .delete ∨ op = .move ∨ op = .exportTo) (hbusy : (p.ses k).busy = true) :
    p.sesRun c op = p.answer c 4 0 0 := by
  unfold State.sesRun
  rw [h]
  rcases hop with rfl | rfl | rfl <;> exact if_pos hbusy

theorem sesRun_set : p.sesRun c .set =
    (p.modSes k (fun y => { y with nextMode := c.fld 8 1 % 4, nextDest := c.fld 8 1 / 4 % 4 })).answer c 0 0 0 := by
  rw [State.sesRun, h]

theorem sesRun_query : p.sesRun c .query = p.answerBlock c (c.fld 8 8) ((p.ses k).bytes (p.queueRec k)) 0 := by
  rw [State.sesRun, h]

variable (hbusy : (p.ses k).busy = false)
include hbusy

theorem sesRun_delete : p.sesRun c .delete = (p.sesFree k).answer c 0 0 0 := by
  unfold State.sesRun
  rw [h]
  exact if_neg (Bool.eq_false_iff.mp hbusy)

variable (hparked : (p.ses k).state = 3) (himage : (p.ses k).warm ≠ 0 ∨ (p.ses k).cold ≠ 0)
include hparked himage

theorem sesRun_move : p.sesRun c .move = ((p.modSes k (fun y => { y with state := 4 })).setOps
    (p.sessOps ++ [{ slot := k, kind := .move (c.fld 8 1) (c.fld 9 1), cmd := some c }])).answer c 0 0 0 := by
  unfold State.sesRun
  rw [h]
  exact (if_neg (Bool.eq_false_iff.mp hbusy)).trans (if_neg (by omega))

theorem sesRun_export_noKey (hkey : p.canWrap (p.partKey (p.ses k).part) = false) : p.sesRun c .exportTo = p.answer c 7 0 0 := by
  unfold State.sesRun
  rw [h]
  exact (if_neg (Bool.eq_false_iff.mp hbusy)).trans ((if_neg (by omega)).trans (if_pos hkey))

theorem sesRun_export (hkey : p.canWrap (p.partKey (p.ses k).part) = true) {img : List Byte} (himg : p.fullImage (p.ses k) = some img) :
    p.sesRun c .exportTo = ((p.modSes k (fun y => { y with state := 4 })).setOps (p.sessOps ++
      [{ slot := k, kind := .exportTo (c.fld 8 8) (bit (c.fld 16 1) 0) (bit (c.fld 16 1) 1), cmd := some c }])).answer c 0 0
        (img.length + 16 * ceilDiv (img.length - 4096) (1024 * 1024)) := by
  unfold State.sesRun
  rw [h]
  refine (if_neg (Bool.eq_false_iff.mp hbusy)).trans ((if_neg (by omega)).trans ((if_neg (by simp [hkey])).trans ?_))
  simp only [himg]

end

theorem sesCmd_bad : p.sesCmd c op true = p.answer c 1 0 0 := by
  unfold State.sesCmd
  exact if_pos rfl

theorem sesCmd_forward (h : sesDie (c.fld 0 8 % 2 ^ 24) ≠ fnDie c.fn) : p.sesCmd c op false =
    { p with fwds := p.fwds ++ [{ home := sesDie (c.fld 0 8 % 2 ^ 24), cmd := c, op := op }] } := by
  unfold State.sesCmd
  exact (if_neg Bool.false_ne_true).trans (if_neg h)

theorem sesCmd_home (h : sesDie (c.fld 0 8 % 2 ^ 24) = fnDie c.fn) : p.sesCmd c op false = p.sesRun c op := by
  unfold State.sesCmd
  exact (if_neg Bool.false_ne_true).trans (if_pos h)

end

/-! ### The five commands that name a session -/

/-- The payload of a session command keeps the values and the reserved fields of its row. -/
def HCmd.sesPlain (c : HCmd) (op : FwdOp) : Prop :=
  (op = .set → modeOk (c.fld 8 1) = true ∧ c.fld 9 7 = 0) ∧
  (op = .move → c.fld 8 1 < 3 ∧ (c.fld 9 1 < 4 ∨ c.fld 9 1 = 0xFF) ∧ c.fld 10 6 = 0) ∧
  (op = .exportTo → c.fld 16 1 < 4 ∧ c.fld 17 7 = 0)

/-- The commands, with the size of their payload and what the home does. -/
def HCmd.sesRows (c : HCmd) : List (Nat × Instr × FwdOp) := [(16, .sessSet c, .set), (8, .sessDelete c, .delete),
  (16, .sessQuery c, .query), (16, .sessMove c, .move), (24, .sessExport c, .exportTo)]

theorem sesRows_op {c : HCmd} {row : Nat × Instr × FwdOp} (h : row ∈ c.sesRows) :
    row.2.2 ∈ [FwdOp.set, .delete, .query, .move, .exportTo] := by
  simp only [HCmd.sesRows, List.mem_cons, List.not_mem_nil, or_false] at h
  rcases h with rfl | rfl | rfl | rfl | rfl <;> simp

/-- Each of the five runs at the session's home, past the common checks. -/
theorem exec_sesRow {c : HCmd} {s : State} {row : Nat × Instr × FwdOp} (hrow : row ∈ c.sesRows)
    (hcheck : s.hostCheck c row.1 false = none) : ∃ bad : Bool, (bad = false ↔ c.sesPlain row.2.2) ∧
      exec row.2.1 s = .next ((s.paid c row.1).sesCmd c row.2.2 bad) := by
  simp only [HCmd.sesRows, List.mem_cons, List.not_mem_nil, or_false] at hrow
  rcases hrow with rfl | rfl | rfl | rfl | rfl <;>
    refine ⟨_, ?_, congrArg Host.Outcome.next (hostRun_of_check _ hcheck)⟩
  · simp [HCmd.sesPlain]
  · simp [HCmd.sesPlain]
  · simp [HCmd.sesPlain]
  · simp [HCmd.sesPlain]
    omega
  · simp [HCmd.sesPlain]

/-! ### A new session -/

/-- The entry that SESS_CREATE gives a session (R535). -/
def HCmd.newSess (c : HCmd) (part : Nat) (x : Sess) : Sess :=
  { x with
    state := 1, mode := c.fld 0 1 % 4, dest := c.fld 0 1 / 4, nextMode := c.fld 0 1 % 4, nextDest := c.fld 0 1 / 4
    part := part, fn := c.fn }

/-- A session command that answers the id of the session it has made. -/
def State.answerSes (q : Nat × State) (c : HCmd) : State := q.2.answer c 0 0 (sesId q.1 (q.2.ses q.1))

theorem execSessCreate_past {c : HCmd} {s : State} (hcheck : s.hostCheck c 8 false = none) :
    exec (.sessCreate c) s = .next (
      if modeOk (c.fld 0 1) = false ∨ c.fld 1 7 ≠ 0 then (s.paid c 8).answer c 1 0 0
      else if (s.paid c 8).dirFull (fnDie c.fn) then (s.paid c 8).answer c 2 0 0
      else State.answerSes ((s.paid c 8).takeSes (fnDie c.fn) (c.newSess ((s.paid c 8).fnPart c.fn))) c) :=
  congrArg Host.Outcome.next (hostRun_of_check _ hcheck)

/-- What a command leaves that has made a session: the slot was `FREE`, and the others stand. -/
theorem answerSes_takes (s : State) (c : HCmd) (die : Nat) (f : Sess → Sess) {p v : State} (hp : ∀ k : Nat, p.ses k = s.ses k)
    (hv : ∀ k : Nat, v.ses k = (p.takeSes die f).2.ses k) :
    let k := (p.takeSes die f).1
    let t := State.answerSes (k, v) c
    (s.ses k).state = 0 ∧ t.ses k = f { gen := (s.ses k).nextGen } ∧
      t.reply = { fn := c.fn, status := 0, detail := 0, addr := sesId k (t.ses k) } ∧ (∀ j : Nat, j ≠ k → t.ses j = s.ses j) := by
  intro k t
  have ht (j : Nat) : t.ses j = (p.takeSes die f).2.ses j := hv j
  refine ⟨hp k ▸ takeSes_free p die f, ?entry, rfl, fun j hj => ?others⟩
  case entry => rw [← hp k, ht k, takeSes_ses, if_pos rfl]
  case others => rw [← hp j, ht j, takeSes_ses, if_neg (Ne.symm hj)]

/-- Settles O42: a create by its checks and the slot it takes; the others by what the home of the session finds. -/
theorem sessionCommands : Obligations.SessionCommands := by
  intro c s paid ans b home rows plain
  refine ⟨fun hcheck => ⟨fun hbad => ?createBad, fun hmode hrsvd => ⟨fun hfull => ?createFull, fun hroom => ?createTakes⟩⟩,
    fun row hrow hcheck => ?named⟩
  case createBad => exact (execSessCreate_past hcheck).trans (congrArg _ (if_pos hbad))
  case createFull =>
    exact (execSessCreate_past hcheck).trans (congrArg _ ((if_neg (by simp [b, hmode, hrsvd])).trans (if_pos hfull)))
  case createTakes =>
    exact ⟨_, _, (execSessCreate_past hcheck).trans (congrArg _ ((if_neg (by simp [b, hmode, hrsvd])).trans (if_neg (Bool.eq_false_iff.mp hroom)))),
      answerSes_takes s c _ _ (fun k => cntAdd_ses ..) (fun k => rfl)⟩
  case named =>
    obtain ⟨bad, hbad, hexec⟩ := exec_sesRow hrow hcheck
    have hops := sesRows_op hrow
    intro p
    have hses (k : Nat) : p.ses k = s.ses k := cntAdd_ses ..
    have hnamed : p.sesNamed (c.fld 0 8) = s.sesNamed (c.fld 0 8) := sesNamed_of_sess (cntAdd_sess ..) _
    have hsessOps : p.sessOps = s.sessOps := cntAdd_sessOps ..
    refine ⟨fun hplain => ?refused, fun hplain haway => ?forward, fun hplain hhome => ?atHome⟩
    case refused =>
      rw [hexec, Bool.eq_true_of_not_eq_false (mt hbad.mp hplain)]
      exact congrArg _ sesCmd_bad
    case forward =>
      rw [hexec, hbad.mpr hplain, sesCmd_forward haway, State.paid, cntAdd_fwds]
    case atHome =>
      have hrun : exec row.2.1 s = .next (p.sesRun c row.2.2) := by
        rw [hexec, hbad.mpr hplain]
        exact congrArg _ (sesCmd_home hhome)
      clear hexec
      obtain ⟨n, i, op⟩ := row
      dsimp only at hrun hops ⊢
      rw [hrun]
      refine ⟨fun hstale => ?stale, fun k hk => ⟨fun hpart => ?otherPart, fun hpart => ?own⟩⟩
      case stale => exact congrArg _ (sesRun_error (sesCheck_stale (hnamed.trans hstale)))
      case otherPart => exact congrArg _ (sesRun_error (sesCheck_otherPart (hnamed.trans hk) ((hses k).symm ▸ hpart)))
      case own =>
        have hok : p.sesCheck c = .ok k := sesCheck_ok (hnamed.trans hk) ((hses k).symm ▸ hpart)
        rw [← hses k, ← hsessOps]
        refine ⟨fun hop hbusy => congrArg _ (sesRun_busy hok ?op hbusy), ?_, ?_, ?_, ?_, ?_, ?_⟩
        case op =>
          simp only [List.mem_cons, List.not_mem_nil, or_false] at hops
          tauto
        · rintro rfl
          exact congrArg _ (sesRun_set hok)
        · rintro rfl
          exact congrArg _ (sesRun_query hok)
        · rintro rfl hbusy
          exact congrArg _ (sesRun_delete hok hbusy)
        · rintro rfl hbusy hparked himage
          exact congrArg _ (sesRun_move hok hbusy hparked himage)
        · rintro rfl hbusy hparked himage hkey
          exact congrArg _ (sesRun_export_noKey hok hbusy hparked himage hkey)
        · rintro img rfl hbusy hparked himage hkey himg
          exact congrArg _ (sesRun_export hok hbusy hparked himage hkey himg)

end Sys2Proof.Machine

/-! PROOFS. Imports of sessions and shared prefixes (R537, R541, R542, R560). -/
namespace Sys2Proof.Machine
open Sys2Proof.Laws

/-! ### Wrapping leaves the sessions -/

@[simp] theorem setKeySlot_sess (s : State) (n : Nat) (k : Option KeySlot) : (s.setKeySlot n k).sess = s.sess := rfl

theorem takeSerial_sess (s : State) (n : Nat) : (s.takeSerial n).2.sess = s.sess := by
  unfold State.takeSerial
  cases s.keySlot n with
  | none => rfl
  | some k =>
    dsimp only
    split <;> split <;> rfl

theorem wrapImage_sess (s : State) (n : Nat) (img : List Byte) : (s.wrapImage n img).2.sess = s.sess :=
  (cntAdd_sess ..).trans (takeSerial_sess s n)

/-! ### SESS_IMPORT (R537, R560) -/

/-- The header of an exported image of the size that the command names keeps R537, and its key slot is one of the 16. -/
def HCmd.headOk (c : HCmd) (img : List Byte) : Prop :=
  imageOk img = true ∧ bit (hdr img 7 1) 0 = true ∧ hdr img 64 8 = c.fld 8 8 ∧ hdr img 132 4 = 1024 ∧ hdr img 128 4 < 16

/-- The image in clear that an import keeps: the header without its wrapping, and the body. -/
def clearImage (body : List Byte) : List Byte :=
  body.take 7 ++ leBytes 1 (hdr body 7 1 - 1) ++ (body.drop 8).take 56 ++ leBytes 8 body.length ++
    (body.drop 72).take 56 ++ List.replicate 16 0 ++ body.drop 144

/-- The bytes that an import stores, wrapped again where the partition is secure. -/
def State.importData (s : State) (part : Nat) (body : List Byte) : List Byte × State :=
  let so := s.wrapCount (body.length - 4096)
  if s.partSecure part then so.wrapImage (s.partKey part) (clearImage body) else (clearImage body, so)

theorem importData_sess (s : State) (part : Nat) (body : List Byte) : (s.importData part body).2.sess = s.sess := by
  unfold State.importData
  dsimp only
  split
  · exact (wrapImage_sess ..).trans (cntAdd_sess ..)
  · exact cntAdd_sess ..

/-- The entry of an imported session: `PARKED`, with its image in flash (R560). -/
def HCmd.importedSes (c : HCmd) (img : List Byte) (part obj kib breath : Nat) (x : Sess) : Sess :=
  { x with
    state := 3, dest := 1, mode := hdr img 6 1, nextMode := hdr img 6 1, nextDest := 1, part := part, fn := c.fn, cold := obj
    tokens := hdr img 20 4, turns := hdr img 16 4, imageKib := kib
    model := hdr img 24 2, parked := breath, imgMode := hdr img 6 1
    pfx := if hdr img 36 4 = 0xFFFFFFFF then none else some (hdr img 36 4) }

/-- An import that is accepted: the image is kept in flash object `obj`, and the session takes a slot. -/
def State.importSes (s : State) (c : HCmd) (img body : List Byte) (obj : Nat) : State :=
  let part := s.fnPart c.fn
  let w := s.importData part body
  let q := w.2.takeSes (fnDie c.fn)
    (c.importedSes img part obj (min (ceilDiv w.1.length 1024) (2 ^ 32 - 1)) s.breath.number)
  State.answerSes (q.1, q.2.putImage obj 1 part c.fn 0 none w.1) c

/-- The own part of SESS_IMPORT on an image in host memory, in the order of its checks. -/
def State.importRun (s : State) (c : HCmd) (img : List Byte) (known : Bool) (obj : Nat) : State :=
  if s.dirFull (fnDie c.fn) then s.answer c 2 0 0
  else if imageOk img = false ∨ bit (hdr img 7 1) 0 = false ∨ hdr img 64 8 ≠ c.fld 8 8 ∨ hdr img 132 4 ≠ 1024 ∨ 16 ≤ hdr img 128 4 then
    s.answer c 6 0 0
  else if (s.keySlot (hdr img 128 4)).isNone then s.answer c 7 0 0
  else match s.openImage img with
    | none => s.tagFailed.answer c 6 0 0
    | some body =>
      if known = false ∨ s.modelAnyReady (hdr img 24 2) = false ∨ (List.range 4).countP (fun ch => s.online ch) < hdr img 33 1 ∨
          (s.partSecure (s.fnPart c.fn) = true ∧ s.canWrap (s.partKey (s.fnPart c.fn)) = false) then s.answer c 7 0 0
      else s.importSes c img body obj

section
variable {c : HCmd} {s : State} {img : List Byte} {known : Bool} {obj : Nat} (hcheck : s.hostCheck c 24 false = none)
include hcheck

theorem execSessImport_rsvd (h : 2 ≤ c.fld 16 1 ∨ c.fld 17 7 ≠ 0) :
    exec (.sessImport c img known obj) s = .next ((s.paid c 24).answer c 1 0 0) :=
  congrArg Host.Outcome.next ((hostRun_of_check _ hcheck).trans (if_pos h))

/-- An image in host memory whose length the command gives. -/
theorem execSessImport_host (h0 : c.fld 16 1 = 0) (h1 : c.fld 17 7 = 0) (hn : c.fld 8 8 = img.length) :
    exec (.sessImport c img known obj) s = .next ((s.paid c 24).importRun c img known obj) := by
  refine congrArg Host.Outcome.next ((hostRun_of_check _ hcheck).trans ((if_neg (by omega)).trans ?_))
  have himg : (if bit (c.fld 16 1) 0 then (s.paid c 24).flashBytes (c.fld 0 8) 0 (c.fld 8 8) else img.take (c.fld 8 8)) = img := by
    rw [h0, hn, List.take_length]
    rfl
  rw [himg]
  rfl

end

section
variable {c : HCmd} {p : State} {img : List Byte} {known : Bool} {obj : Nat}

theorem importRun_full (h : p.dirFull (fnDie c.fn) = true) : p.importRun c img known obj = p.answer c 2 0 0 := if_pos h

variable (hroom : p.dirFull (fnDie c.fn) = false)
include hroom

theorem importRun_badHead (hhead : ¬c.headOk img) : p.importRun c img known obj = p.answer c 6 0 0 := by
  refine (if_neg (by simp [hroom])).trans (if_pos ?_)
  unfold HCmd.headOk at hhead
  by_contra h
  simp only [not_or, Bool.not_eq_false, ne_eq, not_not, not_le] at h
  exact hhead h

variable (hhead : c.headOk img)
include hhead

theorem importRun_head : p.importRun c img known obj = if (p.keySlot (hdr img 128 4)).isNone then p.answer c 7 0 0
    else match p.openImage img with
    | none => p.tagFailed.answer c 6 0 0
    | some body =>
      if known = false ∨ p.modelAnyReady (hdr img 24 2) = false ∨ (List.range 4).countP (fun ch => p.online ch) < hdr img 33 1 ∨
          (p.partSecure (p.fnPart c.fn) = true ∧ p.canWrap (p.partKey (p.fnPart c.fn)) = false) then p.answer c 7 0 0
      else p.importSes c img body obj := by
  obtain ⟨h1, h2, h3, h4, h5⟩ := hhead
  exact (if_neg (by simp [hroom])).trans (if_neg (by simp [h1, h2, h3, h4, h5]))

theorem importRun_noKey (hkey : p.keySlot (hdr img 128 4) = none) : p.importRun c img known obj = p.answer c 7 0 0 :=
  (importRun_head hroom hhead).trans (if_pos (by rw [hkey]; rfl))

variable (hkey : p.keySlot (hdr img 128 4) ≠ none)
include hkey

theorem importRun_tags (hopen : p.openImage img = none) : p.importRun c img known obj = p.tagFailed.answer c 6 0 0 := by
  rw [importRun_head hroom hhead, if_neg (by simpa using hkey), hopen]

variable {body : List Byte} (hopen : p.openImage img = some body)
include hopen

theorem importRun_model (h : known = false ∨ p.modelAnyReady (hdr img 24 2) = false) :
    p.importRun c img known obj = p.answer c 7 0 0 := by
  rw [importRun_head hroom hhead, if_neg (by simpa using hkey), hopen]
  exact if_pos (by tauto)

theorem importRun_accepts (h1 : known = true) (h2 : p.modelAnyReady (hdr img 24 2) = true)
    (h3 : hdr img 33 1 ≤ (List.range 4).countP (fun ch => p.online ch))
    (h4 : p.partSecure (p.fnPart c.fn) = true → p.canWrap (p.partKey (p.fnPart c.fn)) = true) :
    p.importRun c img known obj = p.importSes c img body obj := by
  rw [importRun_head hroom hhead, if_neg (by simpa using hkey), hopen]
  refine if_neg ?_
  rintro (h | h | h | ⟨h, hw⟩)
  · simp [h1] at h
  · simp [h2] at h
  · omega
  · simp [h4 h] at hw

end

/-- What an accepted import leaves: a session in a slot that was `FREE`, with the entry of the image. -/
theorem importSes_ses (p : State) (c : HCmd) (img body : List Byte) (obj : Nat) : ∃ k kib g : Nat, (p.ses k).state = 0 ∧
    (p.importSes c img body obj).ses k = c.importedSes img (p.fnPart c.fn) obj kib p.breath.number { gen := g } ∧
      (p.importSes c img body obj).reply =
        { fn := c.fn, status := 0, detail := 0, addr := sesId k ((p.importSes c img body obj).ses k) } := by
  have hses (j : Nat) : (p.importData (p.fnPart c.fn) body).2.ses j = p.ses j :=
    congrArg (SMap.get Sess.blank · j) (importData_sess ..)
  obtain ⟨hfree, hentry, hreply, -⟩ := answerSes_takes p c (fnDie c.fn) _ hses fun k => rfl
  exact ⟨_, _, _, hfree, hentry, hreply⟩

/-! ### Prefixes (R541, R542) -/

theorem find_range_lowest {n q : Nat} {f : Nat → Bool} (hq : q < n) (hf : f q = true) (hlow : ∀ j : Nat, j < q → f j = false) :
    (List.range n).find? f = some q := by
  rw [List.find?_range_eq_some]
  exact ⟨hf, List.mem_range.mpr hq, fun j hj => by simp [hlow j hj]⟩

/-- The payload of SESS_PREFIX keeps R541. -/
def HCmd.prefixOk (c : HCmd) : Prop := c.fld 2 2 = 0 ∧ 0 < c.fld 4 4 ∧ c.fld 4 4 % 128 = 0 ∧ c.fld 4 4 ≤ 1048576

/-- The object that SESS_PREFIX makes for the KV of its tokens. -/
def State.prefixObj (s : State) (c : HCmd) (shape : KvShape) (place : Place) : Obj :=
  let mask := ((List.range 4).filter (fun ch => s.online ch)).foldl (fun a ch => a + 2 ^ (8 + ch)) 0
  { size := c.fld 4 4 / 128 * shape.layers * shape.pageBytes, flags := 2 + mask, part := s.fnPart c.fn
    fn := c.fn, addr := place.addr, lastBound := s.breath.number }

/-- The entry that SESS_PREFIX makes. -/
def State.prefixEntry (s : State) (c : HCmd) (l : List Nat) (place : Place) : Pfx :=
  { model := c.fld 0 2, ids := l.take (c.fld 4 4), obj := place.id, part := s.fnPart c.fn }

/-- What SESS_PREFIX leaves: an object, an entry under its id, and the reply. -/
def State.makePrefix (s : State) (c : HCmd) (l : List Nat) (shape : KvShape) (place : Place) (q : Nat) : State :=
  ((s.setObj place.id (some (s.prefixObj c shape place))).setPfx q (some (s.prefixEntry c l place))).answer c 0 0 q

theorem obj_setObj_same (s : State) (id : Nat) (o : Option Obj) : (s.setObj id o).obj id = o := get_set_same ..

theorem pfxOf_setPfx (s : State) (q j : Nat) (x : Option Pfx) : (s.setPfx q x).pfxOf j = if q = j then x else s.pfxOf j := get_set ..

section
variable (s : State) (c : HCmd) (l : List Nat) (shape : KvShape) (pl : Place) (q : Nat)

theorem makePrefix_pfxOf (j : Nat) : (s.makePrefix c l shape pl q).pfxOf j = if q = j
    then some (s.prefixEntry c l pl) else s.pfxOf j :=
  pfxOf_setPfx (s.setObj pl.id (some (s.prefixObj c shape pl))) q j (some (s.prefixEntry c l pl))

theorem makePrefix_obj : (s.makePrefix c l shape pl q).obj pl.id = some (s.prefixObj c shape pl) :=
  obj_setObj_same s pl.id (some (s.prefixObj c shape pl))

end

section
variable {c : HCmd} {s : State} {shape : KvShape} {pl : Place} (hcheck : s.hostCheck c 16 true = none)
include hcheck

theorem execSessPrefix_bad (hbad : ¬c.prefixOk) (l : Option (List Nat)) :
    exec (.sessPrefix c l shape pl) s = .next ((s.paid c 16).answer c 1 0 0) := by
  refine congrArg Host.Outcome.next ((hostRun_of_check _ hcheck).trans (if_pos ?_))
  unfold HCmd.prefixOk at hbad
  omega

variable (hok : c.prefixOk)
include hok

theorem execSessPrefix_unreadable : exec (.sessPrefix c none shape pl) s = .next ((s.paid c 16).answer c 0xF2 0 0) := by
  obtain ⟨h1, h2, h3, h4⟩ := hok
  exact congrArg Host.Outcome.next ((hostRun_of_check _ hcheck).trans (if_neg (by omega)))

/-- The lowest free id is taken (R541). -/
theorem execSessPrefix_makes (l : List Nat) {q : Nat} (hq : q < 4096) (hfree : s.pfxOf q = none)
    (hlow : ∀ j : Nat, j < q → s.pfxOf j ≠ none) :
    exec (.sessPrefix c (some l) shape pl) s = .next ((s.paid c 16).makePrefix c l shape pl q) := by
  obtain ⟨h1, h2, h3, h4⟩ := hok
  have hpfx (j : Nat) : (s.paid c 16).pfxOf j = s.pfxOf j := congrArg (SMap.get (fun _ => none) · j) (cntAdd_pfxs ..)
  have hfind : (List.range 4096).find? (fun j => ((s.paid c 16).pfxOf j).isNone) = some q :=
    find_range_lowest hq (by rw [hpfx, hfree]; rfl) fun j hj => by
      rw [hpfx]
      exact Option.isNone_eq_false_iff.mpr (Option.isSome_iff_ne_none.mpr (hlow j hj))
  refine congrArg Host.Outcome.next ((hostRun_of_check _ hcheck).trans ((if_neg (by omega)).trans ?_))
  unfold State.paid at hfind
  dsimp only
  rw [State.paid, hfind]
  rfl

end

section
variable {c : HCmd} {s : State} (hcheck : s.hostCheck c 8 true = none)
include hcheck

theorem execSessPrefixDelete_rsvd (h : c.fld 2 6 ≠ 0) : exec (.sessPrefixDelete c) s = .next ((s.paid c 8).answer c 1 0 0) :=
  congrArg Host.Outcome.next ((hostRun_of_check _ hcheck).trans (if_pos h))

theorem execSessPrefixDelete_names (h : c.fld 2 6 = 0) {x : Pfx} (hx : s.pfxOf (c.fld 0 2) = some x) :
    exec (.sessPrefixDelete c) s = .next (if s.pfxCount (c.fld 0 2) ≠ 0 then (s.paid c 8).answer c 9 0 0
      else (((s.paid c 8).dropImage x.obj).setPfx (c.fld 0 2) none).answer c 0 0 0) := by
  have hpfx : (s.paid c 8).pfxOf (c.fld 0 2) = some x := (congrArg (SMap.get (fun _ => none) · _) (cntAdd_pfxs ..)).trans hx
  have hcount : (s.paid c 8).pfxCount (c.fld 0 2) = s.pfxCount (c.fld 0 2) := by
    unfold State.pfxCount State.paid
    rw [cntAdd_sess, cntAdd_reqs]
  refine congrArg Host.Outcome.next ((hostRun_of_check _ hcheck).trans ((if_neg (not_not_intro h)).trans ?_))
  rw [State.paid] at hpfx hcount
  rw [State.paid, hpfx, hcount]

end

/-- Settles O43: an import by the first of its checks that fails and what an accepted one leaves, and the two commands of
prefixes by their lemmas. -/
theorem importsAndPrefixes : Obligations.ImportsAndPrefixes := by
  intro c s paid ans
  refine ⟨fun img known obj hcheck => ⟨execSessImport_rsvd hcheck, fun h0 h1 hn => ?imports⟩,
    fun ids shape pl hcheck => ⟨fun hbad => execSessPrefix_bad hcheck hbad _, execSessPrefix_unreadable hcheck, fun q hok hq hfree hlow => ?makes⟩,
    fun hcheck => ⟨execSessPrefixDelete_rsvd hcheck, fun x h hx => ⟨fun hc => ?named, fun hc => ?unnamed⟩⟩⟩
  case imports =>
    rw [execSessImport_host hcheck h0 h1 hn]
    refine ⟨fun hfull => congrArg _ (importRun_full hfull), fun hroom => ⟨fun hhead => congrArg _ (importRun_badHead hroom hhead),
      fun hhead hkey => congrArg _ (importRun_noKey hroom hhead hkey),
      fun hhead hkey hopen => congrArg _ (importRun_tags hroom hhead hkey hopen),
      fun body hhead hkey hopen => ⟨fun hmodel => congrArg _ (importRun_model hroom hhead hkey hopen hmodel),
        fun hknown hready hchanters hwrap => ?accepted⟩⟩⟩
    case accepted =>
      have haccepts := importRun_accepts (obj := obj) hroom hhead hkey hopen hknown hready hchanters hwrap
      obtain ⟨k, kib, g, hfree, hentry, hreply⟩ := importSes_ses (paid 24) c img body obj
      have hslot : (s.ses k).state = 0 := cntAdd_ses (s := s) .. ▸ hfree
      refine ⟨_, k, congrArg _ haccepts, ?_, ?_, ?_, ?_, ?_, ?_, ?_, ?_, hslot, hreply⟩ <;> (rw [hentry]; rfl)
  case makes =>
    refine ⟨_, execSessPrefix_makes hcheck hok ids hq hfree hlow, (makePrefix_pfxOf ..).trans (if_pos rfl), fun j hj => ?_, rfl,
      _, makePrefix_obj .., rfl, rfl⟩
    exact (makePrefix_pfxOf ..).trans ((if_neg (Ne.symm hj)).trans (congrArg (SMap.get (fun _ => none) · j) (cntAdd_pfxs s ..)))
  case named => exact (execSessPrefixDelete_names hcheck h hx).trans (congrArg _ (if_pos hc))
  case unnamed => exact (execSessPrefixDelete_names hcheck h hx).trans (congrArg _ (if_neg (not_not_intro hc)))

end Sys2Proof.Machine

/-! PROOFS. Notices between host and firmware (R652 to R665, R673, R676, R677, R719). -/
namespace Sys2Proof.Machine
open Sys2Proof.Laws

/-! ### What moving a notice leaves alone -/

theorem sameMem_of_mem {s t : State} (h : t.mem = s.mem) : sameMem s t := fun a => congrArg (fun m : Memory => m.byte a) h

/-- `t` with what notices move taken from `s`: the functions, the notices that firmware keeps, the abort records, the messages
sent, and counters and registers. -/
def State.notesFrom (s t : State) : State :=
  { t with fns := s.fns, fwNotices := s.fwNotices, abortsA := s.abortsA, abortsB := s.abortsB, msixSent := s.msixSent, cnt := s.cnt
           regs := s.regs }

/-- `t` differs from `s` in what notices move. -/
def NotesOnly (s t : State) : Prop := s.notesFrom t = s

namespace NotesOnly
variable {s t u : State}

theorem refl (s : State) : NotesOnly s s := rfl

theorem trans (h1 : NotesOnly s t) (h2 : NotesOnly t u) : NotesOnly s u := (congrArg s.notesFrom h2).trans h1

theorem of_frame (h : { t with cnt := s.cnt, regs := s.regs } = s) : NotesOnly s t :=
  (congrArg s.notesFrom h :)

theorem setFn (h : NotesOnly s t) (f : Nat) (x : Fn) : NotesOnly s (t.setFn f x) := h
theorem setFld (h : NotesOnly s t) (a hi lo v : Nat) : NotesOnly s (t.setFld a hi lo v) := h
theorem raise (h : NotesOnly s t) (a n : Nat) : NotesOnly s (t.raise a n) := h

theorem cntAdd (h : NotesOnly s t) (b : Blk) (die i off n : Nat) : NotesOnly s (t.cntAdd b die i off n) :=
  h.trans (of_frame (cntAdd_frame t b die i off n))

theorem foldl {α : Type} {f : State → α → State} (hf : ∀ (t : State) (a : α), NotesOnly t (f t a)) (l : List α)
    (h : NotesOnly s t) : NotesOnly s (l.foldl f t) :=
  List.foldlRecOn (motive := NotesOnly s) l f h fun t ht a _ => ht.trans (hf t a)

theorem mem (h : NotesOnly s t) : t.mem = s.mem := by
  unfold NotesOnly at h
  exact (congrArg State.mem h :)

theorem sameMem (h : NotesOnly s t) : sameMem s t := sameMem_of_mem h.mem

theorem msixRaise (h : NotesOnly s t) (f kind : Nat) : NotesOnly s (t.msixRaise f kind) := by
  unfold State.msixRaise
  dsimp only
  split
  · exact h
  · split
    · exact h
    · split <;> exact h

theorem f2hPush (h : NotesOnly s t) (f : Nat) (n : Notice) : NotesOnly s (t.f2hPush f n) := by
  unfold State.f2hPush
  dsimp only
  split
  · exact (h.setFn ..).cntAdd ..
  · exact ((h.setFn ..).cntAdd ..).msixRaise ..

theorem abort (h : NotesOnly s t) (f : Nat) (n : Notice) : NotesOnly s (t.abort f n) := by
  have hc : NotesOnly s (t.cntAdd .mbx (fnDie f) (fnDie f) 0x048 1) := h.cntAdd ..
  unfold State.abort
  dsimp only
  generalize (if fnDie f = 4 then _ else _ : List Word) = q
  split
  · exact hc
  · split <;> exact hc

theorem drainFw (h : NotesOnly s t) (f : Nat) : NotesOnly s (t.drainFw f) := by
  unfold State.drainFw
  split
  · exact h
  · next e _ =>
    split
    · exact NotesOnly.f2hPush (t := { t with fwNotices := t.fwNotices.erase e }) h f e.2
    · exact h

end NotesOnly

/-! ### The functions after a notice has moved -/

section
variable (s : State) (f g kind : Nat) (n : Notice)

@[simp] theorem cntAdd_fn (b : Blk) (die i off k : Nat) : (s.cntAdd b die i off k).fn f = s.fn f :=
  congrArg (SMap.get Fn.blank · f) (cntAdd_fns s b die i off k)

@[simp] theorem raise_fn (a k : Nat) : (s.raise a k).fn f = s.fn f := rfl

theorem msixRaise_fn_other (h : f ≠ g) : (s.msixRaise f kind).fn g = s.fn g := by
  have hset (x : Fn) : (s.setFn f x).fn g = s.fn g := (fn_setFn ..).trans (if_neg h)
  unfold State.msixRaise
  dsimp only
  split
  · rfl
  · split
    · rfl
    · split <;> exact hset _

/-- A message changes the vectors of its function alone. -/
theorem msixRaise_fn_same : ∃ (l l' : List Nat), (s.msixRaise f kind).fn f = { s.fn f with disarmed := l, pba := l' } := by
  unfold State.msixRaise
  dsimp only
  split
  · exact ⟨_, _, rfl⟩
  · split
    · exact ⟨_, _, rfl⟩
    · split <;> exact ⟨_, _, fn_setFn_same ..⟩

theorem msixRaise_f2h : ((s.msixRaise f kind).fn f).f2h = (s.fn f).f2h := by
  obtain ⟨l, l', h⟩ := msixRaise_fn_same s f kind
  rw [h]

theorem msixRaise_h2f : ((s.msixRaise f kind).fn f).h2f = (s.fn f).h2f := by
  obtain ⟨l, l', h⟩ := msixRaise_fn_same s f kind
  rw [h]

theorem f2hPush_fn_other (h : f ≠ g) : (s.f2hPush f n).fn g = s.fn g := by
  have hset : ((s.setFn f { s.fn f with f2h := (s.fn f).f2h ++ [n] }).cntAdd .mbx (fnDie f) (fnDie f) 0x038 1).fn g = s.fn g :=
    (cntAdd_fn ..).trans ((fn_setFn ..).trans (if_neg h))
  unfold State.f2hPush
  dsimp only
  split
  · exact hset
  · exact (msixRaise_fn_other _ _ _ _ h).trans hset

theorem setFn_cntAdd_fn (x : Fn) (b : Blk) (die i off k : Nat) : ((s.setFn f x).cntAdd b die i off k).fn f = x :=
  (cntAdd_fn ..).trans (fn_setFn_same ..)

/-- The notice is the newest of its function's channel. -/
theorem f2hPush_f2h : ((s.f2hPush f n).fn f).f2h = (s.fn f).f2h ++ [n] := by
  unfold State.f2hPush
  dsimp only
  split
  · exact congrArg Fn.f2h (setFn_cntAdd_fn ..)
  · exact (msixRaise_f2h ..).trans (congrArg Fn.f2h (setFn_cntAdd_fn ..))

theorem f2hPush_h2f : ((s.f2hPush f n).fn f).h2f = (s.fn f).h2f := by
  unfold State.f2hPush
  dsimp only
  split
  · rw [setFn_cntAdd_fn]
  · rw [msixRaise_h2f, setFn_cntAdd_fn]

@[simp] theorem abort_fn : (s.abort f n).fn g = s.fn g := by
  have hc : (s.cntAdd .mbx (fnDie f) (fnDie f) 0x048 1).fn g = s.fn g := cntAdd_fn ..
  unfold State.abort
  dsimp only
  generalize (if fnDie f = 4 then _ else _ : List Word) = q
  split
  · exact hc
  · split <;> exact hc

/-- At most one kept notice enters the channel. -/
theorem drainFw_f2h_length : ((s.drainFw f).fn f).f2h.length ≤ (s.fn f).f2h.length + 1 := by
  unfold State.drainFw
  split
  · exact Nat.le_succ _
  · next e _ =>
    split
    · rw [f2hPush_f2h, List.length_append]
      exact Nat.le_refl _
    · exact Nat.le_succ _

end

/-! ### Which registers a notice moves -/

section
variable (s : State) (f kind : Nat) (n : Notice) {a : Nat}

/-- A count changes no register but CNT_OVF of its page. -/
theorem cntAdd_reg_ofOffset (b : Blk) (die i off k : Nat) (h : a % 4096 ≠ 0x028) : (s.cntAdd b die i off k).reg a = s.reg a :=
  reg_cntAdd_other s b die i off k a (by unfold inPage; omega)

theorem at_mod (b : Blk) (die i : Nat) {off : Nat} (h : off < 4096) : b.at die i off % 4096 = off := by
  rw [at_off, at_page]
  omega

theorem msixRaise_reg : (s.msixRaise f kind).reg a = s.reg a := by
  unfold State.msixRaise
  dsimp only
  split
  · rfl
  · split
    · rfl
    · split <;> rfl

theorem f2hPush_reg (h : a % 4096 ≠ 0x028) : (s.f2hPush f n).reg a = s.reg a := by
  unfold State.f2hPush
  dsimp only
  split
  · exact cntAdd_reg_ofOffset _ _ _ _ _ _ h
  · exact (msixRaise_reg ..).trans (cntAdd_reg_ofOffset _ _ _ _ _ _ h)

end

/-- An interrupt raised at its block stands in the block's INT_STATUS (R14). -/
theorem rbit_raise_at (s : State) (b : Blk) (die i : Nat) {k : Nat} (hk : k < 32) :
    (s.raise (b.at die i 0) k).rbit (b.at die i 0x010) k = true := by
  have h := rbit_raise s (b.at die i 0) k hk
  rwa [inPage_at _ _ _ _ _ (by decide)] at h

/-! ### A doorbell (R655, R656) -/

section
variable {s : State} {f : Nat} {n : Notice}

/-- A slot that the search finds free is one of 64 that no notice holds. -/
theorem mem_freeSlots {x : Fn} {k : Nat} (h : k ∈ x.freeSlots) : k < 64 ∧ ∀ e ∈ x.h2f, e.slot ≠ k := by
  unfold Fn.freeSlots at h
  rw [List.mem_filter, List.mem_range] at h
  obtain ⟨hlt, hfree⟩ := h
  refine ⟨hlt, fun e he hk => ?_⟩
  have hany : x.h2f.any (fun e => decide (e.slot = k)) = true := List.any_eq_true.mpr ⟨e, he, decide_eq_true hk⟩
  rw [hany] at hfree
  exact Bool.noConfusion hfree

theorem post_dropped (h : (s.fn f).freeSlots = [] ∨ s.mbxReady (fnDie f) = false ∨ (s.fn f).flr = true) :
    s.post f n = ((s.setFn f { s.fn f with int := (s.fn f).int ||| 1 }).cntAdd .mbx (fnDie f) (fnDie f) 0x040 1).raise
      (mbx (fnDie f) 0) 1 := if_pos h

/-- A posted notice is in a slot that was free. -/
theorem post_posted (h : ¬((s.fn f).freeSlots = [] ∨ s.mbxReady (fnDie f) = false ∨ (s.fn f).flr = true)) : ∃ slot ∈ (s.fn f).freeSlots,
    s.post f n = (({ s with freeCtr := s.freeCtr + 1 } : State).setFn f
      { s.fn f with h2f := (s.fn f).h2f ++ [{ slot := slot, note := n }] }).raise (mbx (fnDie f) 0) 0 := by
  have hpos : 0 < (s.fn f).freeSlots.length := List.length_pos_of_ne_nil fun hn => h (Or.inl hn)
  refine ⟨(s.fn f).freeSlots.getD ((s.free 6).1 % (s.fn f).freeSlots.length) 0, ?_, if_neg h⟩
  have hlt : (s.free 6).1 % (s.fn f).freeSlots.length < (s.fn f).freeSlots.length := Nat.mod_lt _ hpos
  rw [List.getD_eq_getElem _ _ hlt]
  exact List.getElem_mem hlt

end

/-! ### A take (R657) -/

section
variable {s : State} {die f : Nat} {h : H2F}

theorem take_none (bad : Bool) (hreset : s.sec.pendingReset = false) (hnext : s.nextFn die = none) :
    s.take die bad = { s.setReg (Blk.mbx.at die die 0x110) 0 with readData := 0 } := by
  unfold State.take
  rw [if_neg (Bool.eq_false_iff.mp hreset), hnext]
  rfl

variable (hreset : s.sec.pendingReset = false) (hnext : s.nextFn die = some f)
  (hnotice : (s.fn f).h2f.find? (fun g => !g.taken) = some h)
include hreset hnext hnotice

theorem take_bad : s.take die true = { (s.discardH2f f h).setReg (Blk.mbx.at die die 0x110) 0 with readData := 0 } := by
  unfold State.take
  rw [if_neg (Bool.eq_false_iff.mp hreset), hnext]
  simp only [hnotice]
  rfl

/-- The notice is marked, and MBX_TAKE3 names its function and slot. -/
theorem take_good : ∃ t : State, s.take die false = t ∧ t.readData = h.note.tag + 2 ^ 16 * h.note.flags ∧
    t.reg (Blk.mbx.at die die 0x110) = BitVec.ofNat 32 (2 ^ 31 + h.slot * 2 ^ 16 + f) ∧
    t.fn f = { s.fn f with h2f := (s.fn f).h2f.map (fun g => if g = h then { g with taken := true } else g) } ∧
    SMap.get (fun _ => 0) t.mbxLast die = f + 1 := by
  refine ⟨_, rfl, ?_⟩
  unfold State.take
  rw [if_neg (Bool.eq_false_iff.mp hreset), hnext]
  simp only [hnotice, if_neg Bool.false_ne_true]
  refine ⟨trivial, ?takeReg, ?taken, get_set_same ..⟩
  case takeReg => exact (cntAdd_reg_same _ _ _ _ _ _ _ (by decide) (by decide)).trans (reg_setReg_same ..)
  case taken => exact (cntAdd_fn ..).trans (fn_setFn_same ..)

end

/-! ### A send (R658, R665, R666, R676) -/

/-- The slot of a reply is free again (R658). -/
def State.freeReplied (s : State) (f slot : Nat) : State :=
  s.setFn f { s.fn f with h2f := (s.fn f).h2f.filter (fun h => decide (h.slot ≠ slot)) }

section
variable {p : State} {die : Nat}

theorem sendGo_notice (hreply : p.rbit (Blk.mbx.at die die 0x130) 31 = false)
    (hen : p.fnEnabled (p.fld (Blk.mbx.at die die 0x130) 9 0) = true) (hflr : (p.fn (p.fld (Blk.mbx.at die die 0x130) 9 0)).flr = false)
    (hroom : p.f2hRoom (p.fld (Blk.mbx.at die die 0x130) 9 0) = true) :
    p.sendGo die = (p.f2hPush (p.fld (Blk.mbx.at die die 0x130) 9 0) (p.sendRegs die)).setFld (Blk.mbx.at die die 0x134) 1 0 0 :=
  (if_neg (Bool.eq_false_iff.mp hreply)).trans ((if_neg (ne_false_of_eq_true hen)).trans ((if_neg (Bool.eq_false_iff.mp hflr)).trans (if_pos hroom)))

theorem sendGo_full (hreply : p.rbit (Blk.mbx.at die die 0x130) 31 = false)
    (hen : p.fnEnabled (p.fld (Blk.mbx.at die die 0x130) 9 0) = true) (hflr : (p.fn (p.fld (Blk.mbx.at die die 0x130) 9 0)).flr = false)
    (hroom : p.f2hRoom (p.fld (Blk.mbx.at die die 0x130) 9 0) = false) :
    p.sendGo die = p.setFld (Blk.mbx.at die die 0x134) 1 0 1 :=
  (if_neg (Bool.eq_false_iff.mp hreply)).trans ((if_neg (ne_false_of_eq_true hen)).trans ((if_neg (Bool.eq_false_iff.mp hflr)).trans
    (if_neg (Bool.eq_false_iff.mp hroom))))

variable (hreply : p.rbit (Blk.mbx.at die die 0x130) 31 = true)
include hreply

theorem sendGo_unknown (hnone : (p.fn (p.fld (Blk.mbx.at die die 0x130) 9 0)).h2f.find?
      (fun h => decide (h.slot = p.fld (Blk.mbx.at die die 0x130) 21 16) && h.taken) = none) :
    p.sendGo die = p.setFld (Blk.mbx.at die die 0x134) 1 0 3 := by
  refine (if_pos hreply).trans ?_
  dsimp only
  split
  case h_1 => rfl
  case h_2 h hsome => exact absurd (hsome.symm.trans hnone) (Option.some_ne_none _)

theorem sendGo_reply {h : H2F} (hfind : (p.fn (p.fld (Blk.mbx.at die die 0x130) 9 0)).h2f.find?
      (fun h => decide (h.slot = p.fld (Blk.mbx.at die die 0x130) 21 16) && h.taken) = some h)
    (hen : p.fnEnabled (p.fld (Blk.mbx.at die die 0x130) 9 0) = true) (hflr : (p.fn (p.fld (Blk.mbx.at die die 0x130) 9 0)).flr = false)
    (hdoomed : h.doomed = false) :
    p.sendGo die = ((p.freeReplied (p.fld (Blk.mbx.at die die 0x130) 9 0) (p.fld (Blk.mbx.at die die 0x130) 21 16)).f2hPush
      (p.fld (Blk.mbx.at die die 0x130) 9 0) (p.sendRegs die)).setFld (Blk.mbx.at die die 0x134) 1 0 0 := by
  refine (if_pos hreply).trans ?_
  dsimp only
  split
  case h_1 hnone => exact absurd (hfind.symm.trans hnone) (Option.some_ne_none _)
  case h_2 g hsome =>
    obtain rfl : h = g := Option.some.inj (hfind.symm.trans hsome)
    exact (if_neg (ne_false_of_eq_true hen)).trans ((if_neg (Bool.eq_false_iff.mp hflr)).trans (if_neg (Bool.eq_false_iff.mp hdoomed)))

end

theorem fn_freeReplied (s : State) (f slot : Nat) : (s.freeReplied f slot).fn f =
    { s.fn f with h2f := (s.fn f).h2f.filter (fun h => decide (h.slot ≠ slot)) } := fn_setFn_same ..

/-- Its reply sent, no notice is in the slot. -/
theorem slot_freeReplied_push {s : State} {f slot : Nat} {n : Notice} {g : H2F}
    (h : g ∈ (((s.freeReplied f slot).f2hPush f n).fn f).h2f) : g.slot ≠ slot := by
  rw [f2hPush_h2f, fn_freeReplied] at h
  exact of_decide_eq_true (List.mem_filter.mp h).2

/-! ### The host's side (R660, R661, R663, R665, R719) -/

theorem discardF2h_nil {s : State} {f : Nat} (h : (s.fn f).f2h = []) : s.discardF2h f = s := by
  unfold State.discardF2h
  simp only [h]

theorem discardF2h_notesOnly (s : State) (f : Nat) : NotesOnly s (s.discardF2h f) := by
  unfold State.discardF2h
  dsimp only
  split
  · exact NotesOnly.refl s
  · exact (((NotesOnly.refl s).setFn ..).abort ..).drainFw ..

/-- The discarded notice leaves its place to at most one that waited. -/
theorem discardF2h_length (s : State) (f : Nat) : ((s.discardF2h f).fn f).f2h.length ≤ (s.fn f).f2h.length := by
  unfold State.discardF2h
  dsimp only
  split
  case h_1 => exact Nat.le_refl _
  case h_2 n rest h =>
    refine (drainFw_f2h_length ..).trans ?_
    rw [abort_fn, fn_setFn_same, h]
    exact Nat.le_refl _

section
variable {s : State} {fn : Nat} {n : Notice} {ns : List Notice}

theorem execF2hTake_empty (bad : Bool) (h : (s.fn fn).cfg.getLsbD 8 = true ∨ (s.fn fn).f2h = []) :
    execF2hTake fn s bad = .next { s with readData := 0 } := by
  unfold execF2hTake
  refine congrArg Host.Outcome.next ?_
  dsimp only
  split
  case isTrue => rfl
  case isFalse hq =>
    have hnil : (s.fn fn).f2h = [] := h.resolve_left hq
    rw [discardF2h_nil hnil, hnil]
    exact ite_self _

theorem execF2hTake_bad (hq : (s.fn fn).cfg.getLsbD 8 = false) :
    execF2hTake fn s true = .next { s.discardF2h fn with readData := 0 } :=
  congrArg Host.Outcome.next ((if_neg (Bool.eq_false_iff.mp hq)).trans (if_pos rfl))

theorem execF2hTake_good (hq : (s.fn fn).cfg.getLsbD 8 = false) (h : (s.fn fn).f2h = n :: ns) :
    execF2hTake fn s false = .next { (s.setFn fn { s.fn fn with f2h := ns }).drainFw fn with readData := leOf n.bytes } := by
  unfold execF2hTake
  refine congrArg Host.Outcome.next ((if_neg (Bool.eq_false_iff.mp hq)).trans ((if_neg Bool.false_ne_true).trans ?_))
  simp only [h]

theorem execCqWrite_refused (h : (s.fn fn).f2h = n :: ns) (bad : Bool) (hno : (s.fn fn).cfg.getLsbD 8 = false ∨ s.canWriteHost fn = false ∨
      2 ^ fieldW (s.fn fn).cfg 4 0 ≤ serialDiff (s.fn fn).cqTail (s.fn fn).cqHead) : execCqWrite fn s bad = .next s := by
  unfold execCqWrite
  simp only [h]
  exact congrArg Host.Outcome.next (if_pos hno)

variable (hq : (s.fn fn).cfg.getLsbD 8 = true) (hw : s.canWriteHost fn = true)
  (hroom : serialDiff (s.fn fn).cqTail (s.fn fn).cqHead < 2 ^ fieldW (s.fn fn).cfg 4 0)
include hq hw hroom

theorem cqWrite_open : ¬((s.fn fn).cfg.getLsbD 8 = false ∨ s.canWriteHost fn = false ∨
    2 ^ fieldW (s.fn fn).cfg 4 0 ≤ serialDiff (s.fn fn).cqTail (s.fn fn).cqHead) := by
  rw [hq, hw]
  rintro (h | h | h)
  · exact Bool.noConfusion h
  · exact Bool.noConfusion h
  · omega

variable (h : (s.fn fn).f2h = n :: ns)
include h

theorem execCqWrite_bad : execCqWrite fn s true = .next (s.discardF2h fn) := by
  unfold execCqWrite
  simp only [h]
  exact congrArg Host.Outcome.next ((if_neg (cqWrite_open hq hw hroom)).trans (if_pos trivial))

theorem execCqWrite_good : execCqWrite fn s false = .next (((((s.setFn fn
    { s.fn fn with f2h := ns, cqTail := ((s.fn fn).cqTail + 1) % 2 ^ 32 }).hostWrite fn
      ((s.fn fn).cqBase + (s.fn fn).cqTail % 2 ^ fieldW (s.fn fn).cfg 4 0 * 16)
      ({ n with flags := withBits n.flags 11 11 (((s.fn fn).cqTail / 2 ^ fieldW (s.fn fn).cfg 4 0 % 2) ^^^ 1) } : Notice).bytes).msixRaise
        fn n.kind)).drainFw fn) := by
  unfold execCqWrite
  simp only [h]
  exact congrArg Host.Outcome.next ((if_neg (cqWrite_open hq hw hroom)).trans (if_neg Bool.false_ne_true))

end

/-! ### A restart of the firmware (R664) -/

section
variable (s : State) (f g die : Nat)

/-- One notice at a restart: its abort reply, where its function can be told, and its count. -/
def State.restartNotice (s : State) (f : Nat) (told : Bool) (h : H2F) : State :=
  (if told then s.f2hPush f { addr := 0, len := b2n h.taken, tag := h.note.tag, flags := 0x9000 } else s).cntAdd
    .mbx (fnDie f) (fnDie f) 0x048 1

theorem restartFn_eq : s.restartFn f = ((s.fn f).h2f.filter (fun h => !h.doomed)).foldl
    (fun t h => t.restartNotice f (!(s.fn f).flr) h) (s.setFn f { s.fn f with h2f := [] }) := by
  unfold State.restartFn State.restartNotice
  dsimp only
  cases hflr : (s.fn f).flr
  · exact if_neg Bool.false_ne_true
  · exact if_pos rfl

theorem restartNotice_notesOnly (told : Bool) (h : H2F) : NotesOnly s (s.restartNotice f told h) := by
  cases told
  · exact (NotesOnly.refl s).cntAdd ..
  · exact ((NotesOnly.refl s).f2hPush ..).cntAdd ..

theorem restartNotice_fn_other (told : Bool) (h : H2F) (hfg : f ≠ g) : (s.restartNotice f told h).fn g = s.fn g := by
  cases told
  · exact cntAdd_fn ..
  · exact (cntAdd_fn ..).trans (f2hPush_fn_other _ _ _ _ hfg)

theorem restartNotice_h2f (told : Bool) (h : H2F) : ((s.restartNotice f told h).fn f).h2f = (s.fn f).h2f := by
  unfold State.restartNotice
  rw [cntAdd_fn]
  cases told
  · rfl
  · exact f2hPush_h2f ..

theorem restartNotice_reg (told : Bool) (h : H2F) {a : Nat} (ha : a % 4096 ≠ 0x028) : (s.restartNotice f told h).reg a = s.reg a := by
  refine (cntAdd_reg_ofOffset _ _ _ _ _ _ ha).trans ?_
  cases told
  · rfl
  · exact f2hPush_reg _ _ _ ha

theorem restartFn_notesOnly : NotesOnly s (s.restartFn f) := by
  rw [restartFn_eq]
  exact NotesOnly.foldl (fun t h => restartNotice_notesOnly t f _ h) _ ((NotesOnly.refl s).setFn ..)

theorem restartFn_fn_other (hfg : f ≠ g) : (s.restartFn f).fn g = s.fn g := by
  rw [restartFn_eq, foldl_keeps (State.fn · g) _ fun t h => restartNotice_fn_other t f g _ h hfg]
  exact (fn_setFn ..).trans (if_neg hfg)

/-- Every slot of the function is free. -/
theorem restartFn_h2f : ((s.restartFn f).fn f).h2f = [] := by
  rw [restartFn_eq, foldl_keeps (fun t => (t.fn f).h2f) _ fun t h => restartNotice_h2f t f _ h, fn_setFn_same]

theorem restartFn_reg {a : Nat} (ha : a % 4096 ≠ 0x028) : (s.restartFn f).reg a = s.reg a := by
  rw [restartFn_eq, foldl_keeps (State.reg · a) _ fun t h => restartNotice_reg t f _ h ha]
  rfl

theorem restartFns_fn_other {l : List (Nat × Fn)} (h : ∀ e ∈ l, e.1 ≠ g) : (l.foldl (fun t e => t.restartFn e.1) s).fn g = s.fn g := by
  induction l generalizing s with
  | nil => rfl
  | cons e l ih =>
    rw [List.foldl_cons, ih _ fun e' he' => h e' (List.mem_cons_of_mem _ he'), restartFn_fn_other _ _ _ (h e List.mem_cons_self)]

/-- A function that held no notice, or that the restart reaches, holds none. -/
theorem restartFns_h2f {l : List (Nat × Fn)} (h : (s.fn g).h2f = [] ∨ ∃ e ∈ l, e.1 = g) :
    ((l.foldl (fun t e => t.restartFn e.1) s).fn g).h2f = [] := by
  induction l generalizing s with
  | nil => exact h.resolve_right fun ⟨_, he, _⟩ => List.not_mem_nil he
  | cons e l ih =>
    refine ih _ ?_
    by_cases heg : e.1 = g
    · exact Or.inl (heg ▸ restartFn_h2f s e.1)
    · rw [restartFn_fn_other _ _ _ heg]
      refine h.imp_right fun ⟨e', he', hg⟩ => ⟨e', (List.mem_cons.mp he').resolve_left fun hee => heg (hee ▸ hg), hg⟩

/-- The functions of a port that the directory lists. -/
def State.portFns (s : State) (die : Nat) : List (Nat × Fn) := s.fns.filter (fun e => decide (fnDie e.1 = die))

/-- A function of the port is listed, or blank. -/
theorem listed_or_blank (h : fnDie g = die) : (s.fn g).h2f = [] ∨ ∃ e ∈ s.portFns die, e.1 = g := by
  by_cases hm : g ∈ s.fns.map Prod.fst
  · obtain ⟨e, he, rfl⟩ := List.mem_map.mp hm
    exact Or.inr ⟨e, List.mem_filter.mpr ⟨he, decide_eq_true h⟩, rfl⟩
  · refine Or.inl ?_
    unfold State.fn SMap.get
    rw [find_none_of_not_mem hm]
    rfl

theorem firmwareRestart_eq : ∃ r : SMap Nat, s.firmwareRestart die = { (s.portFns die).foldl (fun t e => t.restartFn e.1)
    (s.setFld (Blk.mbx.at die die 0x008) 0 0 0) with restarted := r } := ⟨_, rfl⟩

theorem firmwareRestart_frees : ∃ t : State, s.firmwareRestart die = t ∧ t.mbxReady die = false ∧
    (∀ f : Nat, fnDie f = die → (t.fn f).h2f = []) ∧ (∀ f : Nat, fnDie f ≠ die → t.fn f = s.fn f) ∧ sameMem s t := by
  obtain ⟨r, heq⟩ := firmwareRestart_eq s die
  refine ⟨_, heq, ?notReady, fun f hf => ?freed, fun f hf => ?others, ?mem⟩
  case notReady =>
    have hreg : (((s.portFns die).foldl (fun t e => t.restartFn e.1) (s.setFld (Blk.mbx.at die die 0x008) 0 0 0))).reg
        (Blk.mbx.at die die 0x008) = (s.setFld (Blk.mbx.at die die 0x008) 0 0 0).reg (Blk.mbx.at die die 0x008) :=
      foldl_keeps (State.reg · (Blk.mbx.at die die 0x008)) _
        (fun (t : State) (e : Nat × Fn) => restartFn_reg t e.1 (by rw [at_mod _ _ _ (by decide)]; decide)) _ _
    exact (congrArg (fun w => decide (fieldW w 0 0 = 1)) hreg).trans (rbit_setFld_same _ _ _ (by decide) _)
  case freed => exact restartFns_h2f _ _ (listed_or_blank s f die hf)
  case others =>
    refine restartFns_fn_other (s.setFld (Blk.mbx.at die die 0x008) 0 0 0) f fun e he hef => hf ?_
    exact hef ▸ of_decide_eq_true (List.mem_filter.mp he).2
  case mem => exact (NotesOnly.foldl (fun (t : State) (e : Nat × Fn) => restartFn_notesOnly t e.1) _ ((NotesOnly.refl s).setFld ..)).sameMem

end

/-! ### A write of `ready` (R677) -/

section
variable {who : Requester} {die : Nat} {v : Word} {s : State} (hdie : die = 4 ∨ die = 5)
  (hw : s.writable who (Blk.mbx.at die die 0x008) = true)
include hw

theorem execMbxReady_early (hboot : s.bootDone = false) : execMbxReady who die v s = .next s := by
  refine congrArg Host.Outcome.next ((gate_writable _ _ _ _ hw).trans (if_neg fun h => ?_))
  exact Bool.false_ne_true (hboot.symm.trans h.2)

include hdie

theorem execMbxReady_booted (hboot : s.bootDone = true) : execMbxReady who die v s =
    .next ((((s.writeAt who .mbx die die 0x008 v).announceRestart die).announceReset die).bootEnd) :=
  congrArg Host.Outcome.next ((gate_writable _ _ _ _ hw).trans (if_pos ⟨decide_eq_true hdie, hboot⟩))

end

/-! ### A read of F2H_STATUS (R663, R673) -/

section
variable {s : State} {fn : Nat} (hen : s.fnEnabled fn = true)
include hen

theorem execF2hStatus_mailbox (hq : (s.fn fn).cfg.getLsbD 8 = false) :
    execF2hStatus fn s = .next { s.setFn fn { s.fn fn with disarmed := [] } with readData := (s.fn fn).f2h.length } := by
  refine congrArg Host.Outcome.next ((if_pos hen).trans ?_)
  rw [if_neg (Bool.eq_false_iff.mp hq)]

theorem execF2hStatus_queue (hq : (s.fn fn).cfg.getLsbD 8 = true) :
    execF2hStatus fn s = .next { s with readData := (s.fn fn).f2h.length } := by
  refine congrArg Host.Outcome.next ((if_pos hen).trans ?_)
  rw [if_pos hq]

end

/-- A send is a write of MBX_SEND3, with or without a reply (R676). -/
theorem exec_mbxSend {who : Requester} {die : Nat} {v : Word} {c : Instr} {s : State} (hdie : die = 4 ∨ die = 5)
    (hw : s.writable who (Blk.mbx.at die die 0x12C) = true) (hc : c ∈ [Instr.mbxSendNotice who die v, .mbxSendReply who die v]) :
    exec c s = .next ((s.writeAt who .mbx die die 0x12C v).sendGo die) := by
  have hgate : s.gate who (mbx die 0x12C) (fun s => if isBellows die then (s.writeAt who .mbx die die 0x12C v).sendGo die else s) =
      (s.writeAt who .mbx die die 0x12C v).sendGo die := (gate_writable _ _ _ _ hw).trans (if_pos (decide_eq_true hdie))
  simp only [List.mem_cons, List.not_mem_nil, or_false] at hc
  rcases hc with rfl | rfl <;> exact congrArg Host.Outcome.next hgate

theorem writeAt_fn (s : State) (who : Requester) (b : Blk) (die i off : Nat) (v : Word) (f : Nat) :
    (s.writeAt who b die i off v).fn f = s.fn f := congrArg (SMap.get Fn.blank · f) (writeAt_fns s who b die i off v)

/-- MBX_SEND_STATUS reads back what the send reports. -/
theorem sendStatus (t : State) (die c : Nat) (hc : c < 4) :
    (t.setFld (Blk.mbx.at die die 0x134) 1 0 c).fld (Blk.mbx.at die die 0x134) 1 0 = c :=
  (fld_setFld_same _ _ _ _ _ (by decide)).trans (Nat.mod_eq_of_lt hc)

/-! ### O46 -/

theorem execDoorbell_covers {fn off : Nat} {data : List Byte} {s : State} (hen : s.fnEnabled fn = true) (hoff : off ≤ 12)
    (hend : off + data.length = 16) : execDoorbell fn off data s = .next ((s.setFn fn { s.fn fn with
      stage := mergeBytes (s.fn fn).stage off data % 2 ^ 96 }).post fn (noticeOf (mergeBytes (s.fn fn).stage off data))) := by
  refine congrArg Host.Outcome.next (if_neg ?_)
  rw [hen]
  rintro (h | h | h)
  · exact Bool.noConfusion h
  · omega
  · exact h hend

/-- The function once the doorbell has taken the staged bytes (R655). -/
def State.staged (s : State) (fn off : Nat) (data : List Byte) : State :=
  s.setFn fn { s.fn fn with stage := mergeBytes (s.fn fn).stage off data % 2 ^ 96 }

section
variable {fn off : Nat} {data : List Byte} {s : State} (hen : s.fnEnabled fn = true) (hoff : off ≤ 12) (hend : off + data.length = 16)

theorem staged_fn : (s.staged fn off data).fn fn = { s.fn fn with stage := mergeBytes (s.fn fn).stage off data % 2 ^ 96 } :=
  fn_setFn_same ..

theorem staged_mem : (s.staged fn off data).mem = s.mem := rfl

include hen hoff hend

theorem doorbell_posts (hfree : ¬((s.fn fn).freeSlots = [] ∨ s.mbxReady (fnDie fn) = false ∨ (s.fn fn).flr = true)) :
    ∃ (t : State) (slot : Nat), exec (.doorbell fn off data) s = .next t ∧ slot < 64 ∧ (∀ h ∈ (s.fn fn).h2f, h.slot ≠ slot) ∧
      t.fn fn = { s.fn fn with
        stage := mergeBytes (s.fn fn).stage off data % 2 ^ 96
        h2f := (s.fn fn).h2f ++ [{ slot := slot, note := noticeOf (mergeBytes (s.fn fn).stage off data) }] } ∧
      t.rbit (Blk.mbx.at (fnDie fn) (fnDie fn) 0x010) 0 = true ∧ sameMem s t := by
  obtain ⟨slot, hslot, hpost⟩ := post_posted (s := s.staged fn off data) (f := fn)
    (n := noticeOf (mergeBytes (s.fn fn).stage off data)) (by rw [staged_fn]; exact hfree)
  rw [staged_fn] at hslot hpost
  obtain ⟨hlt, hunused⟩ := mem_freeSlots hslot
  refine ⟨_, slot, (execDoorbell_covers hen hoff hend).trans (congrArg Host.Outcome.next hpost), hlt, hunused, ?fn, ?int, ?mem⟩
  case fn => exact (raise_fn ..).trans (fn_setFn_same ..)
  case int => exact rbit_raise_at _ .mbx _ _ (by decide)
  case mem => exact sameMem_of_mem (staged_mem (fn := fn) (off := off) (data := data) (s := s))

theorem doorbell_drops (hdrop : (s.fn fn).freeSlots = [] ∨ s.mbxReady (fnDie fn) = false ∨ (s.fn fn).flr = true) :
    ∃ t : State, exec (.doorbell fn off data) s = .next t ∧ (t.fn fn).h2f = (s.fn fn).h2f ∧ (t.fn fn).int.getLsbD 0 = true ∧
      t.count (Blk.mbx.at (fnDie fn) (fnDie fn) 0x040) = min (s.count (Blk.mbx.at (fnDie fn) (fnDie fn) 0x040) + 1) (2 ^ 48 - 1) ∧
      t.rbit (Blk.mbx.at (fnDie fn) (fnDie fn) 0x010) 1 = true ∧ sameMem s t := by
  have hpost := post_dropped (s := s.staged fn off data) (f := fn)
    (n := noticeOf (mergeBytes (s.fn fn).stage off data)) (by rw [staged_fn]; exact hdrop)
  rw [staged_fn] at hpost
  refine ⟨_, (execDoorbell_covers hen hoff hend).trans (congrArg Host.Outcome.next hpost), ?h2f, ?intFn, ?count, ?int, ?mem⟩
  case h2f => rw [raise_fn, setFn_cntAdd_fn]
  case intFn =>
    rw [raise_fn, setFn_cntAdd_fn, BitVec.getLsbD_or]
    exact Bool.or_true _
  case count => exact count_cntAdd_same ..
  case int => exact rbit_raise_at _ .mbx _ _ (by decide)
  case mem => exact ((((NotesOnly.refl s).setFn ..).setFn ..).cntAdd ..).sameMem

end

/-- Settles O46: each command is one move of notices, and each move has its own lemma above. -/
theorem mailboxes : Obligations.Mailboxes := by
  unfold Obligations.Mailboxes
  refine ⟨fun fn off data s hen => ⟨?stage, fun hoff hend => ⟨?posted, ?dropped⟩⟩,
    fun die s hdie hreset => ⟨?takeNone, fun f h hnext hnotice => ⟨?takeBad, ?takeGood⟩⟩,
    fun who die v c s hdie hw hc => ⟨?send, ?sendNotice, ?sendReply⟩,
    fun fn v s => ⟨?takeEmpty, fun n ns h => ⟨?f2hTake, ?cqWrite, ?cqRefused, ?discard⟩,
      fun hen => ⟨?cqHead, ?statusMailbox, ?statusQueue⟩⟩,
    fun who die v s hdie hw => ⟨?readyEarly, ?ready⟩, fun die s => ⟨?popA, ?popB, ?restart⟩⟩
  case stage => exact fun h => congrArg Host.Outcome.next (if_pos ⟨hen, h⟩)
  case posted => exact doorbell_posts hen hoff hend
  case dropped => exact doorbell_drops hen hoff hend
  case takeNone =>
    exact fun bad hnone => next_of_bellows hdie (take_none bad hreset hnone)
  case takeBad => exact next_of_bellows hdie (take_bad hreset hnext hnotice)
  case takeGood =>
    obtain ⟨t, ht, hleft⟩ := take_good hreset hnext hnotice
    exact ⟨t, next_of_bellows hdie ht, hleft⟩
  case takeEmpty => exact fun bad => execF2hTake_empty bad
  case f2hTake => exact fun hq => ⟨execF2hTake_bad hq, execF2hTake_good hq h⟩
  case cqWrite => exact fun hq hw hroom => ⟨execCqWrite_bad hq hw hroom h, execCqWrite_good hq hw hroom h⟩
  case cqRefused => exact execCqWrite_refused h
  case discard => exact ⟨_, rfl, discardF2h_length s fn, (discardF2h_notesOnly s fn).sameMem⟩
  case cqHead => exact congrArg Host.Outcome.next (if_pos hen)
  case popA => rfl
  case popB => rfl
  case restart =>
    intro hdie
    obtain ⟨t, ht, hleft⟩ := firmwareRestart_frees s die
    refine ⟨t, (congrArg Host.Outcome.next (if_neg ?_)).trans (congrArg Host.Outcome.next ht), hleft⟩
    exact ne_false_of_eq_true (decide_eq_true hdie)
  case send => exact exec_mbxSend hdie hw hc
  case sendNotice =>
    intro hnotice hen hflr
    rw [← writeAt_fn s who .mbx die die 0x12C v] at hflr
    refine ⟨fun hroom => ?room, fun hroom => ?full⟩
    case room =>
      rw [sendGo_notice hnotice hen hflr hroom]
      exact ⟨sendStatus _ _ _ (by decide), (f2hPush_f2h ..).trans (by rw [writeAt_fn])⟩
    case full =>
      rw [sendGo_full hnotice hen hflr hroom]
      exact ⟨sendStatus _ _ _ (by decide), writeAt_fns ..⟩
  case sendReply =>
    intro hreply
    refine ⟨fun hnone => ?unknown, fun h hfind hen hflr hdoomed => ?known⟩
    case unknown =>
      rw [← writeAt_fn s who .mbx die die 0x12C v] at hnone
      rw [sendGo_unknown hreply hnone]
      exact ⟨sendStatus _ _ _ (by decide), writeAt_fns ..⟩
    case known =>
      rw [← writeAt_fn s who .mbx die die 0x12C v] at hfind hflr
      rw [sendGo_reply hreply hfind hen hflr hdoomed]
      refine ⟨sendStatus _ _ _ (by decide), ?queued, ?slotFree⟩
      case queued =>
        refine (f2hPush_f2h ..).trans ?_
        rw [fn_freeReplied, writeAt_fn]
      case slotFree => exact fun g hg => slot_freeReplied_push hg
  case statusMailbox => exact execF2hStatus_mailbox hen
  case statusQueue => exact execF2hStatus_queue hen
  case readyEarly => exact execMbxReady_early hw
  case ready => exact execMbxReady_booted hdie hw

end Sys2Proof.Machine

/-! PROOFS. Self-test and JTAG (R778, R845 to R859). -/
namespace Sys2Proof.Machine
open Sys2Proof.Laws

/-- The run's source is in BIST_STATUS (R859). -/
theorem bistStart_source (s : State) (die scope k p src : Nat) :
    (s.bistStart die scope k p src).fld (Blk.bist.at die die 0x00C) 1 0 = src % 4 := fld_setFld_same _ _ _ _ _ (by decide)

/-- The word of BIST_CTRL that starts a run of the whole die with 2^10 patterns (R850). -/
def bistWholeDie : Word := 0x8000000A

/-- After reset the instruments are open, and a run that one of them starts on bellows-A reports source 2. -/
theorem bistGo_jtag : exec (.bistGo .jtag 4 bistWholeDie) State.reset =
    .next ((State.reset.writeAt .jtag .bist 4 4 0x008 bistWholeDie).bistStart 4 0 0 10 2) := by
  have hw : State.reset.writable .jtag (Blk.bist.at 4 4 0x008) = true := by decide +kernel
  have hrefused : ¬(State.reset.bistBusy 4 = true ∨ State.reset.bistRefused 4 0 0 10 = true) := by decide +kernel
  exact congrArg Host.Outcome.next ((gate_writable _ _ _ _ hw).trans ((if_neg (by decide)).trans ((if_neg (by decide)).trans (if_neg hrefused))))

/-- Refutes O58: a run that a JTAG instrument starts has source 2 in BIST_STATUS (R859), not 0. The counterexample is the state
after reset, with a start of the whole of bellows-A. -/
theorem not_selfTestAndJtag : ¬Obligations.SelfTestAndJtag := by
  unfold Obligations.SelfTestAndJtag
  rintro ⟨hgo, -⟩
  obtain ⟨-, -, hstarts⟩ := hgo .jtag 4 bistWholeDie State.reset (by decide) (by decide +kernel)
  obtain ⟨t, ht, -, -, hsource, -⟩ := hstarts (by decide) (by decide +kernel)
  rw [← Host.Outcome.next.inj (bistGo_jtag.symm.trans ht), bistStart_source] at hsource
  exact absurd hsource (by decide)

end Sys2Proof.Machine

/-! PROOFS. The management bus (R835 to R844). -/
namespace Sys2Proof.Machine
open Sys2Proof.Laws

/-! ### Common commands (R835 to R838) -/

section
variable {s : State}

theorem not_isNone_addr (h : s.mgmt.addr ≠ none) : ¬s.mgmt.addr.isNone = true := mt Option.isNone_iff_eq_none.mp h

theorem isSome_addr (h : s.mgmt.addr ≠ none) : s.mgmt.addr.isSome = true := Option.isSome_iff_ne_none.mpr h

theorem not_isSome_addr (h : s.mgmt.addr = none) : ¬s.mgmt.addr.isSome = true := by simp [h]

/-- A directed command that reads a value reads it from a device that holds an address. -/
theorem ccc_addressed (h : s.mgmt.addr ≠ none) (v : Nat) : s.ccc v = { s with readData := v } := if_neg (not_isNone_addr h)

theorem execEntdaa_free {a : Nat} (haddr : s.mgmt.addr = none) (hleft : s.mgmt.left = false) (ha : a < 128) :
    execEntdaa a s = .next { s with mgmt := { s.mgmt with addr := some a, hjPend := false, hjWait := 0 } } := by
  refine congrArg Host.Outcome.next (if_neg ?_)
  rintro (h | h | h)
  · exact not_isSome_addr haddr h
  · exact Bool.false_ne_true (hleft.symm.trans h)
  · omega

theorem execSetnewda_addressed {a : Nat} (haddr : s.mgmt.addr ≠ none) (ha : a < 128) :
    execSetnewda a s = .next { s with mgmt := { s.mgmt with addr := some a } } := by
  refine congrArg Host.Outcome.next (if_neg ?_)
  rintro (h | h)
  · exact not_isNone_addr haddr h
  · omega

/-- A length from 64 to 2^16 - 1 is taken. -/
theorem length_taken {n : Nat} (haddr : s.mgmt.addr ≠ none) (h1 : 64 ≤ n) (h2 : n < 2 ^ 16) :
    ¬(s.mgmt.addr.isNone ∨ n < 64 ∨ 2 ^ 16 ≤ n) := by
  rintro (h | h | h)
  · exact not_isNone_addr haddr h
  · omega
  · omega

theorem execHotJoin_open (acked : Bool) (haddr : s.mgmt.addr = none) (hleft : s.mgmt.left = false) (hon : s.mgmt.hjOn = true) :
    execHotJoin acked s = .next ((s.setMgmt { s.mgmt with
      hjPend := !acked, hjWait := if acked then 0 else if s.mgmt.hjWait = 0 then 1 else min (2 * s.mgmt.hjWait) 64 }).cntAdd
        .mgmt 4 4 0x048 1) := by
  refine congrArg Host.Outcome.next (if_neg ?_)
  rintro (h | h | h)
  · exact not_isSome_addr haddr h
  · exact Bool.false_ne_true (hleft.symm.trans h)
  · exact Bool.false_ne_true (h.symm.trans hon)

end

/-! ### Frames (R839 to R842) -/

section
variable {s : State} {tag n size : Nat} {p : List Byte} {rsvd : Bool} {k : State → Nat × List Byte × (State → State)}
  (haddr : s.mgmt.addr ≠ none)
include haddr

theorem mgmtCmd_wrongSize (h : n ≠ size) : s.mgmtCmd tag n size p rsvd k = s.mgmtReply 3 tag [] :=
  (if_neg (not_isNone_addr haddr)).trans (if_pos (Or.inl h))

/-- A frame of its command's size is answered as the command says. -/
theorem mgmtCmd_answered (r : Nat × List Byte × (State → State)) (hn : n = size) (hp : p.length = size) (hr : rsvd = false)
    (hk : k s = r) : s.mgmtCmd tag n size p rsvd k = r.2.2 (s.mgmtReply r.1 tag r.2.1) := by
  have hok : ¬(n ≠ size ∨ p.length ≠ size ∨ rsvd = true) := by
    rintro (h | h | h)
    · exact h hn
    · exact h hp
    · exact Bool.false_ne_true (hr.symm.trans h)
  refine (if_neg (not_isNone_addr haddr)).trans ((if_neg hok).trans ?_)
  rw [hk]

theorem exec_wrongSize (row : Nat × Instr) (hrow : row ∈ [(0, Instr.ident tag n p), (0, .telem tag n p), (0, .wake tag n p),
      (4, .bistStart tag n p), (1, .bistResult tag n p), (3, .reset tag n p), (0, .leave tag n p)]) (hn : n ≠ row.1) :
    exec row.2 s = .next (s.mgmtReply 3 tag []) := by
  simp only [List.mem_cons, List.not_mem_nil, or_false] at hrow
  rcases hrow with rfl | rfl | rfl | rfl | rfl | rfl | rfl <;>
    exact congrArg Host.Outcome.next (mgmtCmd_wrongSize haddr hn)

end

/-- The telemetry record holds 48 bytes (R843). -/
theorem length_telem (s : State) : s.telem.length = 48 := by
  unfold State.telem
  dsimp only
  split <;> simp only [List.length_append, length_leBytes]

section
variable {s : State} {tag : Nat} {p : List Byte} (haddr : s.mgmt.addr ≠ none)
include haddr

/-- IDENT answers 32 bytes, and the serial number is in the first eight (R841). -/
theorem execIdent_answers : ∃ out : List Byte, execIdent tag 0 [] s = .next (s.mgmtReply 0 tag out) ∧ out.length = 32 ∧
    leOf (out.take 8) = s.sec.serial % 2 ^ 64 := by
  refine ⟨_, congrArg Host.Outcome.next (mgmtCmd_answered haddr (0, _, id) rfl rfl rfl rfl), ?length, ?serial⟩
  case length => simp only [List.length_append, length_leBytes]
  case serial =>
    simp only [List.append_assoc]
    rw [take_leBytes_append, leOf_leBytes]
    rfl

theorem execWake_answers : execWake tag 0 [] s =
    .next (if s.pwr.state = .on then s.mgmtReply 4 tag [] else (s.mgmtReply 0 tag []).wake) := by
  refine congrArg Host.Outcome.next ?_
  split
  case isTrue hon => exact mgmtCmd_answered haddr (4, [], id) rfl rfl rfl (if_pos hon)
  case isFalse hon => exact mgmtCmd_answered haddr (0, [], State.wake) rfl rfl rfl (if_neg hon)

section
variable (hlen : p.length = 3)
include hlen

theorem execReset_off (hon : ¬s.pwr.state = .on) : execReset tag 3 p s = .next (s.mgmtReply 4 tag []) :=
  congrArg Host.Outcome.next (mgmtCmd_answered haddr (4, [], id) rfl hlen rfl (if_pos hon))

variable (hon : s.pwr.state = .on)
include hon

theorem execReset_badKey (h : payFld p 0 2 ≠ 0xA5C3 ∨ (payFld p 2 1 ≠ 1 ∧ payFld p 2 1 ≠ 2)) :
    execReset tag 3 p s = .next (s.mgmtReply 6 tag []) :=
  congrArg Host.Outcome.next (mgmtCmd_answered haddr (6, [], id) rfl hlen rfl ((if_neg (not_not_intro hon)).trans (if_pos h)))

theorem execReset_resets (hkey : payFld p 0 2 = 0xA5C3) (hkind : payFld p 2 1 = 1 ∨ payFld p 2 1 = 2) :
    execReset tag 3 p s = .next ((s.mgmtReply 0 tag []).doReset (if payFld p 2 1 = 1 then .warm else .device) 2) := by
  have hok : ¬(payFld p 0 2 ≠ 0xA5C3 ∨ (payFld p 2 1 ≠ 1 ∧ payFld p 2 1 ≠ 2)) := by
    rintro (h | ⟨h1, h2⟩)
    · exact h hkey
    · exact hkind.elim h1 h2
  exact congrArg Host.Outcome.next
    (mgmtCmd_answered haddr (0, [], fun t => t.doReset (if payFld p 2 1 = 1 then .warm else .device) 2) rfl hlen rfl
      ((if_neg (not_not_intro hon)).trans (if_neg hok)))

end

section
variable (hlen : p.length = 4) (hscope : payFld p 1 1 < 4)
include hlen hscope

theorem execBistStart_off (hon : ¬s.pwr.state = .on) : execBistStart tag 4 p s = .next (s.mgmtReply 4 tag []) :=
  congrArg Host.Outcome.next (mgmtCmd_answered haddr (4, [], id) rfl hlen (decide_eq_false (Nat.not_le.mpr hscope)) (if_pos hon))

variable (hon : s.pwr.state = .on)
include hon

theorem execBistStart_busy (hbusy : s.bistBusy (payFld p 0 1) = true) : execBistStart tag 4 p s = .next (s.mgmtReply 5 tag []) :=
  congrArg Host.Outcome.next (mgmtCmd_answered haddr (5, [], id) rfl hlen (decide_eq_false (Nat.not_le.mpr hscope))
    ((if_neg (not_not_intro hon)).trans (if_pos hbusy)))

theorem execBistStart_idle (hbusy : s.bistBusy (payFld p 0 1) = false) : execBistStart tag 4 p s =
    .next (if s.bistRefused (payFld p 0 1) (payFld p 1 1) (payFld p 2 1) (payFld p 3 1) = true then s.mgmtReply 6 tag []
      else (s.mgmtReply 0 tag []).bistStart (payFld p 0 1) (payFld p 1 1) (payFld p 2 1) (payFld p 3 1) 1) := by
  refine congrArg Host.Outcome.next ?_
  have hnot := Bool.eq_false_iff.mp hbusy
  split
  case isTrue h =>
    exact mgmtCmd_answered haddr (6, [], id) rfl hlen (decide_eq_false (Nat.not_le.mpr hscope))
      ((if_neg (not_not_intro hon)).trans ((if_neg hnot).trans (if_pos h)))
  case isFalse h =>
    exact mgmtCmd_answered haddr (0, [], fun t => t.bistStart (payFld p 0 1) (payFld p 1 1) (payFld p 2 1) (payFld p 3 1) 1) rfl hlen
      (decide_eq_false (Nat.not_le.mpr hscope)) ((if_neg (not_not_intro hon)).trans ((if_neg hnot).trans (if_neg h)))

end

/-- BIST_RESULT answers 32 bytes (R841). -/
theorem execBistResult_answers (hlen : p.length = 1) (hdie : payFld p 0 1 < 8) :
    ∃ out : List Byte, execBistResult tag 1 p s = .next (s.mgmtReply 0 tag out) ∧ out.length = 32 := by
  refine ⟨_, congrArg Host.Outcome.next (mgmtCmd_answered haddr (0, _, id) rfl hlen (decide_eq_false (Nat.not_le.mpr hdie)) rfl), ?_⟩
  split <;> simp only [List.length_append, length_leBytes]

end

section
variable {s : State} {frame : List Byte} (haddr : s.mgmt.addr ≠ none) (hlen : 5 ≤ frame.length)
include haddr hlen

theorem frame_read : ¬(s.mgmt.addr.isNone ∨ frame.length < 5) := by
  rintro (h | h)
  · exact not_isNone_addr haddr h
  · omega

theorem execMgmtUnknownCommand_badCrc (h : ¬crc8 frame.dropLast = leOf (frame.drop (frame.length - 1))) :
    execMgmtUnknownCommand frame s = .next ((s.mgmtReply 1 (payFld frame 1 1) []).cntAdd .mgmt 4 4 0x038 1) :=
  congrArg Host.Outcome.next ((if_neg (frame_read haddr hlen)).trans (if_pos h))

theorem execMgmtUnknownCommand_unknown (h : crc8 frame.dropLast = leOf (frame.drop (frame.length - 1)))
    (hcmd : payFld frame 0 1 = 0 ∨ 7 < payFld frame 0 1) :
    execMgmtUnknownCommand frame s = .next (s.mgmtReply 2 (payFld frame 1 1) []) :=
  congrArg Host.Outcome.next ((if_neg (frame_read haddr hlen)).trans ((if_neg (not_not_intro h)).trans (if_pos hcmd)))

end

/-! ### Replies and events (R837, R840, R844) -/

section
variable {s : State}

theorem execMgmtReplyRead_reply {r : List Byte} (haddr : s.mgmt.addr ≠ none) (hr : s.mgmt.reply = some r) :
    execMgmtReplyRead s = .next { s with
      readData := leOf r
      mgmt := if s.mgmt.leaving then { s.mgmt with reply := none, leaving := false, left := true, addr := none }
        else { s.mgmt with reply := none } } := by
  obtain ⟨a, ha⟩ := Option.ne_none_iff_exists'.mp haddr
  unfold execMgmtReplyRead
  simp only [ha, hr]

theorem execIbi_unsent : execIbi false s = .next s := by
  unfold execIbi
  refine congrArg Host.Outcome.next ?_
  split
  · rfl
  · exact if_pos (Or.inl rfl)

theorem execIbi_none (acked : Bool) (h : s.mgmt.ibi = []) : execIbi acked s = .next s := by
  unfold execIbi
  refine congrArg Host.Outcome.next ?_
  split
  case h_1 => rfl
  case h_2 c hc =>
    have := List.find?_some hc
    rw [h] at this
    exact Bool.noConfusion this

theorem execIbi_sent {c : Nat} (hc : [2, 3, 4, 1, 5, 6].find? (fun k => s.mgmt.ibi.contains k) = some c) (haddr : s.mgmt.addr ≠ none)
    (hon : s.mgmt.ibiOn = true) : execIbi true s = .next { (s.setMgmt { s.mgmt with
      ibi := s.mgmt.ibi.filter (fun x => decide (x ≠ c)) }).cntAdd .mgmt 4 4 0x040 1 with readData := c } := by
  have hsent : ¬(true = false ∨ s.mgmt.addr.isNone ∨ s.mgmt.ibiOn = false) := by
    rintro (h | h | h)
    · exact Bool.noConfusion h
    · exact not_isNone_addr haddr h
    · exact Bool.false_ne_true (h.symm.trans hon)
  unfold execIbi ibiOrder
  rw [hc]
  exact congrArg Host.Outcome.next (if_neg hsent)

end

/-- Settles O57: the common commands one by one, the frames by `mgmtCmd_answered`, and the events by their order. -/
theorem managementBus : Obligations.ManagementBus := by
  unfold Obligations.ManagementBus
  refine ⟨fun a n int hj acked s => ⟨execEntdaa_free, ?entdaaHeld, rfl, rfl, rfl, fun haddr => ⟨execSetnewda_addressed haddr,
      ?getpid, ?getbcr, ?getdcr, ?getmwl, ?getmrl, ?setLengths, ?shortLengths, ?getstatus, ?getmxds⟩, ?hotJoin⟩,
    fun tag n p s haddr => ⟨exec_wrongSize haddr, ?empty, ?reset, ?bistStart, ?bistResult⟩,
    fun frame s haddr hlen => ⟨execMgmtUnknownCommand_badCrc haddr hlen, execMgmtUnknownCommand_unknown haddr hlen⟩,
    fun r s haddr hr => ⟨_, execMgmtReplyRead_reply haddr hr, rfl, ?replyGone, ?leaving, ?staying⟩,
    fun acked s => ⟨execIbi_none acked, execIbi_unsent, fun c hc haddr hon => ⟨_, execIbi_sent hc haddr hon, rfl, ?event, ?eventCount⟩⟩⟩
  case entdaaHeld => exact fun haddr => congrArg Host.Outcome.next (if_pos (Or.inl (isSome_addr haddr)))
  case getpid => exact congrArg Host.Outcome.next (ccc_addressed haddr _)
  case getbcr => exact congrArg Host.Outcome.next (ccc_addressed haddr _)
  case getdcr => exact congrArg Host.Outcome.next (ccc_addressed haddr _)
  case getmwl => exact congrArg Host.Outcome.next (ccc_addressed haddr _)
  case getmrl => exact congrArg Host.Outcome.next (ccc_addressed haddr _)
  case setLengths =>
    exact fun h1 h2 => ⟨congrArg Host.Outcome.next (if_neg (length_taken haddr h1 h2)),
      congrArg Host.Outcome.next (if_neg (length_taken haddr h1 h2))⟩
  case shortLengths =>
    exact fun h => ⟨congrArg Host.Outcome.next (if_pos (Or.inr (Or.inl h))), congrArg Host.Outcome.next (if_pos (Or.inr (Or.inl h)))⟩
  case getstatus => exact congrArg Host.Outcome.next ((if_neg (not_isNone_addr haddr)).trans (ccc_addressed (s := (s.free 16).2) haddr _))
  case getmxds => exact congrArg Host.Outcome.next ((if_neg (not_isNone_addr haddr)).trans (ccc_addressed (s := (s.free 16).2) haddr _))
  case hotJoin =>
    intro haddr hleft hon
    refine ⟨_, execHotJoin_open acked haddr hleft hon, ?_, ?_, count_cntAdd_same ..⟩
    all_goals rw [cntAdd_mgmt]; rfl
  case empty =>
    rintro rfl rfl
    refine ⟨?telem, length_telem s, execIdent_answers haddr, execWake_answers haddr, ?leave⟩
    case telem => exact congrArg Host.Outcome.next (mgmtCmd_answered haddr (0, s.telem, id) rfl rfl rfl rfl)
    case leave =>
      exact congrArg Host.Outcome.next
        (mgmtCmd_answered haddr (0, [], fun t => t.setMgmt { t.mgmt with leaving := true }) rfl rfl rfl rfl)
  case reset =>
    rintro rfl hlen
    refine ⟨execReset_off haddr hlen, execReset_badKey haddr hlen, fun hon hkey hkind => ?warm, fun hon hkey hkind => ?device⟩
    case warm =>
      have h := execReset_resets (tag := tag) haddr hlen hon hkey (Or.inl hkind)
      rwa [if_pos hkind] at h
    case device =>
      have h := execReset_resets (tag := tag) haddr hlen hon hkey (Or.inr hkind)
      rwa [if_neg (by rw [hkind]; decide)] at h
  case bistStart =>
    rintro rfl hlen hscope
    exact ⟨execBistStart_off haddr hlen hscope, execBistStart_busy haddr hlen hscope, execBistStart_idle haddr hlen hscope⟩
  case bistResult =>
    rintro rfl
    exact execBistResult_answers haddr
  case replyGone =>
    dsimp only
    split <;> rfl
  case leaving =>
    intro hl
    dsimp only
    rw [if_pos hl]
    exact ⟨rfl, rfl⟩
  case staying =>
    intro hl
    dsimp only
    rw [if_neg (Bool.eq_false_iff.mp hl)]
  case event =>
    exact congrArg Mgmt.ibi (cntAdd_mgmt ..)
  case eventCount => exact count_cntAdd_same ..

end Sys2Proof.Machine

/-! PROOFS. Ageing, clocks, the power cap and heat (R749 to R753, R799, R807 to R810, R814). -/
namespace Sys2Proof.Machine
open Sys2Proof.Laws

/-! ### An in-band interrupt (R844) -/

section
variable (s : State) (code : Nat)

/-- An event leaves its mark in the management target alone. -/
theorem ibi_frame : { s.ibi code with mgmt := s.mgmt } = s := by
  unfold State.ibi
  split <;> rfl

theorem ibi_regs : (s.ibi code).regs = s.regs := by
  unfold State.ibi
  split <;> rfl

@[simp] theorem ibi_reg (a : Nat) : (s.ibi code).reg a = s.reg a := congrArg (SMap.get _ · a) (ibi_regs s code)

end

/-! ### Measurements and alarms (R749, R752) -/

section
variable {s : State} {die m : Nat} {ds : List Nat}

theorem execEmbMeasure_due (hdie : die < 8) (h : s.breath.number ≠ 0 ∧ s.breath.number % 2 ^ 20 = 0 ∧
      s.rbit (Blk.emb.at die die 0x008) 0 = true) : execEmbMeasure die ds s = .next (s.measure die ds) := by
  obtain ⟨hn, hdue, hon⟩ := h
  refine congrArg Host.Outcome.next (if_neg ?_)
  rintro (h | h | h | h)
  · omega
  · exact hn h
  · exact h hdue
  · exact Bool.false_ne_true (h.symm.trans hon)

theorem execEmbMeasure_notDue (h : ¬(s.breath.number ≠ 0 ∧ s.breath.number % 2 ^ 20 = 0 ∧
      s.rbit (Blk.emb.at die die 0x008) 0 = true)) : execEmbMeasure die ds s = .next s := by
  refine congrArg Host.Outcome.next (if_pos ?_)
  by_contra hne
  simp only [not_or] at hne
  obtain ⟨-, hn, hdue, hon⟩ := hne
  exact h ⟨hn, not_not.mp hdue, Bool.not_eq_false _ ▸ hon⟩

theorem execMeasureNow_writable {who : Requester} {v : Word} (hdie : die < 8)
    (hw : s.writable who (Blk.emb.at die die 0x008) = true) : execMeasureNow who die v ds s =
      .next (if v.getLsbD 1 = true then (s.writeAt who .emb die die 0x008 v).measure die ds else s.writeAt who .emb die die 0x008 v) :=
  congrArg Host.Outcome.next ((gate_writable _ _ _ _ hw).trans (if_neg (Nat.not_le.mpr hdie)))

/-- An alarm, once it is counted and raised (R752). -/
def State.alarmed (s : State) (die : Nat) : State := (s.cntAdd .emb die die 0x038 1).raise (Blk.emb.at die die 0) 1

theorem alarmed_pwr : (s.alarmed die).pwr = s.pwr := cntAdd_pwr ..

/-- The record of an alarm: a chanter's names the consort, and the action lowers it. -/
def alarmRec (die m : Nat) : FaultRec :=
  { breath := 0, die := die, kind := 0x0C, consort := if die < 4 then m / 8 else 0xFF, action := if die < 4 then 7 else 0, detail := m }

theorem alarmRec_chanter (h : die < 4) : alarmRec die m =
    { breath := 0, die := die, kind := 0x0C, consort := m / 8, action := 7, detail := m } := by
  unfold alarmRec
  rw [if_pos h, if_pos h]

theorem alarmRec_hub (h : ¬die < 4) : alarmRec die m =
    { breath := 0, die := die, kind := 0x0C, consort := 0xFF, action := 0, detail := m } := by
  unfold alarmRec
  rw [if_neg h, if_neg h]

theorem execMonitorAlarm_chanter (hm : m < 64) (hdie : die < 4) (hlower : s.pwr.lower.contains (8 * die + m / 8) = false) :
    execMonitorAlarm die m ds s = .next ((({ s.alarmed die with
      pwr := { (s.alarmed die).pwr with lower := (s.alarmed die).pwr.lower ++ [8 * die + m / 8] } } : State).faultPost
        { breath := 0, die := die, kind := 0x0C, consort := m / 8, action := 7, detail := m }).measure die ds) := by
  have hnew : die < 4 ∧ (s.alarmed die).pwr.lower.contains (8 * die + m / 8) = false := ⟨hdie, by rw [alarmed_pwr]; exact hlower⟩
  refine congrArg Host.Outcome.next ((if_neg (by omega)).trans ?_)
  exact congrArg (State.measure · die ds) (congrArg₂ State.faultPost (if_pos hnew) (alarmRec_chanter hdie))

theorem execMonitorAlarm_hub (hdie : die < 8) (hm : m < 64) (hhub : 4 ≤ die) :
    execMonitorAlarm die m ds s = .next (((s.alarmed die).faultPost
      { breath := 0, die := die, kind := 0x0C, consort := 0xFF, action := 0, detail := m }).measure die ds) := by
  have hno : ¬die < 4 := Nat.not_lt.mpr hhub
  refine congrArg Host.Outcome.next ((if_neg (by omega)).trans ?_)
  exact congrArg (State.measure · die ds) (congrArg₂ State.faultPost (if_neg fun h => hno h.1) (alarmRec_hub hno))

end

/-! ### Regulators (R799, R901) -/

section
variable {s : State} {c : Nat}

theorem execAvsAck_acked (h : s.pwr.acked.contains c = true) : execAvsAck c s = .next s :=
  congrArg Host.Outcome.next (if_pos (Or.inr h))

theorem execAvsTimeout_acked (h : s.pwr.acked.contains c = true) : execAvsTimeout c s = .next s :=
  congrArg Host.Outcome.next (if_pos (Or.inr h))

variable (hc : c < 4) (h : s.pwr.acked.contains c = false)
include hc h

theorem not_acked : ¬(4 ≤ c ∨ s.pwr.acked.contains c = true) := by
  rintro (hc' | h')
  · omega
  · exact Bool.false_ne_true (h.symm.trans h')

theorem execAvsAck_new : execAvsAck c s = .next { s with pwr := { s.pwr with acked := s.pwr.acked ++ [c] } } :=
  congrArg Host.Outcome.next (if_neg (not_acked hc h))

/-- Without an acknowledgement no clock of the chanter waits to rise (R901). -/
theorem execAvsTimeout_new : ∃ t : State, execAvsTimeout c s = .next t ∧ { t with pwr := s.pwr } = s ∧
    { t.pwr with raise := s.pwr.raise } = s.pwr ∧
      ∀ e ∈ t.pwr.raise, e.1 / 8 = c → ∀ p : Nat × Nat, e.2 = some p → p.1 ≤ (s.oppOf c (e.1 % 8)).1 := by
  refine ⟨_, congrArg Host.Outcome.next (if_neg (not_acked hc h)), rfl, rfl, fun e he hec p hp => ?_⟩
  have hkept := (List.mem_filter.mp he).2
  rw [hp] at hkept
  exact (Bool.or_eq_true_iff.mp hkept).elim (fun hne => absurd hec (of_decide_eq_true hne)) of_decide_eq_true

end

/-! ### The ceiling (R808) -/

section
variable {s : State}

theorem execCapRaise_held (h : s.pwr.below < 8 ∨ s.pwr.hubHot = true) : execCapRaise s = .next s :=
  congrArg Host.Outcome.next (if_pos h)

theorem execCapRaise_raised (hbelow : 8 ≤ s.pwr.below) (hhub : s.pwr.hubHot = false) : ∃ t : State, execCapRaise s = .next t ∧
    t.cCap = min (s.cCap + 1) 12 ∧ sameRegsBut [Blk.pwr.at 4 4 0x108] s t ∧ t.pwr = { s.pwr with below := 7 } := by
  have hgo : ¬(s.pwr.below < 8 ∨ s.pwr.hubHot = true) := by
    rw [hhub]
    rintro (h | h)
    · omega
    · exact Bool.noConfusion h
  refine ⟨_, congrArg Host.Outcome.next (if_neg hgo), ?cap, fun a ha => ?regs, rfl⟩
  case cap => exact (fld_setFld_same _ _ _ _ _ (by decide)).trans (Nat.mod_eq_of_lt (by omega))
  case regs => exact (reg_setFld ..).trans (if_neg fun h => ha (List.mem_singleton.mpr h.symm))

end

/-! ### The throttle (R810) -/

/-- PWR_STATUS of a die shows the throttle and the junction's temperature. -/
def State.markHot (s : State) (die tj : Nat) : State := (s.setFld (pwrA die 0x108) 8 8 1).setFld (pwrA die 0x108) 31 24 (min tj 255)

section
variable (s : State) (die tj : Nat)

theorem reg_markHot_other {a : Nat} (h : pwrA die 0x108 ≠ a) : (s.markHot die tj).reg a = s.reg a :=
  (reg_setFld ..).trans ((if_neg h).trans ((reg_setFld ..).trans (if_neg h)))

/-- PWR_STATUS of a die says that its junction throttles, at the temperature given. -/
def State.showsHot (s : State) (die tj : Nat) : Prop :=
  s.rbit (Blk.pwr.at die die 0x108) 8 = true ∧ s.fld (Blk.pwr.at die die 0x108) 31 24 = min tj 255

theorem showsHot_of_reg {s t : State} {die tj : Nat} (h : t.reg (Blk.pwr.at die die 0x108) = s.reg (Blk.pwr.at die die 0x108))
    (hs : s.showsHot die tj) : t.showsHot die tj := by
  unfold State.showsHot State.rbit State.fld at hs ⊢
  rwa [h]

theorem markHot_showsHot : (s.markHot die tj).showsHot die tj := by
  refine ⟨?throttled, (fld_setFld_same _ _ _ _ _ (by decide)).trans (Nat.mod_eq_of_lt (by omega))⟩
  refine (congrArg (fun k => decide (k = 1)) (fld_setFld_other _ _ _ _ _ _ _ (by decide))).trans ?_
  exact rbit_setFld_same _ _ _ (by decide) 1

/-- The die's own mark outlives that of bellows-A. -/
theorem markHot_top_showsHot (hdie : die < 8) : ((s.markHot die tj).markHot 4 tj).showsHot die tj := by
  by_cases h4 : die = 4
  · subst h4
    exact markHot_showsHot ..
  · have hne : ∀ d < 8, d ≠ 4 → pwrA 4 0x108 ≠ Blk.pwr.at d d 0x108 := by decide
    exact showsHot_of_reg (reg_markHot_other _ _ _ (hne die hdie h4)) (markHot_showsHot ..)

/-- A throttle, once it is shown, counted, raised and told. -/
def State.throttled (s : State) (die tj : Nat) : State :=
  ((((s.markHot die tj).markHot 4 tj).cntAdd .pwr die die 0x038 1).raise (Blk.pwr.at die die 0) 1).ibi 4

theorem throttled_reg : (s.throttled die tj).reg (Blk.pwr.at die die 0x108) =
    ((s.markHot die tj).markHot 4 tj).reg (Blk.pwr.at die die 0x108) :=
  (ibi_reg ..).trans (reg_raise_cntAdd _ .pwr _ _ _ _ (by decide) (by decide) (by decide))

theorem throttled_showsHot (hdie : die < 8) : (s.throttled die tj).showsHot die tj :=
  showsHot_of_reg (throttled_reg ..) (markHot_top_showsHot s die tj hdie)

theorem throttled_int : (s.throttled die tj).rbit (Blk.pwr.at die die 0x010) 1 = true := by
  have h := rbit_raise_at (((s.markHot die tj).markHot 4 tj).cntAdd .pwr die die 0x038 1) .pwr die die (k := 1) (by decide)
  rw [rbit_eq_getLsbD] at h ⊢
  rwa [State.throttled, ibi_reg]

theorem throttled_count : (s.throttled die tj).count (Blk.pwr.at die die 0x038) =
    min (s.count (Blk.pwr.at die die 0x038) + 1) (2 ^ 48 - 1) :=
  (congrArg (fun t : State => t.count (Blk.pwr.at die die 0x038)) (ibi_frame ..) : _).trans (count_cntAdd_same ..)

theorem throttled_mem : (s.throttled die tj).mem = s.mem := (congrArg State.mem (ibi_frame ..) : _).trans (cntAdd_mem ..)

/-- What the throttle of a die acts on: a chanter's consorts, or the ceiling (R810). -/
def State.throttleActs (s : State) (die : Nat) : State :=
  if die < 4 then
    { s with
      pwr := { s.pwr with hot := if s.pwr.hot.contains die then s.pwr.hot else s.pwr.hot ++ [die] }
      steps := s.steps.map (fun (e : Step) => if e.active && decide (e.desc.die = die) then { e with throttled := true } else e) }
  else { s with pwr := { s.pwr with hubHot := true } }

/-- It changes power and steps alone. -/
theorem throttleActs_frame : { s.throttleActs die with pwr := s.pwr, steps := s.steps } = s := by
  unfold State.throttleActs
  split <;> rfl

theorem throttleActs_reg (a : Nat) : (s.throttleActs die).reg a = s.reg a :=
  (congrArg (fun t : State => t.reg a) (throttleActs_frame s die) : _)

theorem throttleActs_hot (h : die < 4) : die ∈ (s.throttleActs die).pwr.hot := by
  unfold State.throttleActs
  rw [if_pos h]
  dsimp only
  split
  case isTrue hc => exact List.contains_iff_mem.mp hc
  case isFalse => exact List.mem_append_right _ (List.mem_singleton_self _)

theorem throttleActs_hub (h : 4 ≤ die) : (s.throttleActs die).pwr.hubHot = true := by
  unfold State.throttleActs
  rw [if_neg (Nat.not_lt.mpr h)]

theorem execThermalThrottle_eq (hdie : die < 8) : execThermalThrottle die tj s = .next ((s.throttled die tj).throttleActs die) :=
  congrArg Host.Outcome.next (if_neg (Nat.not_le.mpr hdie))

end

/-! ### Loops (R814) -/

section
variable {s : State} {die n : Nat}

theorem execPllLockLoss_consort (hdie : die < 4) (hn : n < 8) : execPllLockLoss die n s =
    .next ((s.loopLost die n).consortFault { die := die, k := n, reed := none, kind := 0x0B }) :=
  congrArg Host.Outcome.next ((if_neg (by omega)).trans ((if_neg (by omega)).trans ((if_pos hn).trans (if_neg (by omega)))))

section
variable (h16 : 16 ≤ n) (h20 : n < 20)
include h16 h20

theorem execPllLockLoss_chanter (hdie : die < 4) : execPllLockLoss die n s =
    .next ((s.loopLost die n).dieFault { breath := 0, die := die, kind := 6, action := 5 }) :=
  congrArg Host.Outcome.next ((if_neg (by omega)).trans ((if_neg (by omega)).trans ((if_neg (by omega)).trans
    ((if_neg (by omega)).trans (if_pos hdie)))))

theorem execPllLockLoss_hub (hdie : die < 8) (hhub : 4 ≤ die) : execPllLockLoss die n s =
    .next (((s.loopLost die n).free 8).2.goFatal { breath := 0, die := die, kind := ((s.loopLost die n).free 8).1 }) :=
  congrArg Host.Outcome.next ((if_neg (by omega)).trans ((if_neg (by omega)).trans ((if_neg (by omega)).trans
    ((if_neg (by omega)).trans (if_neg (by omega))))))

end

end

/-- Settles O53: each event by its own branch; the throttle's marks outlive its count, its interrupt and its message. -/
theorem clocksAndThermals : Obligations.ClocksAndThermals := by
  unfold Obligations.ClocksAndThermals
  refine ⟨fun who die m v ds s hdie hm => ⟨execEmbMeasure_due hdie, execEmbMeasure_notDue, execMeasureNow_writable hdie,
      execMonitorAlarm_chanter hm, execMonitorAlarm_hub hdie hm⟩,
    fun c s hc => ⟨fun h => ⟨execAvsAck_new hc h, execAvsTimeout_new hc h⟩, fun h => ⟨execAvsAck_acked h, execAvsTimeout_acked h⟩⟩,
    fun s => ⟨execCapRaise_held, execCapRaise_raised⟩,
    fun die tj s hdie => ⟨⟨_, execThermalThrottle_eq s die tj hdie, ?shown, ?temperature, ?int, ?count, ?mem, throttleActs_hot _ _,
      throttleActs_hub _ _⟩, congrArg Host.Outcome.next (if_neg (Nat.not_le.mpr hdie)),
      fun n hn hdie4 => execPllLockLoss_consort hdie4 hn, fun n h16 h20 hdie4 => execPllLockLoss_chanter h16 h20 hdie4,
      fun n h16 h20 hhub => execPllLockLoss_hub h16 h20 hdie hhub⟩⟩
  case shown => exact (showsHot_of_reg (throttleActs_reg ..) (throttled_showsHot s die tj hdie)).1
  case temperature => exact (showsHot_of_reg (throttleActs_reg ..) (throttled_showsHot s die tj hdie)).2
  case int =>
    have h := throttled_int s die tj
    rw [rbit_eq_getLsbD] at h ⊢
    rwa [throttleActs_reg]
  case count =>
    exact (congrArg (fun t : State => t.count (Blk.pwr.at die die 0x038)) (throttleActs_frame ..) : _).trans (throttled_count ..)
  case mem =>
    exact sameMem_of_mem
      ((congrArg State.mem (throttleActs_frame (s.throttled die tj) die) : _).trans (throttled_mem ..))

end Sys2Proof.Machine

/-! PROOFS. The lock, fuses, keys, debug records, tamper and the secure monitor (R766 to R797). -/
namespace Sys2Proof.Machine
open Sys2Proof.Laws

/-! ### Registers told apart by their offset -/

section
variable (s : State) {a : Nat}

theorem setFld_reg_other {b : Nat} (hi lo v : Nat) (h : b ≠ a) : (s.setFld b hi lo v).reg a = s.reg a :=
  (reg_setFld ..).trans (if_neg h)

theorem inPage_mod (b : Nat) {o : Nat} (h : o < 4096) : inPage b o % 4096 = o := by
  unfold inPage
  omega

/-- An interrupt changes no register but INT_STATUS of its page. -/
theorem raise_reg_ofOffset (b k : Nat) (h : a % 4096 ≠ 0x010) : (s.raise b k).reg a = s.reg a := by
  refine setFld_reg_other s k k 1 ?_
  rintro rfl
  exact h (inPage_mod b (by decide))

/-- The three registers of a page's error record. -/
def errOffs : List Nat := [0x01C, 0x020, 0x024]

theorem err_reg_ofOffset (who : Requester) (b : Blk) (c : Nat) (k : ErrKind) (h : a % 4096 ∉ errOffs) :
    (s.err who b c k).reg a = s.reg a := by
  have hne (o : Nat) (ho : o < 4096) (hmem : o ∈ errOffs) : inPage c o ≠ a := by
    rintro rfl
    rw [inPage_mod _ ho] at h
    exact h hmem
  exact reg_err_other _ _ _ _ _ _ (hne _ (by decide) (by decide)) (hne _ (by decide) (by decide)) (hne _ (by decide) (by decide))

/-- A write changes its own register and its page's error record. -/
theorem writeAt_reg_ofOffset (who : Requester) (b : Blk) (die i off : Nat) (v : Word) (hself : b.at die i off ≠ a)
    (h : a % 4096 ∉ errOffs) : (s.writeAt who b die i off v).reg a = s.reg a := by
  have hne (o : Nat) (ho : o < 4096) (hmem : o ∈ errOffs) : inPage (b.at die i off) o ≠ a := by
    rintro rfl
    rw [inPage_mod _ ho] at h
    exact h hmem
  exact reg_writeFields_other _ _ _ _ _ _ _ hself (hne _ (by decide) (by decide)) (hne _ (by decide) (by decide))
    (hne _ (by decide) (by decide))

theorem fld_of_reg {s t : State} {a : Nat} (h : t.reg a = s.reg a) (hi lo : Nat) : t.fld a hi lo = s.fld a hi lo :=
  congrArg (fieldW · hi lo) h

theorem rbit_of_reg {s t : State} {a : Nat} (h : t.reg a = s.reg a) (n : Nat) : t.rbit a n = s.rbit a n :=
  congrArg (fun w => decide (fieldW w n n = 1)) h

end

/-! ### The lock (R229, R617, R773) -/

section
variable (s : State)

theorem ilvBoot_regsOnly : RegsOnly s s.ilvBoot := by
  unfold State.ilvBoot
  split
  · exact (RegsOnly.refl s).setFld ..
  · exact RegsOnly.refl s

theorem ilvBoot_ilvGib : s.ilvBoot.ilvGib = if s.ilvGib = 0 then 1 else s.ilvGib := by
  unfold State.ilvBoot
  split
  · exact fld_setFld_same _ _ _ _ _ (by decide)
  · rfl

theorem windowErrs_regsOnly : RegsOnly s s.windowErrs := by
  refine RegsOnly.foldl (fun t e => ?_) _ (RegsOnly.refl s)
  dsimp only
  split
  · split
    · exact (RegsOnly.refl t).err ..
    · exact RegsOnly.refl t
  · exact RegsOnly.refl t

theorem windowErrs_reg {a : Nat} (h : a % 4096 ∉ errOffs) : s.windowErrs.reg a = s.reg a := by
  refine foldl_keeps (State.reg · a) _ (fun t e => ?_) _ s
  dsimp only
  split
  · split
    · exact err_reg_ofOffset _ _ _ _ _ h
    · rfl
  · rfl

variable {s} {who : Requester} {v : Word}

theorem writeAt_bootDone {off : Nat} (h : Blk.sec.at 4 4 off ≠ Blk.sec.at 4 4 0x10C) :
    (s.writeAt who .sec 4 4 off v).bootDone = s.bootDone :=
  rbit_of_reg (writeAt_reg_ofOffset _ _ _ _ _ _ _ h (by decide)) 31

theorem writeAt_sec_ilvGib {off : Nat} (h : Blk.sec.at 4 4 off ≠ Blk.top.at 4 4 0x200) :
    (s.writeAt who .sec 4 4 off v).ilvGib = s.ilvGib :=
  fld_of_reg (writeAt_reg_ofOffset _ _ _ _ _ _ _ h (by decide)) 7 0

section
variable (hw : s.writable who (Blk.sec.at 4 4 0x108) = true)
include hw

theorem execSecBootDone_zero (hv : v.getLsbD 0 = false) : execSecBootDone who 4 v s = .next (s.writeAt who .sec 4 4 0x108 v) :=
  congrArg Host.Outcome.next ((gate_writable _ _ _ _ hw).trans ((if_neg (by decide)).trans (if_pos hv)))

variable (hv : v.getLsbD 0 = true)
include hv

theorem execSecBootDone_again (hboot : s.bootDone = true) :
    execSecBootDone who 4 v s = .next ((s.writeAt who .sec 4 4 0x108 v).refuseAt who .sec 4 4 0x108) :=
  congrArg Host.Outcome.next ((gate_writable _ _ _ _ hw).trans ((if_neg (by decide)).trans ((if_neg (ne_false_of_eq_true hv)).trans
    (if_pos ((writeAt_bootDone (by decide)).trans hboot)))))

/-- The first write of 1 locks the device, and an `ilv_gib` of 0 is 1 from then on. -/
theorem execSecBootDone_first (hboot : s.bootDone = false) : ∃ t : State, execSecBootDone who 4 v s = .next t ∧ t.bootDone = true ∧
    RegsOnly s t ∧ t.ilvGib = if s.ilvGib = 0 then 1 else s.ilvGib := by
  have hopen : ¬(s.writeAt who .sec 4 4 0x108 v).bootDone = true := by
    rw [writeAt_bootDone (by decide), hboot]
    exact Bool.false_ne_true
  refine ⟨((s.writeAt who .sec 4 4 0x108 v).ilvBoot.windowErrs).setFld (secA 0x10C) 31 31 1, ?run, ?locked, ?regs, ?ilv⟩
  case run => exact congrArg Host.Outcome.next ((gate_writable _ _ _ _ hw).trans ((if_neg (by decide)).trans
    ((if_neg (ne_false_of_eq_true hv)).trans (if_neg hopen))))
  case locked => exact rbit_setFld_same _ _ _ (by decide) 1
  case regs =>
    exact RegsOnly.setFld ((((RegsOnly.refl s).writeAt ..).trans (ilvBoot_regsOnly _)).trans (windowErrs_regsOnly _)) ..
  case ilv =>
    calc State.ilvGib (((s.writeAt who .sec 4 4 0x108 v).ilvBoot.windowErrs).setFld (secA 0x10C) 31 31 1)
        = (s.writeAt who .sec 4 4 0x108 v).ilvBoot.windowErrs.ilvGib := fld_setFld_reg _ _ _ _ _ _ _ _ (by decide)
      _ = (s.writeAt who .sec 4 4 0x108 v).ilvBoot.ilvGib := fld_of_reg (windowErrs_reg _ (by decide)) 7 0
      _ = if s.ilvGib = 0 then 1 else s.ilvGib := by rw [ilvBoot_ilvGib, writeAt_sec_ilvGib (by decide)]

end

/-! ### Life cycle and fuses (R766, R771, R776) -/

section
variable (hw : s.writable who (Blk.sec.at 4 4 0x104) = true)
include hw

theorem execSecLcReq_refused (h : s.bootDone = true ∨ s.lcAllowed (fieldW v 2 0) = false) :
    execSecLcReq who 4 v s = .next ((s.writeAt who .sec 4 4 0x104 v).refuseAt who .sec 4 4 0x104) :=
  congrArg Host.Outcome.next ((gate_writable _ _ _ _ hw).trans ((if_neg (by decide)).trans (if_pos h)))

theorem execSecLcReq_allowed (hboot : s.bootDone = false) (h : s.lcAllowed (fieldW v 2 0) = true) :
    execSecLcReq who 4 v s = .next ((s.writeAt who .sec 4 4 0x104 v).lcGo (fieldW v 2 0)) := by
  have hok : ¬(s.bootDone = true ∨ s.lcAllowed (fieldW v 2 0) = false) := by
    rw [hboot, h]
    decide
  exact congrArg Host.Outcome.next ((gate_writable _ _ _ _ hw).trans ((if_neg (by decide)).trans (if_neg hok)))

end

section
variable (hw : s.writable who (Blk.sec.at 4 4 0x118) = true)
include hw

theorem execSecSvnRaise_refused (h : ¬(s.bootDone = false ∧ s.sec.minSvn ≤ fieldW v 6 0 ∧ fieldW v 6 0 ≤ s.runningSvn ∧
      fieldW v 6 0 ≤ 64 ∧ s.lifeCycle ≠ 4)) :
    execSecSvnRaise who 4 v s = .next ((s.writeAt who .sec 4 4 0x118 v).refuseAt who .sec 4 4 0x118) := by
  refine congrArg Host.Outcome.next ((gate_writable _ _ _ _ hw).trans ((if_neg (by decide)).trans (if_pos ?_)))
  by_contra hne
  simp only [not_or, Bool.not_eq_true, not_lt] at hne
  exact h hne

theorem execSecSvnRaise_raised (h : s.bootDone = false ∧ s.sec.minSvn ≤ fieldW v 6 0 ∧ fieldW v 6 0 ≤ s.runningSvn ∧
      fieldW v 6 0 ≤ 64 ∧ s.lifeCycle ≠ 4) : ∃ t : State, execSecSvnRaise who 4 v s = .next t ∧
    t.sec = { s.sec with minSvn := fieldW v 6 0 } ∧ sameMem s t := by
  obtain ⟨hboot, hmin, hrun, hmax, hlc⟩ := h
  refine ⟨{ s.writeAt who .sec 4 4 0x118 v with sec := { (s.writeAt who .sec 4 4 0x118 v).sec with minSvn := fieldW v 6 0 } },
    ?run, ?sec, sameMem_of_mem (writeAt_mem s who .sec 4 4 0x118 v)⟩
  case run =>
    refine congrArg Host.Outcome.next ((gate_writable _ _ _ _ hw).trans ((if_neg (by decide)).trans (if_neg ?_)))
    simp only [not_or, Bool.not_eq_true, not_lt]
    exact ⟨hboot, hmin, hrun, hmax, hlc⟩
  case sec => exact congrArg (fun x : Sec => { x with minSvn := fieldW v 6 0 }) (writeAt_sec s who .sec 4 4 0x118 v)

end

section
variable (hw : s.writable who (Blk.sec.at 4 4 0x11C) = true)
include hw

theorem execSecRevoke_refused (h : ¬(s.bootDone = false ∧ s.lifeCycle ≠ 4 ∧
      ¬(s.fld (Blk.sec.at 4 4 0x10C) 7 0 < 4 ∧ bit (fieldW v 3 0) (s.fld (Blk.sec.at 4 4 0x10C) 7 0) = true))) :
    execSecRevoke who 4 v s = .next ((s.writeAt who .sec 4 4 0x11C v).refuseAt who .sec 4 4 0x11C) := by
  refine congrArg Host.Outcome.next ((gate_writable _ _ _ _ hw).trans ((if_neg (by decide)).trans (if_pos ?_)))
  by_contra hne
  obtain ⟨hboot, hne⟩ := not_or.mp hne
  exact h ⟨Bool.not_eq_true _ ▸ hboot, not_or.mp hne⟩

theorem execSecRevoke_revoked (h : s.bootDone = false ∧ s.lifeCycle ≠ 4 ∧
      ¬(s.fld (Blk.sec.at 4 4 0x10C) 7 0 < 4 ∧ bit (fieldW v 3 0) (s.fld (Blk.sec.at 4 4 0x10C) 7 0) = true)) :
    ∃ t : State, execSecRevoke who 4 v s = .next t ∧ t.sec = { s.sec with revoke := s.sec.revoke ||| fieldW v 3 0 } ∧ sameMem s t := by
  obtain ⟨hboot, hlc, hkey⟩ := h
  refine ⟨{ s.writeAt who .sec 4 4 0x11C v with
      sec := { (s.writeAt who .sec 4 4 0x11C v).sec with revoke := (s.writeAt who .sec 4 4 0x11C v).sec.revoke ||| fieldW v 3 0 } },
    ?run, ?sec, sameMem_of_mem (writeAt_mem s who .sec 4 4 0x11C v)⟩
  case run =>
    refine congrArg Host.Outcome.next ((gate_writable _ _ _ _ hw).trans ((if_neg (by decide)).trans (if_neg ?_)))
    rintro (h | h | h)
    · exact Bool.false_ne_true (hboot.symm.trans h)
    · exact hlc h
    · exact hkey h
  case sec => exact congrArg (fun x : Sec => { x with revoke := x.revoke ||| fieldW v 3 0 }) (writeAt_sec s who .sec 4 4 0x11C v)

end

end

/-! ### Key blobs (R785, R786) -/

/-- Memory and the state of security. -/
def State.memSec (s : State) : Memory × Sec := (s.mem, s.sec)

section
variable (s : State)

theorem cntAdd_memSec (b : Blk) (die i off n : Nat) : (s.cntAdd b die i off n).memSec = s.memSec :=
  congrArg₂ Prod.mk (cntAdd_mem ..) (cntAdd_sec ..)

theorem writeAt_memSec (who : Requester) (b : Blk) (die i off : Nat) (v : Word) : (s.writeAt who b die i off v).memSec = s.memSec :=
  congrArg₂ Prod.mk (writeAt_mem ..) (writeAt_sec ..)

theorem ibi_memSec (code : Nat) : (s.ibi code).memSec = s.memSec := (congrArg State.memSec (ibi_frame s code) : _)

theorem faultInt_memSec (n : Nat) : (s.faultInt n).memSec = s.memSec := rfl

theorem faultPost_memSec (r : FaultRec) : (s.faultPost r).memSec = s.memSec := by
  unfold State.faultPost
  extract_lets r' s0 s1
  have h0 : s0.memSec = s.memSec := by
    unfold s0
    split <;> rfl
  have h1 : s1.memSec = s.memSec := (cntAdd_memSec ..).trans h0
  split
  · exact h0
  · split
    · exact (faultInt_memSec ..).trans ((cntAdd_memSec ..).trans h1)
    · have hq : ({ s1 with faults := s1.faults ++ [r'] } : State).memSec = s1.memSec := rfl
      exact (ibi_memSec _ 1).trans ((faultInt_memSec ..).trans (hq.trans h1))

theorem setReg_memSec (a : Nat) (w : Word) : (s.setReg a w).memSec = s.memSec := rfl

theorem eccRecord_memSec (b : Blk) (die i bank row word syn : Nat) (byScrub : Bool) :
    (s.eccRecord b die i bank row word syn byScrub).memSec = s.memSec := by
  unfold State.eccRecord
  extract_lets cls ue s0 key s1 hiA keep top
  have h0 : s0.memSec = s.memSec := cntAdd_memSec ..
  have h1 : s1.memSec = s.memSec := by
    unfold s1
    split <;> exact h0
  split
  · exact h1
  · split
    · exact (setReg_memSec ..).trans h1
    · exact (setReg_memSec ..).trans ((setReg_memSec ..).trans h1)

theorem noteWord_memSec (p : Nat) : (s.noteWord p).memSec = s.memSec := by
  unfold State.noteWord
  extract_lets syn c st s1
  have h1 : s1.memSec = s.memSec := cntAdd_memSec ..
  split
  · rfl
  · split
    · split
      · split
        · exact h1
        · exact (faultPost_memSec ..).trans h1
      · exact cntAdd_memSec ..
    · exact eccRecord_memSec ..

theorem noteWords_memSec (ps : List Nat) : (s.noteWords ps).memSec = s.memSec := by
  unfold State.noteWords
  split
  · rfl
  · exact foldl_keeps State.memSec _ (fun t p => noteWord_memSec t p) _ s

theorem notePartial_memSec (ps : List Nat) : (s.notePartial ps).memSec = s.memSec := by
  unfold State.notePartial
  split
  · rfl
  · exact foldl_keeps State.memSec _ (fun t p => noteWord_memSec t p) _ s

theorem noteRefused_memSec (who : Agent) (part : Option Nat) (a n : Nat) : (s.noteRefused who part a n).memSec = s.memSec := by
  unfold State.noteRefused
  split
  · rfl
  · split
    · exact cntAdd_memSec ..
    · rfl

/-- What an access notes is neither memory nor security. -/
theorem noteDev_memSec (who : Agent) (part : Option Nat) (write : Bool) (a n : Nat) : (s.noteDev who part write a n).memSec = s.memSec := by
  unfold State.noteDev
  split
  · rfl
  · dsimp only
    split
    · exact noteRefused_memSec ..
    · split
      · exact notePartial_memSec ..
      · exact noteWords_memSec ..

theorem tagFailed_memSec : s.tagFailed.memSec = s.memSec := cntAdd_memSec ..

theorem tagFailed_reg {a : Nat} (h1 : a % 4096 ≠ 0x028) (h2 : a % 4096 ≠ 0x010) : s.tagFailed.reg a = s.reg a :=
  (raise_reg_ofOffset _ _ _ h2).trans (cntAdd_reg_ofOffset _ _ _ _ _ _ h1)

/-- The slot that a loaded blob names is one of 1 to 15. -/
theorem blobLoad_slot {b : List Byte} {n : Nat} {x : KeySlot} (h : (s.blobLoad b).2 = some (n, x)) : 1 ≤ n ∧ n ≤ 15 := by
  unfold State.blobLoad at h
  dsimp only at h
  split at h
  · exact absurd h.symm (Option.some_ne_none _)
  · split at h
    · exact absurd h.symm (Option.some_ne_none _)
    · split at h
      · exact absurd h.symm (Option.some_ne_none _)
      · next hok =>
        split at h
        · exact absurd h.symm (Option.some_ne_none _)
        · split at h
          · exact absurd h.symm (Option.some_ne_none _)
          · obtain ⟨rfl, -⟩ := Prod.mk.inj (Option.some.inj h)
            unfold blobOk at hok
            simp only [Bool.not_eq_false, Bool.and_eq_true, decide_eq_true_eq] at hok
            tauto

/-- SEC_KEY_STATUS after a load. -/
def State.keyStatus (s : State) (st : Nat) : State :=
  if st = 4 then (s.setFld (secA 0x12C) 30 28 st).tagFailed else s.setFld (secA 0x12C) 30 28 st

theorem keyStatus_memSec (st : Nat) : (s.keyStatus st).memSec = s.memSec := by
  unfold State.keyStatus
  split
  · exact tagFailed_memSec _
  · rfl

theorem keyStatus_fld (st : Nat) : (s.keyStatus st).fld (Blk.sec.at 4 4 0x12C) 30 28 = st % 8 := by
  have h : (s.setFld (secA 0x12C) 30 28 st).fld (Blk.sec.at 4 4 0x12C) 30 28 = st % 8 := fld_setFld_same _ _ _ _ _ (by decide)
  unfold State.keyStatus
  split
  · exact (fld_of_reg (tagFailed_reg _ (by decide) (by decide)) 30 28).trans h
  · exact h

/-- A loaded key in its slot, whose exhausted count is shown. -/
def State.loadKey (s : State) (n : Nat) (x : KeySlot) : State :=
  if 2 ^ 40 ≤ x.count then (s.setKeySlot n (some x)).setFld (secA 0x130) n n 1 else s.setKeySlot n (some x)

theorem loadKey_mem (n : Nat) (x : KeySlot) : (s.loadKey n x).mem = s.mem := by
  unfold State.loadKey
  split <;> rfl

theorem loadKey_keySlot (n : Nat) (x : KeySlot) : (s.loadKey n x).keySlot n = some x := by
  have hset : (s.setKeySlot n (some x)).keySlot n = some x := get_set_same (fun _ => none) s.sec.slots n (some x)
  unfold State.loadKey
  split <;> exact hset

theorem loadKey_fld {n : Nat} (x : KeySlot) (h : n ≤ 15) :
    (s.loadKey n x).fld (Blk.sec.at 4 4 0x12C) 30 28 = s.fld (Blk.sec.at 4 4 0x12C) 30 28 := by
  have hset : (s.setKeySlot n (some x)).fld (Blk.sec.at 4 4 0x12C) 30 28 = s.fld (Blk.sec.at 4 4 0x12C) 30 28 :=
    fld_setFld_other _ _ _ _ _ _ _ (Or.inl (by omega))
  unfold State.loadKey
  split
  · exact (fld_setFld_reg _ _ _ _ _ _ _ _ (by decide)).trans hset
  · exact hset

/-- What a load of a blob's status and slot leaves. -/
def State.keyLoaded (s : State) (b : Nat × Option (Nat × KeySlot)) : State :=
  match b.2 with
  | none => s.keyStatus b.1
  | some (n, x) => (s.keyStatus b.1).loadKey n x

theorem keyLoaded_spec (b : Nat × Option (Nat × KeySlot)) (h : ∀ (n : Nat) (x : KeySlot), b.2 = some (n, x) → n ≤ 15) :
    (s.keyLoaded b).fld (Blk.sec.at 4 4 0x12C) 30 28 = b.1 % 8 ∧ (s.keyLoaded b).mem = s.mem ∧
      (b.2 = none → (s.keyLoaded b).sec = s.sec) ∧
      ∀ (n : Nat) (x : KeySlot), b.2 = some (n, x) → (s.keyLoaded b).keySlot n = some x := by
  obtain ⟨st, k⟩ := b
  obtain ⟨hmem, hsec⟩ := Prod.mk.inj (keyStatus_memSec s st)
  cases k with
  | none => exact ⟨keyStatus_fld s st, hmem, fun _ => hsec, fun _ _ hk => absurd hk.symm (Option.some_ne_none _)⟩
  | some k =>
    obtain ⟨n, x⟩ := k
    refine ⟨(loadKey_fld _ x (h n x rfl)).trans (keyStatus_fld s st), (loadKey_mem ..).trans hmem, fun hk => absurd hk (Option.some_ne_none _), ?_⟩
    intro m y hk
    obtain ⟨rfl, rfl⟩ := Prod.mk.inj (Option.some.inj hk)
    exact loadKey_keySlot ..

/-- The blob's bytes, noted as the security unit reads them. -/
def State.blobRead (s : State) (who : Requester) (v : Word) : State :=
  (s.writeAt who .sec 4 4 0x128 v).noteDev .secUnit none false (bellowsSram 4 (fieldW v 26 6 * 64)) 192

theorem execSecKeyLoad_eq {s : State} {who : Requester} (v : Word) (hw : s.writable who (Blk.sec.at 4 4 0x128) = true) :
    execSecKeyLoad who 4 v s = .next ((s.blobRead who v).keyLoaded
      ((s.blobRead who v).blobLoad ((s.blobRead who v).blobAt (fieldW v 26 6 * 64)))) := by
  refine congrArg Host.Outcome.next ((gate_writable _ _ _ _ hw).trans ((if_neg (by decide)).trans ?_))
  unfold State.keyLoaded State.keyStatus State.loadKey
  rfl

end

/-! ### Debug access (R778 to R781) -/

section
variable (s : State) (n : Nat)

theorem drawChallenge_succ : s.drawChallenge (n + 1) =
    ((s.free 32).2.setReg (secA (0x140 + 4 * (11 - n))) (BitVec.ofNat 32 (s.free 32).1)).drawChallenge n := by
  rw [State.drawChallenge]

theorem free_freeCtr (w : Nat) : (s.free w).2.freeCtr = s.freeCtr + 1 := rfl

theorem free_mem (w : Nat) : (s.free w).2.mem = s.mem := rfl

/-- A challenge of `n` words draws `n` free values, and is fresh. -/
theorem drawChallenge_spec : (s.drawChallenge n).sec.fresh = true ∧ (s.drawChallenge n).freeCtr = s.freeCtr + n ∧
    (s.drawChallenge n).mem = s.mem := by
  induction n generalizing s with
  | zero => exact ⟨rfl, rfl, rfl⟩
  | succ n ih =>
    rw [drawChallenge_succ]
    obtain ⟨hfresh, hctr, hmem⟩ := ih ((s.free 32).2.setReg (secA (0x140 + 4 * (11 - n))) (BitVec.ofNat 32 (s.free 32).1))
    refine ⟨hfresh, ?_, hmem.trans ((setReg_mem ..).trans (free_mem ..))⟩
    rw [hctr, setReg_freeCtr, free_freeCtr]
    omega

end

/-- The word of a challenge that the read returns. -/
def State.readsChallenge (s : State) : State := { s with readData := (s.reg (secA 0x140)).toNat }

theorem readsChallenge_spec (s : State) : s.readsChallenge.sec = s.sec ∧
    s.readsChallenge.readData = (s.readsChallenge.reg (Blk.sec.at 4 4 0x140)).toNat ∧ s.readsChallenge.freeCtr = s.freeCtr ∧
    s.readsChallenge.mem = s.mem := ⟨rfl, rfl, rfl, rfl⟩

theorem execSecDbgChal0_draws (s : State) : execSecDbgChal0 4 s = .next (s.drawChallenge 12).readsChallenge :=
  congrArg Host.Outcome.next (if_neg (by decide))

section
variable {s : State} {who : Requester} {v : Word}

/-- The record is whole, and its verification has begun. -/
def State.verifyBegun (s : State) (v : Word) : State :=
  { (s.setReg (secA 0x4FC) v).setFld (secA 0x110) 31 31 1 with
    sec := { s.sec with verifying := true, spoiled := false, attempt := s.sec.fresh, fresh := false } }

theorem execSecDbgResp63_begins (hw : s.writable who (Blk.sec.at 4 4 0x4FC) = true) (h : s.sec.verifying = false) :
    execSecDbgResp63 who 4 v s = .next (s.verifyBegun v) := by
  refine congrArg Host.Outcome.next ((gate_writable _ _ _ _ hw).trans (if_neg ?_))
  rw [h]
  decide

theorem verifyBegun_resp63 : (s.verifyBegun v).reg (Blk.sec.at 4 4 0x4FC) = v := by
  have h : ((s.setReg (secA 0x4FC) v).setFld (secA 0x110) 31 31 1).reg (Blk.sec.at 4 4 0x4FC) = v :=
    (setFld_reg_other _ _ _ _ (by decide)).trans (reg_setReg_same ..)
  exact h

theorem verifyBegun_busy : (s.verifyBegun v).rbit (Blk.sec.at 4 4 0x110) 31 = true := by
  have h : ((s.setReg (secA 0x4FC) v).setFld (secA 0x110) 31 31 1).rbit (Blk.sec.at 4 4 0x110) 31 = true :=
    rbit_setFld_same _ _ _ (by decide) 1
  exact h

theorem verifyBegun_mem : (s.verifyBegun v).mem = s.mem := rfl

/-- A verification that has ended, and raised (R790). -/
def State.verifyEnded (s : State) (ok : Bool) : State :=
  let t := ({ s with sec := { s.sec with verifying := false, attempt := false } }.setFld (secA 0x110) 31 31 0).raise (secA 0) 3
  if ok ∧ s.sec.spoiled = false then t.cntAdd .sec 4 4 0x030 1 else t

theorem execUnlockVerifyDone_eq (h : s.sec.verifying = true) (ok : Bool) (q : Nat) : execUnlockVerifyDone ok q s =
    .next (if s.recordOk ok q then (s.verifyEnded ok).unlockGo (s.recordByte 0)
      else if s.sec.spoiled then s.verifyEnded ok
      else ((s.verifyEnded ok).setFld (secA 0x110) 27 24 (min (s.fld (secA 0x110) 27 24 + 1) 8)).cntAdd .sec 4 4 0x048 1) := by
  unfold execUnlockVerifyDone
  rw [if_neg (ne_false_of_eq_true h)]
  rfl

theorem verifyEnded_sec (ok : Bool) : (s.verifyEnded ok).sec = { s.sec with verifying := false, attempt := false } := by
  unfold State.verifyEnded
  dsimp only
  split
  · exact cntAdd_sec ..
  · rfl

/-- A record that fails counts an attempt (R779, R781). -/
theorem execUnlockVerifyDone_failed {q : Nat} (h : s.sec.verifying = true) (hspoiled : s.sec.spoiled = false)
    (hbad : s.recordOk false q = false) : ∃ t : State, execUnlockVerifyDone false q s = .next t ∧
      t.sec = { s.sec with verifying := false, attempt := false } ∧
      t.fld (Blk.sec.at 4 4 0x110) 27 24 = min (s.fld (Blk.sec.at 4 4 0x110) 27 24 + 1) 8 ∧ t.rbit (Blk.sec.at 4 4 0x110) 31 = false ∧
      t.rbit (Blk.sec.at 4 4 0x010) 3 = true ∧
      t.count (Blk.sec.at 4 4 0x048) = min (s.count (Blk.sec.at 4 4 0x048) + 1) (2 ^ 48 - 1) := by
  have hreg {a : Nat} (ha : a % 4096 ≠ 0x028) (u : State) : (u.cntAdd .sec 4 4 0x048 1).reg a = u.reg a :=
    cntAdd_reg_ofOffset _ _ _ _ _ _ ha
  have hended : s.verifyEnded false =
      ({ s with sec := { s.sec with verifying := false, attempt := false } }.setFld (secA 0x110) 31 31 0).raise (secA 0) 3 := by
    unfold State.verifyEnded
    exact if_neg fun h => Bool.false_ne_true h.1
  refine ⟨_, (execUnlockVerifyDone_eq h false q).trans (congrArg Host.Outcome.next ((if_neg (Bool.eq_false_iff.mp hbad)).trans
    (if_neg (Bool.eq_false_iff.mp hspoiled)))), (cntAdd_sec ..).trans (verifyEnded_sec false), ?attempts, ?busy, ?int, ?count⟩
  case attempts =>
    exact (fld_of_reg (hreg (by decide) _) 27 24).trans ((fld_setFld_same _ _ _ _ _ (by decide)).trans (Nat.mod_eq_of_lt (by omega)))
  case busy =>
    rw [rbit_of_reg (hreg (by decide) _), hended]
    have h31 : ({ s with sec := { s.sec with verifying := false, attempt := false } }.setFld (secA 0x110) 31 31 0).rbit
        (Blk.sec.at 4 4 0x110) 31 = false := rbit_setFld_same _ _ _ (by decide) 0
    have hattempts (t : State) (n : Nat) : (t.setFld (secA 0x110) 27 24 n).rbit (Blk.sec.at 4 4 0x110) 31 =
        t.rbit (Blk.sec.at 4 4 0x110) 31 := congrArg (fun k => decide (k = 1)) (fld_setFld_other _ _ _ _ _ _ _ (by decide))
    rw [hattempts, rbit_of_reg (raise_reg_ofOffset _ _ _ (by decide)), h31]
  case int =>
    rw [rbit_of_reg (hreg (by decide) _), hended, rbit_of_reg (setFld_reg_other _ _ _ _ (by decide))]
    exact rbit_raise_at _ .sec _ _ (by decide)
  case count =>
    rw [hended]
    exact count_cntAdd_same ..

/-- An accepted record of level 1 or 2 in DEVELOP opens its level at once (R780). -/
theorem execUnlockVerifyDone_opened {ok : Bool} {q : Nat} (h : s.sec.verifying = true) (hok : s.recordOk ok q = true)
    (hlc : s.lifeCycle = 1) (hlevel : s.recordByte 0 ≠ 3) : ∃ t : State, execUnlockVerifyDone ok q s = .next t ∧
      t.sec.opened = s.recordByte 0 ∧ t.rbit (Blk.sec.at 4 4 0x110) 30 = true := by
  have hlc' : (s.verifyEnded ok).lifeCycle = 1 := by
    unfold State.lifeCycle
    rw [verifyEnded_sec]
    exact hlc
  exact ⟨_, (execUnlockVerifyDone_eq h ok q).trans (congrArg Host.Outcome.next ((if_pos hok).trans ((if_neg hlevel).trans
    (if_pos hlc')))), rfl, rbit_setFld_same _ _ _ (by decide) 1⟩

end

/-! ### Tamper (R208, R222, R782, R783) -/

section
variable (s : State) {a : Nat}

theorem setBank_reg_other {m : MemRef} {n : Nat} (busy : Bool) (st o : Nat) (h : m.own n ≠ a) : (s.setBank m n busy st o).reg a = s.reg a :=
  (setFld_reg_other _ _ _ _ h).trans ((setFld_reg_other _ _ _ _ h).trans (setFld_reg_other _ _ _ _ h))

theorem wipeStart_regsOnly (die : Nat) : RegsOnly s (s.wipeStart die) := by
  refine RegsOnly.setReg (RegsOnly.foldl (fun t n => ?_) _ (RegsOnly.refl s)) ..
  split
  · exact (((RegsOnly.refl t).setFld ..).setFld ..).setFld ..
  · exact RegsOnly.refl t

/-- A wipe is shown in the ownership registers and in SEC_SBANK_STATUS. -/
theorem wipeStart_reg (die : Nat) (h : a % 4096 < 0x200) : (s.wipeStart die).reg a = s.reg a := by
  have hstatus : Blk.sec.at die die 0x208 ≠ a := by
    rintro rfl
    rw [at_mod _ _ _ (by decide)] at h
    omega
  refine (reg_setReg_other _ _ _ _ hstatus).trans ?_
  refine List.foldlRecOn (motive := fun t : State => t.reg a = s.reg a) _ _ rfl fun t ht n hn => ?_
  have hown : (MemRef.bellows die).own n ≠ a := by
    rintro rfl
    have hn64 := List.mem_range.mp hn
    rw [MemRef.own, MemRef.at, at_mod _ _ _ (by omega)] at h
    omega
  split
  · exact (setBank_reg_other _ _ _ _ hown).trans ht
  · exact ht

theorem RegsOnly.sec {s t : State} (h : RegsOnly s t) : t.sec = s.sec := field_of_regs s State.sec t h rfl

/-- No key slot is loaded. -/
def State.keysGone (s : State) : State := { s with sec := { s.sec with slots := [], noKey := true } }.setFld (secA 0x12C) 15 0 0

theorem eraseKeys_eq : s.eraseKeys = (s.keysGone.wipeStart 4).wipeStart 5 := rfl

theorem eraseKeys_sec : s.eraseKeys.sec = { s.sec with slots := [], noKey := true } := by
  rw [eraseKeys_eq]
  exact RegsOnly.sec (s := s.keysGone) ((wipeStart_regsOnly _ 4).trans (wipeStart_regsOnly _ 5))

theorem eraseKeys_reg (h : a % 4096 < 0x200) (hne : secA 0x12C ≠ a) : s.eraseKeys.reg a = s.reg a := by
  have hgone : s.keysGone.reg a = s.reg a := setFld_reg_other _ _ _ _ hne
  rw [eraseKeys_eq]
  exact (wipeStart_reg _ 5 h).trans ((wipeStart_reg _ 4 h).trans hgone)

end

section
variable {s : State} {src : Nat} {held : Bool}

/-- SEC_TAMPER_STATUS shows whether the source is held. -/
def State.tamperSeen (s : State) (src : Nat) (held : Bool) : State := s.setFld (secA 0x120) src src (b2n held)

theorem tamperSeen_enable : (s.tamperSeen src held).reg (secA 0x124) = s.reg (secA 0x124) := setFld_reg_other _ _ _ _ (by decide)

theorem tamper_ignored (h : s.rbit (secA 0x124) src = false ∨ (s.rbit (secA 0x120) src = true ∧ held = false)) :
    s.tamper src held = s.tamperSeen src held :=
  if_pos (h.imp_left (rbit_of_reg tamperSeen_enable src).trans)

/-- The keys are erased, the source has tripped and the event is raised. -/
def State.tamperErased (s : State) (src : Nat) (held : Bool) : State :=
  (((s.tamperSeen src held).setFld (secA 0x120) (16 + src) (16 + src) 1).eraseKeys).raise (secA 0) 1

theorem tamperErased_reg (h : a % 4096 < 0x200) (h1 : secA 0x12C ≠ a) (h2 : secA 0x120 ≠ a) (h3 : a % 4096 ≠ 0x010) :
    (s.tamperErased src held).reg a = s.reg a :=
  (raise_reg_ofOffset _ _ _ h3).trans ((eraseKeys_reg _ h h1).trans ((setFld_reg_other _ _ _ _ h2).trans (setFld_reg_other _ _ _ _ h2)))

/-- A record whose verification runs is spoiled (R783). -/
def State.tamperSpoils (s : State) : State := { s with sec := { s.sec with spoiled := s.sec.verifying || s.sec.spoiled } }

theorem tamperSpoils_reg (s : State) (a : Nat) : s.tamperSpoils.reg a = s.reg a := rfl

theorem tamperSpoils_slots (s : State) : s.tamperSpoils.sec.slots = s.sec.slots := rfl

theorem tamperSpoils_noKey (s : State) : s.tamperSpoils.sec.noKey = s.sec.noKey := rfl

theorem tamper_eq : s.tamper src held =
    if (s.tamperSeen src held).rbit (secA 0x124) src = false ∨ (s.rbit (secA 0x120) src = true ∧ held = false) then s.tamperSeen src held
    else if (s.tamperErased src held).tamperSpoils.rbit (secA 0x124) 4 then
      ((s.tamperErased src held).tamperSpoils.free 4).2.doReset .device ((s.tamperErased src held).tamperSpoils.free 4).1
    else (s.tamperErased src held).tamperSpoils := rfl

theorem tamper_trips (hen : s.rbit (secA 0x124) src = true) (hnoReset : s.rbit (secA 0x124) 4 = false)
    (hnew : s.rbit (secA 0x120) src = false ∨ held = true) : s.tamper src held = (s.tamperErased src held).tamperSpoils := by
  have hgo : ¬((s.tamperSeen src held).rbit (secA 0x124) src = false ∨ (s.rbit (secA 0x120) src = true ∧ held = false)) := by
    rw [rbit_of_reg tamperSeen_enable, hen]
    rintro (h | ⟨h1, h2⟩)
    · exact Bool.noConfusion h
    · exact hnew.elim (fun h => Bool.false_ne_true (h.symm.trans h1)) (fun h => Bool.false_ne_true (h2.symm.trans h))
  have hstay : ¬(s.tamperErased src held).tamperSpoils.rbit (secA 0x124) 4 = true := by
    rw [rbit_of_reg ((tamperSpoils_reg ..).trans (tamperErased_reg (by decide) (by decide) (by decide) (by decide))), hnoReset]
    exact Bool.false_ne_true
  rw [tamper_eq, if_neg hgo, if_neg hstay]

/-- The bit that says which source tripped stands beside the erasure. -/
theorem tamperErased_tripped (hsrc : src < 4) : (s.tamperErased src held).rbit (Blk.sec.at 4 4 0x120) (16 + src) = true := by
  unfold State.tamperErased
  rw [rbit_of_reg (raise_reg_ofOffset _ _ _ (by decide)), rbit_of_reg (eraseKeys_reg _ (by decide) (by decide))]
  exact rbit_setFld_same _ _ _ (by omega) 1

theorem tamperErased_int : (s.tamperErased src held).rbit (Blk.sec.at 4 4 0x010) 1 = true := rbit_raise_at _ .sec _ _ (by decide)

theorem tamperErased_sec : (s.tamperErased src held).sec = { s.sec with slots := [], noKey := true } := by
  unfold State.tamperErased
  rw [raise_sec, eraseKeys_sec]
  rfl

end

/-! ### The secure monitor (R774) -/

section
variable {s : State} {die core entry : Nat}

theorem execSecureMonitorCall_stays (h : ¬(s.coresOut.contains (die, core) = false ∧ s.sec.monOff = false ∧ s.bootDone = true ∧
      s.hasSecure die = true ∧ entry = s.fld (Blk.sec.at 4 4 0x134) 26 0)) : execSecureMonitorCall die core entry s = .next s := by
  refine congrArg Host.Outcome.next (if_pos ?_)
  by_contra hne
  simp only [not_or, Bool.not_eq_true, Bool.not_eq_false, not_not] at hne
  obtain ⟨-, -, hout, hmon, hboot, hsecure, hentry, -⟩ := hne
  exact h ⟨hout, hmon, hboot, hsecure, hentry⟩

variable (hdie : die = 4 ∨ die = 5) (hcore : core < 8)
  (hnew : s.sec.secure.contains (8 * die + core) = false)
include hdie hcore hnew

theorem execSecureMonitorCall_enters (h : s.coresOut.contains (die, core) = false ∧ s.sec.monOff = false ∧ s.bootDone = true ∧
      s.hasSecure die = true ∧ entry = s.fld (Blk.sec.at 4 4 0x134) 26 0) : execSecureMonitorCall die core entry s =
    .next { s with sec := { s.sec with secure := s.sec.secure ++ [8 * die + core] } } := by
  obtain ⟨hout, hmon, hboot, hsecure, hentry⟩ := h
  refine congrArg Host.Outcome.next (if_neg ?_)
  rintro (h | h | h | h | h | h | h | h)
  · exact Bool.false_ne_true (h.symm.trans (decide_eq_true hdie))
  · omega
  · exact Bool.false_ne_true (hout.symm.trans h)
  · exact Bool.false_ne_true (hmon.symm.trans h)
  · exact Bool.false_ne_true (h.symm.trans hboot)
  · exact Bool.false_ne_true (h.symm.trans hsecure)
  · exact h hentry
  · exact Bool.false_ne_true (hnew.symm.trans h)

end

/-- Settles O54: each register's write by its own branch; a tamper's erasure keeps the registers that tell of it. -/
theorem securityCommands : Obligations.SecurityCommands := by
  unfold Obligations.SecurityCommands
  refine ⟨fun who v s => ⟨fun hw => ⟨?bootDone, execSecBootDone_again hw, execSecBootDone_zero hw⟩,
      fun hw => ⟨execSecLcReq_refused hw, execSecLcReq_allowed hw⟩, fun hw => ⟨execSecSvnRaise_refused hw, execSecSvnRaise_raised hw⟩,
      fun hw => ⟨execSecRevoke_refused hw, execSecRevoke_revoked hw⟩, ?keyLoad, ?record⟩,
    fun s => ?challenge, fun ok q s => ⟨?idle, ?failed, execUnlockVerifyDone_opened⟩,
    fun src held s hsrc => ⟨?masked, ?ends, ?trips⟩,
    fun die core entry s hdie hcore hnew => ⟨execSecureMonitorCall_enters hdie hcore hnew, execSecureMonitorCall_stays⟩⟩
  case bootDone =>
    intro hv hboot
    obtain ⟨t, ht, hlocked, hregs, hilv⟩ := execSecBootDone_first hw hv hboot
    exact ⟨t, ht, hlocked, hregs, fun h0 => hilv.trans (if_pos h0), fun h0 => hilv.trans (if_neg h0)⟩
  case keyLoad =>
    intro hw
    obtain ⟨hmem, hsec⟩ := Prod.mk.inj ((noteDev_memSec _ .secUnit none false (bellowsSram 4 (fieldW v 26 6 * 64)) 192).trans
      (writeAt_memSec s who .sec 4 4 0x128 v))
    obtain ⟨hstatus, hkept, hnone, hslot⟩ := keyLoaded_spec (s.blobRead who v)
      ((s.blobRead who v).blobLoad ((s.blobRead who v).blobAt (fieldW v 26 6 * 64))) fun n x h => (blobLoad_slot _ h).2
    exact ⟨_, execSecKeyLoad_eq v hw, hstatus, sameMem_of_mem (hkept.trans hmem),
      fun h => (hnone h).trans hsec, hslot⟩
  case record =>
    exact fun hw h => ⟨_, execSecDbgResp63_begins hw h, verifyBegun_resp63, verifyBegun_busy, rfl, rfl, rfl,
      sameMem_of_mem verifyBegun_mem⟩
  case challenge =>
    obtain ⟨hfresh, hctr, hmem⟩ := drawChallenge_spec s 12
    obtain ⟨hsec, hread, hctr', hmem'⟩ := readsChallenge_spec (s.drawChallenge 12)
    exact ⟨_, execSecDbgChal0_draws s, hsec ▸ hfresh, hread, hctr'.trans hctr,
      sameMem_of_mem (hmem'.trans hmem)⟩
  case idle => exact fun h => congrArg Host.Outcome.next (if_pos h)
  case failed =>
    rintro h hspoiled hbad rfl
    exact execUnlockVerifyDone_failed h hspoiled hbad
  case masked =>
    exact fun h => congrArg Host.Outcome.next ((if_neg (Nat.not_le.mpr hsrc)).trans (tamper_ignored (Or.inl h)))
  case ends =>
    rintro h rfl
    exact congrArg Host.Outcome.next ((if_neg (Nat.not_le.mpr hsrc)).trans (tamper_ignored (Or.inr ⟨h, rfl⟩)))
  case trips =>
    intro hen hnoReset hnew
    refine ⟨_, congrArg Host.Outcome.next ((if_neg (Nat.not_le.mpr hsrc)).trans (tamper_trips hen hnoReset hnew)), ?_, ?_, ?_, ?_⟩
    · rw [tamperSpoils_slots, tamperErased_sec]
    · rw [tamperSpoils_noKey, tamperErased_sec]
    · exact (rbit_of_reg (tamperSpoils_reg ..) _).trans (tamperErased_tripped hsrc)
    · exact (rbit_of_reg (tamperSpoils_reg ..) _).trans tamperErased_int

end Sys2Proof.Machine

/-! PROOFS. The states of a drone: checkpoints, format, training, recovery and the flush at a power failure (R681, R683, R706 to
R714). -/
namespace Sys2Proof.Machine
open Sys2Proof.Laws

/-! ### A drone's record and its registers -/

section
variable (s : State) (d : Nat)

theorem setReg_reg_at_other (b : Blk) (die i : Nat) {o p : Nat} (w : Word) (h : o ≠ p) :
    (s.setReg (b.at die i o) w).reg (b.at die i p) = s.reg (b.at die i p) :=
  reg_setReg_other _ _ _ _ (mt (at_inj b die i o p).mp h)

theorem setFld_reg_at_other (b : Blk) (die i : Nat) {o p : Nat} (hi lo v : Nat) (h : o ≠ p) :
    (s.setFld (b.at die i o) hi lo v).reg (b.at die i p) = s.reg (b.at die i p) :=
  setFld_reg_other _ _ _ _ (mt (at_inj b die i o p).mp h)

theorem drone_setReg (a e : Nat) (w : Word) : (s.setReg a w).drone e = s.drone e := rfl

theorem drone_raise (a k e : Nat) : (s.raise a k).drone e = s.drone e := rfl

theorem drone_setDroneState (v e : Nat) : (s.setDroneState d v).drone e = s.drone e := rfl

theorem reg_modDrone (f : Drone → Drone) (a : Nat) : (s.modDrone d f).reg a = s.reg a := rfl

theorem droneState_modDrone (f : Drone → Drone) (e : Nat) : (s.modDrone d f).droneState e = s.droneState e := rfl

theorem mem_modDrone (f : Drone → Drone) : (s.modDrone d f).mem = s.mem := rfl

@[simp] theorem drone_setDrone_same (x : Drone) : (s.setDrone d x).drone d = x := get_set_same Drone.blank s.drones d x

theorem drone_setDrone_other {e : Nat} (x : Drone) (h : d ≠ e) : (s.setDrone d x).drone e = s.drone e :=
  (get_set Drone.blank s.drones d e x).trans (if_neg h)

theorem drone_modDrone (f : Drone → Drone) : (s.modDrone d f).drone d = f (s.drone d) := drone_setDrone_same ..

theorem RegsOnly.drone {s t : State} (h : RegsOnly s t) (d : Nat) : t.drone d = s.drone d := field_of_regs s (State.drone · d) t h rfl

theorem RegsOnly.pwr {s t : State} (h : RegsOnly s t) : t.pwr = s.pwr := field_of_regs s State.pwr t h rfl

theorem RegsOnly.mem {s t : State} (h : RegsOnly s t) : t.mem = s.mem := field_of_regs s State.mem t h rfl

theorem droneState_of_reg {s t : State} {d : Nat} (h : t.reg (Blk.drone.at d d 0x00C) = s.reg (Blk.drone.at d d 0x00C)) :
    t.droneState d = s.droneState d := fld_of_reg h 19 16

theorem setDroneState_same {v : Nat} (h : v < 16) : (s.setDroneState d v).droneState d = v :=
  (fld_setFld_same _ _ _ _ _ (by decide)).trans (Nat.mod_eq_of_lt h)

/-- What DRONE_STATUS, DRONE_EC and DRONE_SEQ show of a drone, but for its state. -/
def State.shown (s : State) (d : Nat) : State :=
  let x := s.drone d
  let s1 := (s.setFld (droneA d 0x00C) 15 0 x.minFree).setFld (droneA d 0x00C) 31 31 (b2n (x.victim.isSome || decide (x.rewrite ≠ [])))
  let s2 := s1.setReg (droneA d 0x130) (BitVec.ofNat 32 (min x.ecRange.1 65535 * 2 ^ 16 + min x.ecRange.2 65535))
  (s2.setReg (droneA d 0x138) (BitVec.ofNat 32 x.seq)).setReg (droneA d 0x13C) (BitVec.ofNat 32 (x.seq / 2 ^ 32))

theorem droneShow_cases : s.droneShow d = s.shown d ∨ s.droneShow d = (s.shown d).raise (droneA d 0) 3 := by
  unfold State.droneShow
  extract_lets x a old crit s1 r s2 s3
  split
  · exact Or.inr rfl
  · exact Or.inl rfl

theorem shown_regsOnly : RegsOnly s (s.shown d) :=
  (((((RegsOnly.refl s).setFld ..).setFld ..).setReg ..).setReg ..).setReg ..

theorem shown_droneState : (s.shown d).droneState d = s.droneState d := by
  have hfree (t : State) (v : Nat) : (t.setFld (droneA d 0x00C) 15 0 v).droneState d = t.droneState d :=
    fld_setFld_other _ _ _ _ _ _ _ (by decide)
  have hbusy (t : State) (v : Nat) : (t.setFld (droneA d 0x00C) 31 31 v).droneState d = t.droneState d :=
    fld_setFld_other _ _ _ _ _ _ _ (by decide)
  have hreg (t : State) {o : Nat} (w : Word) (h : o ≠ 0x00C) : (t.setReg (droneA d o) w).droneState d = t.droneState d :=
    droneState_of_reg (setReg_reg_at_other t .drone d d w h)
  unfold State.shown
  rw [hreg _ _ (by decide), hreg _ _ (by decide), hreg _ _ (by decide), hbusy, hfree]

theorem shown_int : (s.shown d).reg (Blk.drone.at d d 0x010) = s.reg (Blk.drone.at d d 0x010) := by
  have hfld (t : State) (hi lo v : Nat) : (t.setFld (droneA d 0x00C) hi lo v).reg (Blk.drone.at d d 0x010) =
      t.reg (Blk.drone.at d d 0x010) := setFld_reg_at_other t .drone d d hi lo v (by decide)
  have hreg (t : State) {o : Nat} (w : Word) (h : o ≠ 0x010) : (t.setReg (droneA d o) w).reg (Blk.drone.at d d 0x010) =
      t.reg (Blk.drone.at d d 0x010) := setReg_reg_at_other t .drone d d w h
  unfold State.shown
  rw [hreg _ _ (by decide), hreg _ _ (by decide), hreg _ _ (by decide), hfld, hfld]

theorem raise_droneState (k : Nat) : (s.raise (droneA d 0) k).droneState d = s.droneState d :=
  droneState_of_reg (raise_reg_ofOffset _ _ _ (by rw [at_mod _ _ _ (by decide)]; decide))

theorem droneShow_regsOnly : RegsOnly s (s.droneShow d) := by
  rcases droneShow_cases s d with h | h <;> rw [h]
  · exact shown_regsOnly s d
  · exact (shown_regsOnly s d).raise ..

theorem droneShow_droneState : (s.droneShow d).droneState d = s.droneState d := by
  rcases droneShow_cases s d with h | h <;> rw [h]
  · exact shown_droneState s d
  · exact (raise_droneState ..).trans (shown_droneState s d)

theorem droneShow_int {k : Nat} (h : s.rbit (Blk.drone.at d d 0x010) k = true) :
    (s.droneShow d).rbit (Blk.drone.at d d 0x010) k = true := by
  have hshown := (rbit_of_reg (shown_int s d) k).trans h
  rcases droneShow_cases s d with h | h <;> rw [h]
  · exact hshown
  · exact rbit_raise_keep _ _ _ _ _ (by decide) hshown

theorem readOnlyCheck_regsOnly : RegsOnly s (s.readOnlyCheck d) := by
  unfold State.readOnlyCheck
  extract_lets x good per need
  split
  · exact ((RegsOnly.refl s).setFld ..).raise ..
  · exact RegsOnly.refl s

/-- A mounted drone stays so, or is `READ_ONLY`. -/
theorem readOnlyCheck_mounted (h : s.droneState d = 3) : (s.readOnlyCheck d).droneState d = 3 ∨ (s.readOnlyCheck d).droneState d = 4 := by
  unfold State.readOnlyCheck
  extract_lets x good per need
  split
  · exact Or.inr ((raise_droneState ..).trans (setDroneState_same _ _ (by decide)))
  · exact Or.inl h

theorem setCapacity_regsOnly (cap : Nat) : RegsOnly s (s.setCapacity d cap) :=
  (((((RegsOnly.refl s).setReg ..).setReg ..).setReg ..).setReg ..)

end

/-! ### Checkpoints (R711, R713) -/

section
variable {s : State} {die slots : Nat}

theorem isDrone_of (hdie : die = 6 ∨ die = 7) : ¬isDrone die = false := ne_false_of_eq_true (decide_eq_true hdie)

theorem checkpoint_spec : ((s.checkpoint die slots).drone die).jrnl = 0 ∧ ((s.checkpoint die slots).drone die).ckptWanted = false ∧
    ((s.checkpoint die slots).drone die).seq = (s.drone die).seq + slots ∧
    ((s.checkpoint die slots).drone die).objs = (s.drone die).objs ∧ (s.checkpoint die slots).mem = s.mem := by
  unfold State.checkpoint
  rw [(droneShow_regsOnly _ die).drone, (droneShow_regsOnly _ die).mem, drone_modDrone]
  exact ⟨rfl, rfl, rfl, rfl, rfl⟩

theorem execCheckpoint_writes (hdie : die = 6 ∨ die = 7) (hst : s.droneState die = 3 ∨ s.droneState die = 4)
    (hdue : (s.drone die).ckptWanted = true ∨ s.fld (Blk.drone.at die die 0x110) 15 0 * 256 ≤ (s.drone die).jrnl) :
    execCheckpoint die slots s = .next (s.checkpoint die slots) := by
  have hgo : ¬(isDrone die = false ∨ (s.droneState die ≠ 3 ∧ s.droneState die ≠ 4)) := by
    rintro (h | ⟨h3, h4⟩)
    · exact isDrone_of hdie h
    · exact hst.elim h3 h4
  exact congrArg Host.Outcome.next ((if_neg hgo).trans (if_pos hdue))

theorem execCheckpoint_unmounted (h3 : s.droneState die ≠ 3) (h4 : s.droneState die ≠ 4) : execCheckpoint die slots s = .next s :=
  congrArg Host.Outcome.next (if_pos (Or.inr ⟨h3, h4⟩))

theorem execCkptNow_asks {who : Requester} {v : Word} (hdie : die = 6 ∨ die = 7)
    (hw : s.writable who (Blk.drone.at die die 0x008) = true) (hv : v.getLsbD 2 = true) :
    execCkptNow who die v s = .next ((s.writeAt who .drone die die 0x008 v).modDrone die (fun x => { x with ckptWanted := true })) :=
  congrArg Host.Outcome.next ((gate_writable _ _ _ _ hw).trans ((if_neg (isDrone_of hdie)).trans (if_pos hv)))

end

/-! ### Format, training and recovery (R681, R683, R711, R713) -/

section
variable (s : State) (die cap : Nat)

/-- A drone whose capacity is set and which mounts: `MOUNTED`, or `READ_ONLY` where its blocks do not suffice (R703, R712). -/
def State.mounts (s : State) (die cap : Nat) : State := ((s.setCapacity die cap).setDroneState die 3).readOnlyCheck die

theorem mounts_regsOnly : RegsOnly s (s.mounts die cap) :=
  ((setCapacity_regsOnly s die cap).setFld ..).trans (readOnlyCheck_regsOnly _ die)

theorem mounts_state : (s.mounts die cap).droneState die = 3 ∨ (s.mounts die cap).droneState die = 4 :=
  readOnlyCheck_mounted _ die (setDroneState_same _ die (by decide))

/-- An empty drone with its own anchor (R683, R713). -/
def Drone.formatted (x : Drone) : Drone :=
  { x with
    anchor := .own, objs := [], buf := [], frames := [], rot := [], victim := none, rewrite := [], jrnl := 0, ckptWanted := false
    levelling := false, ecBase := x.ecBase + 1
    blocks := (x.blocks.map (fun (e : Nat × NBlock) =>
      if e.2.st = 3 then e else (e.1, { ec := e.2.ec }))).filter (fun e => decide (e.2 ≠ {})) }

/-- A drone after its format. -/
def State.formats (s : State) (die cap : Nat) : State :=
  (((s.setDrone die (s.drone die).formatted).setReg (droneA die 0x134) 0).mounts die cap).droneShow die

theorem formats_drone : (s.formats die cap).drone die = (s.drone die).formatted := by
  unfold State.formats
  rw [(droneShow_regsOnly _ die).drone, (mounts_regsOnly _ die cap).drone, drone_setReg, drone_setDrone_same]

theorem formats_state : (s.formats die cap).droneState die = 3 ∨ (s.formats die cap).droneState die = 4 := by
  unfold State.formats
  rw [droneShow_droneState]
  exact mounts_state ..

variable {s die} {who : Requester} {v : Word}

section
variable (hdie : die = 6 ∨ die = 7) (hw : s.writable who (Blk.drone.at die die 0x008) = true) (hv : v.getLsbD 1 = true)
include hdie hw hv

theorem execDroneFormat_refused (h : s.rbit (Blk.drone.at die die 0x008) 0 = true ∨
      (s.droneState die ≠ 8 ∧ s.droneState die ≠ 7 ∧ s.droneState die ≠ 3 ∧ s.droneState die ≠ 4)) :
    execDroneFormat who die v cap s = .next (s.refuseWrite who .drone die die 0x008 v) :=
  congrArg Host.Outcome.next ((gate_writable _ _ _ _ hw).trans ((if_neg (isDrone_of hdie)).trans
    ((if_neg (ne_false_of_eq_true hv)).trans (if_pos h))))

theorem execDroneFormat_formats (hoff : s.rbit (Blk.drone.at die die 0x008) 0 = false)
    (hst : s.droneState die = 8 ∨ s.droneState die = 7 ∨ s.droneState die = 3 ∨ s.droneState die = 4) :
    execDroneFormat who die v cap s = .next ((s.writeAt who .drone die die 0x008 v).formats die cap) := by
  have hgo : ¬(s.rbit (Blk.drone.at die die 0x008) 0 = true ∨
      (s.droneState die ≠ 8 ∧ s.droneState die ≠ 7 ∧ s.droneState die ≠ 3 ∧ s.droneState die ≠ 4)) := by
    rw [hoff]
    rintro (h | ⟨h8, h7, h3, h4⟩)
    · exact Bool.noConfusion h
    · rcases hst with h | h | h | h
      · exact h8 h
      · exact h7 h
      · exact h3 h
      · exact h4 h
  exact congrArg Host.Outcome.next ((gate_writable _ _ _ _ hw).trans ((if_neg (isDrone_of hdie)).trans
    ((if_neg (ne_false_of_eq_true hv)).trans (if_neg hgo))))

end

theorem execDroneTraining_trained (h : s.droneState die ≠ 0) (ts : List TargetInfo) : execDroneTraining die ts s = .next s :=
  congrArg Host.Outcome.next (if_pos (Or.inr h))

/-- Training leaves the drone in `TRAINING`, whether it accepts a target or none (R681). -/
theorem execDroneTraining_trains (hdie : die = 6 ∨ die = 7) (h : s.droneState die = 0) (ts : List TargetInfo) :
    ∃ t : State, execDroneTraining die ts s = .next t ∧ t.droneState die = 1 := by
  have hgo : ¬(isDrone die = false ∨ s.droneState die ≠ 0) := by
    rintro (h' | h')
    · exact isDrone_of hdie h'
    · exact h' h
  have hreg (t : State) {o : Nat} (w : Word) (h : o ≠ 0x00C) : (t.setReg (droneA die o) w).droneState die = t.droneState die :=
    droneState_of_reg (setReg_reg_at_other t .drone die die w h)
  have hdrone (t : State) (x : Drone) : (t.setDrone die x).droneState die = t.droneState die := droneState_of_reg rfl
  refine ⟨_, congrArg Host.Outcome.next (if_neg hgo), ?_⟩
  dsimp only
  split
  case h_1 => rw [hdrone, setDroneState_same _ _ (by decide)]
  case h_2 => rw [droneShow_droneState, hreg _ _ (by decide), hreg _ _ (by decide), hdrone, setDroneState_same _ _ (by decide)]

/-- A drone that mounts from its own anchor: what was not committed is gone, and its buffer is empty (R683, R711). -/
def Drone.recovered (x : Drone) : Drone :=
  let objs := (x.objs.filter (fun e => match e.2 with
    | some o => o.committed
    | none => false)).map (fun (e : Nat × Option FObj) => (e.1, e.2.map (fun (o : FObj) => { o with closing := none, deleting := none })))
  let x1 := { x with objs := objs, buf := [], frames := [], victim := none, rewrite := [], ckptWanted := false }
  { x1 with blocks := x1.blocks.map (fun (e : Nat × NBlock) =>
      if e.2.st = 1 then (e.1, { e.2 with st := if x1.validIn e.1 = [] then 4 else 2 }) else e) }

theorem recovered_buf (x : Drone) : x.recovered.buf = [] := rfl

/-- A drone after its recovery. -/
def State.recovers (s : State) (die cap : Nat) : State :=
  ((((s.setDrone die (s.drone die).recovered).setReg (droneA die 0x134) (BitVec.ofNat 32 (s.drone die).recovered.objs.length)).mounts
    die cap).raise (droneA die 0) 5).droneShow die

theorem recovers_drone : (s.recovers die cap).drone die = (s.drone die).recovered := by
  unfold State.recovers
  rw [(droneShow_regsOnly _ die).drone, drone_raise, (mounts_regsOnly _ die cap).drone, drone_setReg, drone_setDrone_same]

theorem recovers_state : (s.recovers die cap).droneState die = 3 ∨ (s.recovers die cap).droneState die = 4 := by
  unfold State.recovers
  rw [droneShow_droneState, raise_droneState]
  exact mounts_state ..

theorem recovers_int : (s.recovers die cap).rbit (Blk.drone.at die die 0x010) 5 = true :=
  droneShow_int _ _ (rbit_raise_at _ .drone _ _ (by decide))

section
variable (hdie : die = 6 ∨ die = 7) (h : s.droneState die = 1)
include hdie h

theorem recovery_due : ¬(isDrone die = false ∨ s.droneState die ≠ 1) := by
  rintro (h' | h')
  · exact isDrone_of hdie h'
  · exact h' h

theorem execDroneRecovery_none (ha : (s.drone die).anchor = .none) :
    execDroneRecovery die cap s = .next ((s.setDroneState die 8).raise (droneA die 0) 6) := by
  refine congrArg Host.Outcome.next ((if_neg (recovery_due hdie h)).trans ?_)
  dsimp only
  split
  case h_1 => rfl
  case h_2 h' => exact Anchor.noConfusion (ha.symm.trans h')
  case h_3 h' => exact Anchor.noConfusion (ha.symm.trans h')

theorem execDroneRecovery_foreign (ha : (s.drone die).anchor = .foreign) :
    execDroneRecovery die cap s = .next ((s.setDroneState die 7).raise (droneA die 0) 6) := by
  refine congrArg Host.Outcome.next ((if_neg (recovery_due hdie h)).trans ?_)
  dsimp only
  split
  case h_1 h' => exact Anchor.noConfusion (ha.symm.trans h')
  case h_2 => rfl
  case h_3 h' => exact Anchor.noConfusion (ha.symm.trans h')

theorem execDroneRecovery_own (ha : (s.drone die).anchor = .own) : execDroneRecovery die cap s = .next (s.recovers die cap) := by
  refine congrArg Host.Outcome.next ((if_neg (recovery_due hdie h)).trans ?_)
  dsimp only
  split
  case h_1 h' => exact Anchor.noConfusion (ha.symm.trans h')
  case h_2 h' => exact Anchor.noConfusion (ha.symm.trans h')
  case h_3 => rfl

end

end

/-! ### The flush (R708) -/

section
variable (s : State) (d : Nat)

theorem commitDone_pwr (id : Nat) (o : FObj) (tag st : Nat) : (s.commitDone d id o tag st).pwr = s.pwr := by
  unfold State.commitDone
  extract_lets s1
  split
  · split <;> rfl
  · rfl

theorem deleteDone_pwr (id : Nat) (o : FObj) (tag st : Nat) : (s.deleteDone d id o tag st).pwr = s.pwr := by
  unfold State.deleteDone
  extract_lets s1
  split
  · split <;> rfl
  · rfl

theorem flashSettle_pwr : (s.flashSettle d).pwr = s.pwr := by
  refine foldl_keeps State.pwr _ (fun t e => ?_) _ s
  split
  · rfl
  · next o _ =>
    extract_lets buf t1
    have h1 : t1.pwr = t.pwr := by
      unfold t1
      split
      · split
        · rfl
        · exact commitDone_pwr ..
      · rfl
    split
    · split
      · exact h1
      · exact (deleteDone_pwr ..).trans h1
    · exact h1

theorem programPage_pwr (st : Nat) : (s.programPage d st).pwr = s.pwr := by
  unfold State.programPage
  extract_lets x k
  split
  split
  · rfl
  · split
    · rfl
    · exact flashSettle_pwr ..

theorem switchSlot_pwr (id u psa why : Nat) : (s.switchSlot d id u psa why).pwr = s.pwr := by
  unfold State.switchSlot
  extract_lets s1
  split
  · rfl
  · split
    · rfl
    · dsimp only
      split
      · exact cntAdd_pwr ..
      · split
        · exact cntAdd_pwr ..
        · rfl

theorem emptied_pwr : (s.emptied d).pwr = s.pwr := by
  unfold State.emptied
  extract_lets x free gone s1
  exact foldl_keeps State.pwr _ (fun t _ => cntAdd_pwr t .drone d d 0x050 1) _ s1

theorem relocateCommit_pwr : (s.relocateCommit d).pwr = s.pwr := by
  unfold State.relocateCommit
  split
  · rfl
  · extract_lets s1
    split
    · exact (droneShow_regsOnly _ d).pwr.trans ((emptied_pwr ..).trans (switchSlot_pwr ..))
    · rfl

theorem flushAll_succ (n : Nat) : s.flushAll d (n + 1) =
    ((List.range 5).foldl (fun (t : State) st => t.programPage d st) (s.relocateCommit d)).flushAll d n := by
  delta State.flushAll
  rfl

theorem flushAll_pwr (n : Nat) : (s.flushAll d n).pwr = s.pwr := by
  induction n generalizing s with
  | zero => rfl
  | succ n ih =>
    rw [flushAll_succ, ih]
    exact (foldl_keeps State.pwr (fun (t : State) st => t.programPage d st) (fun t st => programPage_pwr t d st) _ _).trans
      (relocateCommit_pwr s d)

/-- A drone that halts with an empty buffer. -/
def State.halted (s : State) (d : Nat) : State :=
  (((s.modDrone d (fun x => { x with buf := [] })).setDroneState d 6).raise (droneA d 0) 4).droneShow d

theorem flushDone_eq : s.flushDone d = (s.flushAll d (2 * (s.drone d).buf.length + 1)).halted d := rfl

theorem halted_state : (s.halted d).droneState d = 6 := by
  unfold State.halted
  rw [droneShow_droneState, raise_droneState, setDroneState_same _ _ (by decide)]

theorem halted_buf : ((s.halted d).drone d).buf = [] := by
  unfold State.halted
  rw [(droneShow_regsOnly _ d).drone, drone_raise, drone_setDroneState, drone_modDrone]

theorem halted_int : (s.halted d).rbit (Blk.drone.at d d 0x010) 4 = true := droneShow_int _ _ (rbit_raise_at _ .drone _ _ (by decide))

theorem halted_pwr : (s.halted d).pwr = s.pwr := (droneShow_regsOnly _ d).pwr

theorem flushDone_pwr : (s.flushDone d).pwr = s.pwr := by
  rw [flushDone_eq, halted_pwr, flushAll_pwr]

variable {s d}

theorem execFlushDone_idle (h : s.droneState d ≠ 5) : execFlushDone d s = .next s := congrArg Host.Outcome.next (if_pos (Or.inr h))

theorem execFlushDone_flushing (hd : d = 6 ∨ d = 7) (h : s.droneState d = 5) (hreset : s.pwr.failReset = false) :
    execFlushDone d s = .next (s.flushDone d) := by
  have hgo : ¬(isDrone d = false ∨ s.droneState d ≠ 5) := by
    rintro (h' | h')
    · exact isDrone_of hd h'
    · exact h' h
  have hstay : ¬((s.flushDone d).pwr.failReset = true ∧ (s.flushDone d).dronesHalted = true) := by
    rw [flushDone_pwr, hreset]
    exact fun h => Bool.false_ne_true h.1
  exact congrArg Host.Outcome.next ((if_neg hgo).trans (if_neg hstay))

end

/-! ### The fall of power (R708, R820, R852) -/

section
variable (s : State) (d : Nat)

/-- A drone starts its flush, and its housekeeping is abandoned. -/
def State.fallsOn (s : State) (d : Nat) : State :=
  (s.droneFlush d).modDrone d (fun x => { x with
    victim := none
    rewrite := x.rewrite.filter (fun v => decide (v.2 = 4))
    buf := x.buf.filter (fun e => match e.kind with
      | .move _ _ w => decide (w = 4)
      | _ => true) })

/-- Both drones flush, and every self-test is aborted. -/
def State.fallen (s : State) : State := (List.range 8).foldl (fun (t : State) d => t.bistAbort d (fun _ => true)) ((s.fallsOn 6).fallsOn 7)

/-- The fall is noted, shown, raised and told. -/
def State.fallShown (s : State) : State :=
  (({ s with pwr := { s.pwr with fail := true } }.setFld (Blk.pwr.at 4 4 0x108) 10 10 1).raise (Blk.pwr.at 4 4 0) 2).ibi 3

theorem powerFall_eq : s.powerFall = s.fallen.fallShown := by
  unfold State.powerFall
  extract_lets one s0 s1
  have hone (t : State) (e : Nat) : one t e = t.fallsOn e := rfl
  have hs0 : s0 = (s.fallsOn 6).fallsOn 7 := (hone _ 7).trans (congrArg (State.fallsOn · 7) (hone s 6))
  have hs1 : s1 = s.fallen := congrArg (List.foldl (fun (t : State) e => t.bistAbort e (fun _ => true)) · (List.range 8)) hs0
  exact congrArg State.fallShown hs1

theorem droneFlush_eq : s.droneFlush d = if s.droneState d = 6 then s else s.setDroneState d 5 := by
  delta State.droneFlush
  rfl

theorem fallsOn_state : (s.fallsOn d).droneState d = if s.droneState d = 6 then 6 else 5 := by
  unfold State.fallsOn
  rw [droneState_modDrone, droneFlush_eq]
  split
  case isTrue h => exact h
  case isFalse h => exact setDroneState_same s d (by decide)

theorem fallsOn_reg {a : Nat} (h : Blk.drone.at d d 0x00C ≠ a) : (s.fallsOn d).reg a = s.reg a := by
  unfold State.fallsOn
  rw [reg_modDrone, droneFlush_eq]
  split
  · rfl
  · exact setFld_reg_other _ _ _ _ h

theorem fallsOn_victim : ((s.fallsOn d).drone d).victim = none := congrArg Drone.victim (drone_modDrone ..)

theorem droneFlush_regsOnly : RegsOnly s (s.droneFlush d) := by
  rw [droneFlush_eq]
  split
  · exact RegsOnly.refl s
  · exact (RegsOnly.refl s).setFld ..

theorem fallsOn_drone_other {e : Nat} (h : d ≠ e) : (s.fallsOn d).drone e = s.drone e :=
  (drone_setDrone_other _ _ _ h).trans ((droneFlush_regsOnly s d).drone e)

theorem fallsOn_mem : (s.fallsOn d).mem = s.mem := (mem_modDrone (s.droneFlush d) d _).trans (droneFlush_regsOnly s d).mem

/-- A self-test that ends changes its own registers, counts and raises. -/
theorem bistEnd_reg (res : Nat) {a : Nat} (h0 : bistA d 0x00C ≠ a) (h1 : a % 4096 ≠ 0x010) (h2 : a % 4096 ≠ 0x028) :
    (s.bistEnd d res).reg a = s.reg a := by
  unfold State.bistEnd
  extract_lets s1
  have hs1 : s1.reg a = s.reg a :=
    (raise_reg_ofOffset _ _ _ h1).trans ((cntAdd_reg_ofOffset _ _ _ _ _ _ h2).trans
      ((setFld_reg_other _ _ _ _ h0).trans (setFld_reg_other _ _ _ _ h0)))
  rw [ibi_reg]
  split
  · exact (raise_reg_ofOffset _ _ _ h1).trans ((cntAdd_reg_ofOffset _ _ _ _ _ _ h2).trans hs1)
  · exact hs1

/-- The drones and memory. -/
def State.dronesMem (s : State) : SMap Drone × Memory := (s.drones, s.mem)

theorem bistEnd_dronesMem (res : Nat) : (s.bistEnd d res).dronesMem = s.dronesMem := by
  have hcnt (t : State) (off : Nat) : (t.cntAdd .bist d d off 1).dronesMem = t.dronesMem := congrArg₂ Prod.mk (cntAdd_drones ..) (cntAdd_mem ..)
  unfold State.bistEnd
  extract_lets s1
  have hs1 : s1.dronesMem = s.dronesMem := hcnt ..
  refine (congrArg State.dronesMem (ibi_frame ..) : _).trans ?_
  split
  · exact (hcnt ..).trans hs1
  · exact hs1

theorem bistAbort_cases (f : BistRun → Bool) : s.bistAbort d f = s ∨ s.bistAbort d f = s.bistEnd d 4 := by
  unfold State.bistAbort
  split
  · split
    · exact Or.inr rfl
    · exact Or.inl rfl
  · exact Or.inl rfl

/-- The end of the self-tests leaves what the drones show and hold, and memory. -/
theorem fallen_state {e : Nat} (he : e = 6 ∨ e = 7) :
    s.fallen.reg (Blk.drone.at e e 0x00C) = ((s.fallsOn 6).fallsOn 7).reg (Blk.drone.at e e 0x00C) := by
  refine List.foldlRecOn (motive := fun t : State => t.reg _ = ((s.fallsOn 6).fallsOn 7).reg _) _ _ rfl fun t ht c hc => ?_
  have hne : ∀ c < 8, ∀ e < 8, 6 ≤ e → bistA c 0x00C ≠ Blk.drone.at e e 0x00C := by decide
  have hmod : Blk.drone.at e e 0x00C % 4096 = 0x00C := at_mod _ _ _ (by decide)
  rcases bistAbort_cases t c (fun _ => true) with h | h <;> rw [h]
  · exact ht
  · refine (bistEnd_reg t c 4 (hne c (List.mem_range.mp hc) e (by omega) (by omega)) ?_ ?_).trans ht <;> rw [hmod] <;> decide

theorem fallen_dronesMem : s.fallen.dronesMem = ((s.fallsOn 6).fallsOn 7).dronesMem := by
  refine foldl_keeps State.dronesMem _ (fun t c => ?_) _ _
  rcases bistAbort_cases t c (fun _ => true) with h | h <;> rw [h]
  exact bistEnd_dronesMem ..

theorem fallShown_state {e : Nat} (he : e = 6 ∨ e = 7) : s.fallShown.droneState e = s.droneState e := by
  have hne : ∀ e < 8, 6 ≤ e → Blk.pwr.at 4 4 0x108 ≠ Blk.drone.at e e 0x00C := by decide
  refine droneState_of_reg ((ibi_reg ..).trans ((raise_reg_ofOffset _ _ _ ?_).trans ?_))
  · rw [at_mod _ _ _ (by decide)]
    decide
  · exact setFld_reg_other { s with pwr := { s.pwr with fail := true } } _ _ _ (hne e (by omega) (by omega))

theorem fallShown_dronesMem : s.fallShown.dronesMem = s.dronesMem := (congrArg State.dronesMem (ibi_frame ..) : _)

theorem fallShown_fail : s.fallShown.pwr.fail = true := (congrArg (fun t : State => t.pwr.fail) (ibi_frame ..) : _)

theorem fallShown_bit : s.fallShown.rbit (Blk.pwr.at 4 4 0x108) 10 = true := by
  unfold State.fallShown
  rw [rbit_of_reg (ibi_reg ..), rbit_of_reg (raise_reg_ofOffset _ _ _ (by decide))]
  exact rbit_setFld_same _ _ _ (by decide) 1

/-- Each drone flushes, one that is `HALTED` apart, and empties no block. -/
theorem powerFall_drone {e : Nat} (he : e = 6 ∨ e = 7) : s.powerFall.droneState e = (if s.droneState e = 6 then 6 else 5) ∧
    (s.powerFall.drone e).victim = none := by
  have hdrones : s.powerFall.drones = ((s.fallsOn 6).fallsOn 7).drones := by
    rw [powerFall_eq]
    exact congrArg Prod.fst ((fallShown_dronesMem _).trans (fallen_dronesMem s))
  have hdrone : s.powerFall.drone e = ((s.fallsOn 6).fallsOn 7).drone e := congrArg (SMap.get Drone.blank · e) hdrones
  rw [hdrone, powerFall_eq, fallShown_state _ he, droneState_of_reg (fallen_state s he)]
  rcases he with rfl | rfl
  · rw [droneState_of_reg (fallsOn_reg _ 7 (by decide)), fallsOn_state, fallsOn_drone_other _ 7 (by decide), fallsOn_victim]
    exact ⟨rfl, rfl⟩
  · rw [fallsOn_state, fallsOn_victim, droneState_of_reg (fallsOn_reg s 6 (by decide))]
    exact ⟨rfl, rfl⟩

theorem powerFall_mem : s.powerFall.mem = s.mem := by
  rw [powerFall_eq]
  exact (congrArg Prod.snd ((fallShown_dronesMem _).trans (fallen_dronesMem s))).trans ((fallsOn_mem _ 7).trans (fallsOn_mem s 6))

end

/-- Settles O50: each command's own branch; what a drone shows of its blocks never changes its state. -/
theorem droneStates : Obligations.DroneStates := by
  unfold Obligations.DroneStates
  refine ⟨fun who die v s hdie => ⟨fun slots hst hdue => ?checkpoint, fun slots => execCheckpoint_unmounted,
      fun hw => ⟨fun hv => ⟨_, execCkptNow_asks hdie hw hv, ?wanted, ?askMem⟩,
        fun cap hv => ⟨execDroneFormat_refused cap hdie hw hv, ?formats⟩⟩,
      fun ts h => execDroneTraining_trains hdie h ts, fun ts h => execDroneTraining_trained h ts,
      fun cap h => ?recovery, ?flush, execFlushDone_idle⟩,
    fun s => ⟨fun h => congrArg Host.Outcome.next (if_pos h), fun h => ?falls⟩⟩
  case checkpoint =>
    obtain ⟨hjrnl, hwanted, hseq, hobjs, hmem⟩ := checkpoint_spec (s := s) (die := die) (slots := slots)
    exact ⟨_, execCheckpoint_writes hdie hst hdue, hjrnl, hwanted, hseq, hobjs, sameMem_of_mem hmem⟩
  case wanted => exact congrArg Drone.ckptWanted (drone_modDrone ..)
  case askMem => exact sameMem_of_mem ((mem_modDrone ..).trans (writeAt_mem ..))
  case formats =>
    intro hoff hst
    refine ⟨_, execDroneFormat_formats cap hdie hw hv hoff hst, ?_, ?_, ?_, formats_state ..⟩ <;> rw [formats_drone] <;> rfl
  case recovery =>
    cases ha : (s.drone die).anchor with
    | none =>
      exact ⟨_, execDroneRecovery_none cap hdie h ha,
        fun _ => ⟨(raise_droneState ..).trans (setDroneState_same _ _ (by decide)), rbit_raise_at _ .drone _ _ (by decide)⟩,
        fun h' => Anchor.noConfusion h', fun h' => Anchor.noConfusion h'⟩
    | foreign =>
      exact ⟨_, execDroneRecovery_foreign cap hdie h ha, fun h' => Anchor.noConfusion h',
        fun _ => ⟨(raise_droneState ..).trans (setDroneState_same _ _ (by decide)), rbit_raise_at _ .drone _ _ (by decide)⟩,
        fun h' => Anchor.noConfusion h'⟩
    | own =>
      exact ⟨_, execDroneRecovery_own cap hdie h ha, fun h' => Anchor.noConfusion h', fun h' => Anchor.noConfusion h',
        fun _ => ⟨recovers_state cap, recovers_int cap, by rw [recovers_drone, recovered_buf]⟩⟩
  case flush =>
    intro hst hreset
    refine ⟨_, execFlushDone_flushing hdie hst hreset, ?_⟩
    rw [flushDone_eq]
    exact ⟨halted_state .., halted_buf .., halted_int ..⟩
  case falls =>
    refine ⟨s.powerFall, congrArg Host.Outcome.next (if_neg (Bool.eq_false_iff.mp h)), ?fail, ?bit, fun e he => powerFall_drone s he,
      sameMem_of_mem (powerFall_mem s)⟩
    case fail =>
      rw [powerFall_eq]
      exact fallShown_fail _
    case bit =>
      rw [powerFall_eq]
      exact fallShown_bit _

end Sys2Proof.Machine
